-- ==== Sys2Proof/Word.lean ====
section
/-! DEFINITION. The word types of the AGM-6480 and their plainest names. -/

namespace Sys2Proof

/-- A byte of storage. -/
abbrev Byte := BitVec 8

/-- The value half of a vector, queue or tile element (R67). -/
abbrev W32 := BitVec 32

/-- A scalar register, a control register, or a virtual address as the address arithmetic forms it (R91, R177). -/
abbrev W64 := BitVec 64

/-- A register field of a slot (R28). -/
abbrev Reg := BitVec 6

/-- A sparse table: pairs of a key and a value, keys strictly rising (see `mapWf`). -/
abbrev Table (α : Type) := List (Nat × α)

end Sys2Proof
end

