-- ==== Sys2Proof/Syntax.lean ====
section
/-! DEFINITION. The instructions and steps of the AGM-6480: one constructor per row of spec/opcode_table.json. A slot
operation carries the fields of its slot exactly as encoded (R28); an event of the device or its environment has no bits,
and its operands stand in the state's event latch (EvArg). Decode.lean reads bits into the slot operations. -/

namespace Sys2Proof

/-- A 10-bit immediate, offset or count field with the 30 literal bits that may extend it (R24, R27). -/
structure Imm10 where
  field : BitVec 10
  lit : Option (BitVec 30)
deriving DecidableEq, Repr

/-- A 12-bit branch offset field with its optional literal (R24, R33). -/
structure Imm12 where
  field : BitVec 12
  lit : Option (BitVec 30)
deriving DecidableEq, Repr

/-- A 16-bit immediate field with its optional literal (R24, R27). -/
structure Imm16 where
  field : BitVec 16
  lit : Option (BitVec 30)
deriving DecidableEq, Repr

/-- What a die's management core finds on its start order (R447): the step that failed, if any, with its code; the
links that trained; and the fuses. -/
structure BootOutcome where
  failed : Option (Nat × BitVec 8)
  links0 : W64
  links1 : W64
  fuses : BitVec 128
deriving DecidableEq, Repr

/-- What the host asks of a function's DOE mailbox (R441): a secure session carries the tenant key (R442), the key of the
function's selective IDE stream (R440), and the MACsec key that modules agree for a partition's frames (R443). -/
inductive SpdmMsg where
  | getMeasurements
  | getCertificate (slot : Nat)
  | keyExchange (nonce : BitVec 256)
  | deliverKey (key : BitVec 768)
  | programIde (key : BitVec 256)
  | macKey (key : BitVec 256)
  | endSession
deriving DecidableEq, Repr

/-- A PCIe AtomicOp: fetch-and-add, swap, or compare-and-swap, of 4 or 8 bytes (R432). -/
inductive HostAtomic where
  | fetchAdd (size : Nat) (x : W64)
  | swap (size : Nat) (x : W64)
  | cas (size : Nat) (cmp x : W64)
deriving DecidableEq, Repr

/-- A queue the device serves: a copy queue of an engine (R128), a launch queue (R327), a collective queue (R364). -/
inductive QueueRef where
  | copy (die e j : Nat)
  | launch (die n : Nat)
  | coll (die n : Nat)
deriving DecidableEq, Repr

/-- Who writes a control register: user state by MTC, privileged state by PRIV.MTC or the host driver, or the die's
management core (R2, R461). -/
inductive Writer where
  | user
  | priv
  | management
deriving DecidableEq, Repr

/-- What a boundary loss takes down (R359): one link of the package, or one die. -/
inductive LinkRef where
  | link (n : Nat)
  | die (n : Nat)
deriving DecidableEq, Repr

/-- What a fabric frame says (R445). DESIGN CHOICE: Table 24-9 names four kinds and the manual leaves the layout of the flits
open, so the model holds what is said. Data: a peer's write, elements of a vertex's partial, bytes of a chunk's output; an
acknowledgement; a fabric atomic and its answer; and collective control: an operation begins, a chunk begins (and whether it
is reduced), a module has its output, it has failed, an epoch is asked for and acknowledged, the operation is over, a pod link
has fallen, a context has arrived at a barrier of POD scope. An operation is named by its root module and the root's number
for it, and what belongs to one epoch of it carries the epoch (R372). -/
inductive FabricMsg where
  | write (va : W64) (data : List Byte)
  | partials (root id epoch chunk vertex : Nat) (l : List (BitVec 33))
  | output (root id epoch chunk : Nat) (data : List Byte)
  | ack
  | atomic (va : W64) (op : HostAtomic)
  | reply (old : W64)
  | start (root id : Nat) (words : List W64) (mods : List Nat)
  | run (root id epoch chunk : Nat) (reduce : Bool)
  | performed (root id epoch chunk by_ : Nat)
  | failed (root id code : Nat)
  | epoch (root id epoch : Nat)
  | epochAck (root id epoch by_ : Nat)
  | finish (root id : Nat)
  | fall (link : Nat)
  | arrive (barrier count : Nat)
deriving DecidableEq, Repr

/-- A fabric frame at a scale-out port (Table 24-9): the modules, the class, its sequence number, or the one it acknowledges, its
partition tag, and what it says. -/
structure Frame where
  dst : Nat
  src : Nat
  cls : Nat
  seq : Nat
  ptag : BitVec 16
  msg : FabricMsg
deriving DecidableEq, Repr

/-- The operands of an event: which units it concerns, or what its author says. Each event's meaning says which form it
takes; with another form it is not enabled and changes nothing. -/
inductive EvArg where
  | none
  | n (a b c : Nat)
  | word (a b : Nat) (x : W64)
  | ctl (w : Writer) (die core slot num : Nat) (x : W64)
  | boot (die : Nat) (o : BootOutcome)
  | req (vf : Nat) (x : BitVec 896) (tee : Bool)
  | spdm (vf : Nat) (m : SpdmMsg)
  | host (vf : Nat) (va : W64) (size : Nat) (data : List Byte) (tee : Bool)
  | hostAtomic (vf : Nat) (va : W64) (op : HostAtomic) (tee : Bool)
  | queue (q : QueueRef)
  | bell (vf off : Nat) (tee : Bool)
  | link (l : LinkRef)
  | frame (port : Nat) (f : Frame)
deriving DecidableEq, Repr

/-- The instruction set: every row of spec/opcode_table.json. -/
inductive Instr where
  /-- ADD (R196). -/
  | add (d : Reg) (a : Reg) (b : Reg)
  /-- SUB (R196). -/
  | sub (d : Reg) (a : Reg) (b : Reg)
  /-- AND (R196). -/
  | and (d : Reg) (a : Reg) (b : Reg)
  /-- OR (R196). -/
  | or (d : Reg) (a : Reg) (b : Reg)
  /-- XOR (R196). -/
  | xor (d : Reg) (a : Reg) (b : Reg)
  /-- ANDN (R196). -/
  | andn (d : Reg) (a : Reg) (b : Reg)
  /-- ADDI (R197). -/
  | addi (d : Reg) (a : Reg) (imm : Imm10)
  /-- ANDI (R197). -/
  | andi (d : Reg) (a : Reg) (imm : Imm10)
  /-- ORI (R197). -/
  | ori (d : Reg) (a : Reg) (imm : Imm10)
  /-- XORI (R197). -/
  | xori (d : Reg) (a : Reg) (imm : Imm10)
  /-- SHL (R198). -/
  | shl (d : Reg) (a : Reg) (b : Reg)
  /-- SHR (R198). -/
  | shr (d : Reg) (a : Reg) (b : Reg)
  /-- SAR (R198). -/
  | sar (d : Reg) (a : Reg) (b : Reg)
  /-- SHLI (R198). -/
  | shli (d : Reg) (a : Reg) (imm : Imm10)
  /-- SHRI (R198). -/
  | shri (d : Reg) (a : Reg) (imm : Imm10)
  /-- SARI (R198). -/
  | sari (d : Reg) (a : Reg) (imm : Imm10)
  /-- MUL (R199). -/
  | mul (d : Reg) (a : Reg) (b : Reg)
  /-- MULH (R199). -/
  | mulh (d : Reg) (a : Reg) (b : Reg)
  /-- MULHU (R199). -/
  | mulhu (d : Reg) (a : Reg) (b : Reg)
  /-- MIN (R200). -/
  | min (d : Reg) (a : Reg) (b : Reg)
  /-- MAX (R200). -/
  | max (d : Reg) (a : Reg) (b : Reg)
  /-- MINU (R200). -/
  | minu (d : Reg) (a : Reg) (b : Reg)
  /-- MAXU (R200). -/
  | maxu (d : Reg) (a : Reg) (b : Reg)
  /-- SEQ (R201). -/
  | seq (d : Reg) (a : Reg) (b : Reg)
  /-- SNE (R201). -/
  | sne (d : Reg) (a : Reg) (b : Reg)
  /-- SLT (R201). -/
  | slt (d : Reg) (a : Reg) (b : Reg)
  /-- SLTU (R201). -/
  | sltu (d : Reg) (a : Reg) (b : Reg)
  /-- SEQI (R201). -/
  | seqi (d : Reg) (a : Reg) (imm : Imm10)
  /-- SNEI (R201). -/
  | snei (d : Reg) (a : Reg) (imm : Imm10)
  /-- SLTI (R201). -/
  | slti (d : Reg) (a : Reg) (imm : Imm10)
  /-- SLTUI (R201). -/
  | sltui (d : Reg) (a : Reg) (imm : Imm10)
  /-- SEL (R202). -/
  | sel (d : Reg) (a : Reg) (b : Reg) (c : BitVec 4)
  /-- LDI (R203). -/
  | ldi (d : Reg) (imm : Imm16)
  /-- LDHI (R203). -/
  | ldhi (d : Reg) (imm : Imm16)
  /-- CLZ (R204). -/
  | clz (d : Reg) (a : Reg)
  /-- CTZ (R204). -/
  | ctz (d : Reg) (a : Reg)
  /-- POPC (R204). -/
  | popc (d : Reg) (a : Reg)
  /-- BREV (R204). -/
  | brev (d : Reg) (a : Reg)
  /-- BFX (R206). -/
  | bfx (d : Reg) (a : Reg) (b : Reg)
  /-- BFX.U (R206). -/
  | bfxU (d : Reg) (a : Reg) (b : Reg)
  /-- BFI (R207). -/
  | bfi (d : Reg) (a : Reg) (b : Reg)
  /-- FSHR (R208). -/
  | fshr (d : Reg) (a : Reg) (b : Reg)
  /-- FSHRI (R208). -/
  | fshri (d : Reg) (a : Reg) (imm : Imm10)
  /-- B.COND (R291). -/
  | bCond (cond : BitVec 4) (a : Reg) (off : Imm12)
  /-- JMP (R292). -/
  | jmp (imm : Imm16)
  /-- JMPR (R292). -/
  | jmpr (a : Reg)
  /-- CALL (R292). -/
  | call (d : Reg) (imm : Imm16)
  /-- RET (R292). -/
  | ret (a : Reg)
  /-- LOOP (R293). -/
  | loop (a : Reg) (last : BitVec 12)
  /-- LOOPI (R293). -/
  | loopi (count : Imm10) (last : BitVec 12)
  /-- LIDX (R295). -/
  | lidx (d : Reg) (imm : Imm10)
  /-- LBRK (R296). -/
  | lbrk (a : Reg)
  /-- FMTSET (R274). -/
  | fmtset (a : Reg)
  /-- FMTGET (R274). -/
  | fmtget (d : Reg)
  /-- CLKDIV (R307). -/
  | clkdiv (a : Reg)
  /-- MFC (R306). -/
  | mfc (d : Reg) (imm : Imm10)
  /-- MTC (R306). -/
  | mtc (ctl : Imm10) (a : Reg)
  /-- TSTAMP (R305). -/
  | tstamp (d : Reg)
  /-- CYCLES (R305). -/
  | cycles (d : Reg)
  /-- YIELD (R301). -/
  | yield
  /-- WAIT (R302). -/
  | wait (a : Reg)
  /-- SPAWN (R332). -/
  | spawn (d : Reg) (a : Reg)
  /-- DONE (R303). -/
  | done
  /-- PHASE (R304). -/
  | phase
  /-- TRAP (R382). -/
  | trap (imm : Imm16)
  /-- SYS (R382). -/
  | sys (imm : Imm16)
  /-- VADD.F (R215). -/
  | vaddF (d : Reg) (a : Reg) (b : Reg) (fin : Bool) (m : BitVec 3)
  /-- VSUB.F (R215). -/
  | vsubF (d : Reg) (a : Reg) (b : Reg) (fin : Bool) (m : BitVec 3)
  /-- VMUL.F (R215). -/
  | vmulF (d : Reg) (a : Reg) (b : Reg) (fin : Bool) (m : BitVec 3)
  /-- VFMA (R215). -/
  | vfma (d : Reg) (a : Reg) (b : Reg) (fin : Bool) (m : BitVec 3)
  /-- VFMS (R215). -/
  | vfms (d : Reg) (a : Reg) (b : Reg) (fin : Bool) (m : BitVec 3)
  /-- VFNMA (R215). -/
  | vfnma (d : Reg) (a : Reg) (b : Reg) (fin : Bool) (m : BitVec 3)
  /-- VMIN.F (R220). -/
  | vminF (d : Reg) (a : Reg) (b : Reg) (m : BitVec 3)
  /-- VMAX.F (R220). -/
  | vmaxF (d : Reg) (a : Reg) (b : Reg) (m : BitVec 3)
  /-- VABS (R220). -/
  | vabs (d : Reg) (a : Reg) (m : BitVec 3)
  /-- VNEG (R220). -/
  | vneg (d : Reg) (a : Reg) (m : BitVec 3)
  /-- VCMP.F (R221). -/
  | vcmpF (d : Reg) (a : Reg) (b : Reg) (cond : BitVec 3)
  /-- VCLASS (R222). -/
  | vclass (d : Reg) (a : Reg) (imm : Imm10)
  /-- VCVT (R228). -/
  | vcvt (d : Reg) (a : Reg) (imm : Imm10)
  /-- VRO (R229). -/
  | vro (d : Reg) (a : Reg) (imm : Imm10)
  /-- VFIN (R230). -/
  | vfin (d : Reg) (a : Reg) (imm : Imm10)
  /-- VSTKY (R223). -/
  | vstky (d : Reg) (a : Reg)
  /-- VCLRS (R231). -/
  | vclrs (d : Reg) (a : Reg) (m : BitVec 3)
  /-- VADD.I (R224). -/
  | vaddI (d : Reg) (a : Reg) (b : Reg) (m : BitVec 3)
  /-- VSUB.I (R224). -/
  | vsubI (d : Reg) (a : Reg) (b : Reg) (m : BitVec 3)
  /-- VMUL.I (R224). -/
  | vmulI (d : Reg) (a : Reg) (b : Reg) (m : BitVec 3)
  /-- VMULH.I (R224). -/
  | vmulhI (d : Reg) (a : Reg) (b : Reg) (m : BitVec 3)
  /-- VMIN.I (R224). -/
  | vminI (d : Reg) (a : Reg) (b : Reg) (m : BitVec 3)
  /-- VMAX.I (R224). -/
  | vmaxI (d : Reg) (a : Reg) (b : Reg) (m : BitVec 3)
  /-- VADDS.I (R224). -/
  | vaddsI (d : Reg) (a : Reg) (b : Reg) (m : BitVec 3)
  /-- VAND (R224). -/
  | vand (d : Reg) (a : Reg) (b : Reg) (m : BitVec 3)
  /-- VOR (R224). -/
  | vor (d : Reg) (a : Reg) (b : Reg) (m : BitVec 3)
  /-- VXOR (R224). -/
  | vxor (d : Reg) (a : Reg) (b : Reg) (m : BitVec 3)
  /-- VANDN (R224). -/
  | vandn (d : Reg) (a : Reg) (b : Reg) (m : BitVec 3)
  /-- VSHL (R224). -/
  | vshl (d : Reg) (a : Reg) (b : Reg) (m : BitVec 3)
  /-- VSHR (R224). -/
  | vshr (d : Reg) (a : Reg) (b : Reg) (m : BitVec 3)
  /-- VSAR (R224). -/
  | vsar (d : Reg) (a : Reg) (b : Reg) (m : BitVec 3)
  /-- VCMP.I (R221). -/
  | vcmpI (d : Reg) (a : Reg) (b : Reg) (cond : BitVec 3)
  /-- VBFX (R246). -/
  | vbfx (d : Reg) (a : Reg) (b : Reg) (m : BitVec 3)
  /-- VFSHR (R247). -/
  | vfshr (d : Reg) (a : Reg) (imm : Imm10)
  /-- VPOPC (R248). -/
  | vpopc (d : Reg) (a : Reg) (m : BitVec 3)
  /-- VCLZ (R248). -/
  | vclz (d : Reg) (a : Reg) (m : BitVec 3)
  /-- KAND (R249). -/
  | kand (d : Reg) (a : Reg) (b : Reg)
  /-- KOR (R249). -/
  | kor (d : Reg) (a : Reg) (b : Reg)
  /-- KNOT (R249). -/
  | knot (d : Reg) (a : Reg)
  /-- VSEL (R225). -/
  | vsel (d : Reg) (a : Reg) (b : Reg) (k : BitVec 4)
  /-- VMOV (R226). -/
  | vmov (d : Reg) (a : Reg) (m : BitVec 3)
  /-- VMOVI (R227). -/
  | vmovi (d : Reg) (imm : BitVec 16)
  /-- VMOVI.W (R227). -/
  | vmoviW (d : Reg) (imm : BitVec 16) (lit : BitVec 30)
  /-- VBCAST (R239). -/
  | vbcast (d : Reg) (a : Reg) (m : BitVec 3)
  /-- VGET (R240). -/
  | vget (d : Reg) (a : Reg) (imm : Imm10)
  /-- VSET (R241). -/
  | vset (d : Reg) (a : Reg) (imm : Imm10)
  /-- VPERM (R235). -/
  | vperm (d : Reg) (a : Reg) (b : Reg) (m : BitVec 3)
  /-- VROT (R236). -/
  | vrot (d : Reg) (a : Reg) (imm : Imm10)
  /-- XG.MOV (R237). -/
  | xgMov (d : Reg) (a : Reg) (imm : Imm10)
  /-- XG.BCAST (R238). -/
  | xgBcast (d : Reg) (a : Reg) (imm : Imm10)
  /-- VRED (R243). -/
  | vred (d : Reg) (a : Reg) (imm : Imm10)
  /-- VSCAN (R244). -/
  | vscan (d : Reg) (a : Reg) (imm : Imm10)
  /-- MRED.F (R245). -/
  | mredF (d : Reg) (a : Reg) (b : Reg) (k : BitVec 4)
  /-- MRED.I (R245). -/
  | mredI (d : Reg) (a : Reg) (b : Reg) (k : BitVec 4)
  /-- TRD.ROW (R250). -/
  | trdRow (d : Reg) (a : Reg) (imm : Imm10)
  /-- TRD.COL (R250). -/
  | trdCol (d : Reg) (a : Reg) (imm : Imm10)
  /-- TWR.ROW (R250). -/
  | twrRow (d : Reg) (a : Reg) (imm : Imm10)
  /-- TWR.COL (R250). -/
  | twrCol (d : Reg) (a : Reg) (imm : Imm10)
  /-- RCP (R252). -/
  | rcp (d : Reg) (a : Reg) (fin : Bool) (m : BitVec 3)
  /-- RSQ (R252). -/
  | rsq (d : Reg) (a : Reg) (fin : Bool) (m : BitVec 3)
  /-- SQRT (R252). -/
  | sqrt (d : Reg) (a : Reg) (fin : Bool) (m : BitVec 3)
  /-- EXP2 (R252). -/
  | exp2 (d : Reg) (a : Reg) (fin : Bool) (m : BitVec 3)
  /-- LOG2 (R252). -/
  | log2 (d : Reg) (a : Reg) (fin : Bool) (m : BitVec 3)
  /-- TANH (R252). -/
  | tanh (d : Reg) (a : Reg) (fin : Bool) (m : BitVec 3)
  /-- SIN (R252). -/
  | sin (d : Reg) (a : Reg) (fin : Bool) (m : BitVec 3)
  /-- COS (R252). -/
  | cos (d : Reg) (a : Reg) (fin : Bool) (m : BitVec 3)
  /-- SIGM (R252). -/
  | sigm (d : Reg) (a : Reg) (fin : Bool) (m : BitVec 3)
  /-- IDIV (R209). -/
  | idiv (d : Reg) (a : Reg) (b : Reg)
  /-- IDIVU (R209). -/
  | idivu (d : Reg) (a : Reg) (b : Reg)
  /-- IREM (R209). -/
  | irem (d : Reg) (a : Reg) (b : Reg)
  /-- IREMU (R209). -/
  | iremu (d : Reg) (a : Reg) (b : Reg)
  /-- MSHAPE (R276). -/
  | mshape (d : Reg) (imm : Imm16)
  /-- MZERO (R277). -/
  | mzero (d : Reg)
  /-- MMA (R278). -/
  | mma (d : Reg) (a : Reg) (b : Reg)
  /-- MMAS (R278). -/
  | mmas (d : Reg) (a : Reg) (b : Reg)
  /-- MSTORE (R279). -/
  | mstore (d : Reg) (a : Reg)
  /-- MWAIT (R280). -/
  | mwait (d : Reg)
  /-- MWAIT.ALL (R280). -/
  | mwaitAll
  /-- LLD.B (R164). -/
  | lldB (d : Reg) (base : Reg) (off : Imm10)
  /-- LLD.B.U (R164). -/
  | lldBU (d : Reg) (base : Reg) (off : Imm10)
  /-- LLD.H (R164). -/
  | lldH (d : Reg) (base : Reg) (off : Imm10)
  /-- LLD.H.U (R164). -/
  | lldHU (d : Reg) (base : Reg) (off : Imm10)
  /-- LLD.W (R164). -/
  | lldW (d : Reg) (base : Reg) (off : Imm10)
  /-- LLD.W.U (R164). -/
  | lldWU (d : Reg) (base : Reg) (off : Imm10)
  /-- LLD.D (R164). -/
  | lldD (d : Reg) (base : Reg) (off : Imm10)
  /-- LST.B (R164). -/
  | lstB (d : Reg) (base : Reg) (off : Imm10)
  /-- LST.H (R164). -/
  | lstH (d : Reg) (base : Reg) (off : Imm10)
  /-- LST.W (R164). -/
  | lstW (d : Reg) (base : Reg) (off : Imm10)
  /-- LST.D (R164). -/
  | lstD (d : Reg) (base : Reg) (off : Imm10)
  /-- GLD.B (R164). -/
  | gldB (d : Reg) (base : Reg) (off : Imm10)
  /-- GLD.B.U (R164). -/
  | gldBU (d : Reg) (base : Reg) (off : Imm10)
  /-- GLD.H (R164). -/
  | gldH (d : Reg) (base : Reg) (off : Imm10)
  /-- GLD.H.U (R164). -/
  | gldHU (d : Reg) (base : Reg) (off : Imm10)
  /-- GLD.W (R164). -/
  | gldW (d : Reg) (base : Reg) (off : Imm10)
  /-- GLD.W.U (R164). -/
  | gldWU (d : Reg) (base : Reg) (off : Imm10)
  /-- GLD.D (R164). -/
  | gldD (d : Reg) (base : Reg) (off : Imm10)
  /-- GST.B (R164). -/
  | gstB (d : Reg) (base : Reg) (off : Imm10)
  /-- GST.H (R164). -/
  | gstH (d : Reg) (base : Reg) (off : Imm10)
  /-- GST.W (R164). -/
  | gstW (d : Reg) (base : Reg) (off : Imm10)
  /-- GST.D (R164). -/
  | gstD (d : Reg) (base : Reg) (off : Imm10)
  /-- GLD.W.ACQ (R164). -/
  | gldWAcq (d : Reg) (base : Reg) (off : Imm10)
  /-- GLD.D.ACQ (R164). -/
  | gldDAcq (d : Reg) (base : Reg) (off : Imm10)
  /-- GST.W.REL (R164). -/
  | gstWRel (d : Reg) (base : Reg) (off : Imm10)
  /-- GST.D.REL (R164). -/
  | gstDRel (d : Reg) (base : Reg) (off : Imm10)
  /-- VLD.ROW (R165). -/
  | vldRow (d : Reg) (base : Reg) (off : Imm10)
  /-- VLD.COL (R165). -/
  | vldCol (d : Reg) (base : Reg) (off : Imm10)
  /-- VLD.STR (R165). -/
  | vldStr (d : Reg) (base : Reg) (off : Imm10)
  /-- VST.ROW (R165). -/
  | vstRow (d : Reg) (base : Reg) (off : Imm10)
  /-- VST.COL (R165). -/
  | vstCol (d : Reg) (base : Reg) (off : Imm10)
  /-- VST.STR (R165). -/
  | vstStr (d : Reg) (base : Reg) (off : Imm10)
  /-- VST.BF16 (R166). -/
  | vstBf16 (d : Reg) (base : Reg) (off : Imm10)
  /-- VST.F16 (R166). -/
  | vstF16 (d : Reg) (base : Reg) (off : Imm10)
  /-- VST.F8E4 (R166). -/
  | vstF8e4 (d : Reg) (base : Reg) (off : Imm10)
  /-- VST.F8E5 (R166). -/
  | vstF8e5 (d : Reg) (base : Reg) (off : Imm10)
  /-- VLDG (R167). -/
  | vldg (d : Reg) (base : Reg) (idx : Reg) (m : BitVec 3)
  /-- VSTS (R167). -/
  | vsts (d : Reg) (base : Reg) (idx : Reg) (m : BitVec 3)
  /-- VSPL (R188). -/
  | vspl (d : Reg) (base : Reg) (off : Imm10)
  /-- VFIL (R188). -/
  | vfil (d : Reg) (base : Reg) (off : Imm10)
  /-- GVLD (R165). -/
  | gvld (d : Reg) (base : Reg) (off : Imm10)
  /-- GVST (R165). -/
  | gvst (d : Reg) (base : Reg) (off : Imm10)
  /-- AADD.W (R354). -/
  | aaddW (d : Reg) (base : Reg) (src : BitVec 5) (ord : BitVec 2) (sc : BitVec 3)
  /-- AADD.D (R354). -/
  | aaddD (d : Reg) (base : Reg) (src : BitVec 5) (ord : BitVec 2) (sc : BitVec 3)
  /-- AFADD.W (R355). -/
  | afaddW (d : Reg) (base : Reg) (src : BitVec 5) (ord : BitVec 2) (sc : BitVec 3)
  /-- AMIN.W (R354). -/
  | aminW (d : Reg) (base : Reg) (src : BitVec 5) (ord : BitVec 2) (sc : BitVec 3)
  /-- AMIN.D (R354). -/
  | aminD (d : Reg) (base : Reg) (src : BitVec 5) (ord : BitVec 2) (sc : BitVec 3)
  /-- AMAX.W (R354). -/
  | amaxW (d : Reg) (base : Reg) (src : BitVec 5) (ord : BitVec 2) (sc : BitVec 3)
  /-- AMAX.D (R354). -/
  | amaxD (d : Reg) (base : Reg) (src : BitVec 5) (ord : BitVec 2) (sc : BitVec 3)
  /-- AMINU.W (R354). -/
  | aminuW (d : Reg) (base : Reg) (src : BitVec 5) (ord : BitVec 2) (sc : BitVec 3)
  /-- AMINU.D (R354). -/
  | aminuD (d : Reg) (base : Reg) (src : BitVec 5) (ord : BitVec 2) (sc : BitVec 3)
  /-- AMAXU.W (R354). -/
  | amaxuW (d : Reg) (base : Reg) (src : BitVec 5) (ord : BitVec 2) (sc : BitVec 3)
  /-- AMAXU.D (R354). -/
  | amaxuD (d : Reg) (base : Reg) (src : BitVec 5) (ord : BitVec 2) (sc : BitVec 3)
  /-- AAND.W (R354). -/
  | aandW (d : Reg) (base : Reg) (src : BitVec 5) (ord : BitVec 2) (sc : BitVec 3)
  /-- AAND.D (R354). -/
  | aandD (d : Reg) (base : Reg) (src : BitVec 5) (ord : BitVec 2) (sc : BitVec 3)
  /-- AOR.W (R354). -/
  | aorW (d : Reg) (base : Reg) (src : BitVec 5) (ord : BitVec 2) (sc : BitVec 3)
  /-- AOR.D (R354). -/
  | aorD (d : Reg) (base : Reg) (src : BitVec 5) (ord : BitVec 2) (sc : BitVec 3)
  /-- AXOR.W (R354). -/
  | axorW (d : Reg) (base : Reg) (src : BitVec 5) (ord : BitVec 2) (sc : BitVec 3)
  /-- AXOR.D (R354). -/
  | axorD (d : Reg) (base : Reg) (src : BitVec 5) (ord : BitVec 2) (sc : BitVec 3)
  /-- AXCHG.W (R354). -/
  | axchgW (d : Reg) (base : Reg) (src : BitVec 5) (ord : BitVec 2) (sc : BitVec 3)
  /-- AXCHG.D (R354). -/
  | axchgD (d : Reg) (base : Reg) (src : BitVec 5) (ord : BitVec 2) (sc : BitVec 3)
  /-- ACAS.W (R354). -/
  | acasW (d : Reg) (base : Reg) (src : BitVec 5) (ord : BitVec 2) (sc : BitVec 3)
  /-- ACAS.D (R354). -/
  | acasD (d : Reg) (base : Reg) (src : BitVec 5) (ord : BitVec 2) (sc : BitVec 3)
  /-- FUT.RD (R338). -/
  | futRd (d : Reg) (base : Reg) (off : Imm10)
  /-- FUT.FILL (R338). -/
  | futFill (d : Reg) (base : Reg) (off : Imm10)
  /-- FUT.RESET (R338). -/
  | futReset (base : Reg) (off : Imm10)
  /-- FENCE (R348). -/
  | fence (ord : BitVec 2) (sc : BitVec 3)
  /-- BAR.ARR (R357). -/
  | barArr (base : Reg) (sc : BitVec 3)
  /-- BAR.WAIT (R357). -/
  | barWait (base : Reg) (sc : BitVec 3)
  /-- CNT.ADD (R331). -/
  | cntAdd (base : Reg) (src : BitVec 5) (ord : BitVec 2) (sc : BitVec 3)
  /-- CNT.WAIT (R331). -/
  | cntWait (base : Reg) (ord : BitVec 2) (sc : BitVec 3)
  /-- ICINV (R424). -/
  | icinv (base : Reg) (sc : BitVec 3)
  /-- CPY (R113). -/
  | cpy (d : Reg) (a : Reg)
  /-- CPY.MC (R113). -/
  | cpyMc (d : Reg) (a : Reg) (b : Reg)
  /-- CPYW (R113). -/
  | cpyw (d : Reg) (a : Reg)
  /-- SUB.OPEN (R174). -/
  | subOpen (d : Reg) (a : Reg)
  /-- SUB.CLOSE (R175). -/
  | subClose (d : Reg)
  /-- QCFG (R169). -/
  | qcfg (d : Reg) (a : Reg)
  /-- QSTAT (R173). -/
  | qstat (d : Reg) (a : Reg)
  /-- LT.CLASS (R156). -/
  | ltClass (d : Reg) (a : Reg) (b : Reg)
  /-- LT.TOUCH (R156). -/
  | ltTouch (a : Reg) (b : Reg)
  /-- LT.FREE (R156). -/
  | ltFree (a : Reg) (b : Reg)
  /-- LT.STAT (R158). -/
  | ltStat (d : Reg) (a : Reg)
  /-- RES.REG (R317). -/
  | resReg (d : Reg) (a : Reg)
  /-- RES.DROP (R318). -/
  | resDrop (a : Reg) (b : Reg)
  /-- RES.QRY (R319). -/
  | resQry (d : Reg) (a : Reg) (b : Reg)
  /-- TLBINV (R104). -/
  | tlbinv (a : Reg) (b : Reg)
  /-- PRIV.MTC (R306). -/
  | privMtc (ctl : Imm10) (a : Reg)
  /-- POWER_ON_RESET (R446). -/
  | powerOnReset
  /-- MANAGEMENT_CORE_BOOT (R447). -/
  | managementCoreBoot
  /-- FEATURE_NEGOTIATION (R449). -/
  | featureNegotiation
  /-- PARTITION_ASSIGN (R438). -/
  | partitionAssign
  /-- PARTITION_WITHDRAW (R438). -/
  | partitionWithdraw
  /-- SPDM_REQUEST (R441). -/
  | spdmRequest
  /-- DEBUG_POLICY (R442). -/
  | debugPolicy
  /-- LOCK_INTERFACE (R440). -/
  | lockInterface
  /-- START_INTERFACE (R440). -/
  | startInterface
  /-- STOP_INTERFACE (R440). -/
  | stopInterface
  /-- HOST_BAR2_READ (R432). -/
  | hostBar2Read
  /-- HOST_BAR2_WRITE (R432). -/
  | hostBar2Write
  /-- HOST_ATOMICOP (R432). -/
  | hostAtomicop
  /-- DOORBELL_WRITE (R131). -/
  | doorbellWrite
  /-- QUEUE_POLL_TIMER (R131). -/
  | queuePollTimer
  /-- QUEUE_SLOT_TAKE (R131). -/
  | queueSlotTake
  /-- CONTROL_REGISTER_WRITE (R306). -/
  | controlRegisterWrite
  /-- ISSUE_BUNDLE (R44). -/
  | issueBundle
  /-- RESULT_LANDING (R180). -/
  | resultLanding
  /-- LATE_ITEM_ARRIVAL (R182). -/
  | lateItemArrival
  /-- DIRECT_REPLY_ARRIVAL (R77). -/
  | directReplyArrival
  /-- DIRECT_STORE_ACK (R77). -/
  | directStoreAck
  /-- PORT_REQUEST_SERVICE (R75). -/
  | portRequestService
  /-- PAGE_WALK (R95). -/
  | pageWalk
  /-- TURRET_SLOT_LOAD (R85). -/
  | turretSlotLoad
  /-- TURRET_SLOT_STORE (R86). -/
  | turretSlotStore
  /-- STREAM_RETRY (R88). -/
  | streamRetry
  /-- STREAM_COMPLETION (R87). -/
  | streamCompletion
  /-- COPY_PACKET_START (R106). -/
  | copyPacketStart
  /-- COPY_UNIT_WRITE (R117). -/
  | copyUnitWrite
  /-- SUSPEND_SLOT_TAKE (R124). -/
  | suspendSlotTake
  /-- CERESUME_WRITE (R125). -/
  | ceresumeWrite
  /-- MULTICAST_LANDING (R122). -/
  | multicastLanding
  /-- COPY_COMPLETION (R118). -/
  | copyCompletion
  /-- TICK_BOUNDARY (R134). -/
  | tickBoundary
  /-- BAND_STEP_DOWN (R141). -/
  | bandStepDown
  /-- ROW_GROUP_LIMIT (R143). -/
  | rowGroupLimit
  /-- REFRESH_COMPLETE (R144). -/
  | refreshComplete
  /-- MISSED_REFRESH (R145). -/
  | missedRefresh
  /-- SLICE_LINE_AGE_LIMIT (R150). -/
  | sliceLineAgeLimit
  /-- LCLASS_WRITE (R139). -/
  | lclassWrite
  /-- TEMPTAB_WRITE (R140). -/
  | temptabWrite
  /-- LAYOUT_WRITE (R160). -/
  | layoutWrite
  /-- SSCARVE_WRITE (R161). -/
  | sscarveWrite
  /-- TILE_WRITE_COMPLETE (R251). -/
  | tileWriteComplete
  /-- MATRIX_K_STEP (R283). -/
  | matrixKStep
  /-- MATRIX_OP_COMPLETE (R281). -/
  | matrixOpComplete
  /-- TILE_OWNER_CHANGE (R285). -/
  | tileOwnerChange
  /-- MXSTAT_WRITE (R284). -/
  | mxstatWrite
  /-- DEFERRED_MATRIX_FAULT (R284). -/
  | deferredMatrixFault
  /-- EXPIRY_TRAP (R146). -/
  | expiryTrap
  /-- COPY_ERROR_TRAP (R124). -/
  | copyErrorTrap
  /-- BUFFER_CONTRACT_TRAP (R122). -/
  | bufferContractTrap
  /-- PROGRESS_FAULT (R300). -/
  | progressFault
  /-- PREEMPTION_REQUEST (R336). -/
  | preemptionRequest
  /-- PREEMPT_STOP (R298). -/
  | preemptStop
  /-- TIMESLICE_EXPIRY (R335). -/
  | timesliceExpiry
  /-- RUNNING_CONTEXT_CHANGE (R335). -/
  | runningContextChange
  /-- CONTEXT_SAVE (R389). -/
  | contextSave
  /-- CONTEXT_RESTORE (R389). -/
  | contextRestore
  /-- TRAP_HANDLER_START (R383). -/
  | trapHandlerStart
  /-- TASK_COMPLETION (R303). -/
  | taskCompletion
  /-- PLACEMENT_DECISION (R322). -/
  | placementDecision
  /-- PATIENCE_EXPIRY (R322). -/
  | patienceExpiry
  /-- TILE_STEP_PRODUCE (R313). -/
  | tileStepProduce
  /-- TEAM_MIGRATION (R325). -/
  | teamMigration
  /-- TEAM_ARRIVAL (R326). -/
  | teamArrival
  /-- LAUNCH_PACKET (R327). -/
  | launchPacket
  /-- LAUNCH_NOP_PACKET (R327). -/
  | launchNopPacket
  /-- LAUNCH_COMPLETION (R327). -/
  | launchCompletion
  /-- CAPSTART (R428). -/
  | capstart
  /-- CAPSTOP (R428). -/
  | capstop
  /-- WAIT_TIMER_EXPIRY (R302). -/
  | waitTimerExpiry
  /-- CLKDIV_PAUSE_END (R307). -/
  | clkdivPauseEnd
  /-- ATOMIC_ENGINE_PERFORM (R352). -/
  | atomicEnginePerform
  /-- COLLECTIVE_PACKET (R365). -/
  | collectivePacket
  /-- COLLECTIVE_NOP_PACKET (R365). -/
  | collectiveNopPacket
  /-- COLLECTIVE_CHUNK_STEP (R370). -/
  | collectiveChunkStep
  /-- CHUNK_MARK_WRITE (R369). -/
  | chunkMarkWrite
  /-- LINK_FALL (R359). -/
  | linkFall
  /-- POD_LINK_LOSS (R445). -/
  | podLinkLoss
  /-- FABRIC_FRAME_RECEIVE (R445). -/
  | fabricFrameReceive
  /-- EPOCH_ACK_COLLECT (R372). -/
  | epochAckCollect
  /-- MEMBER_ACK_TIMEOUT (R372). -/
  | memberAckTimeout
  /-- TREE_REBUILD (R362). -/
  | treeRebuild
  /-- COLLECTIVE_COMPLETION (R374). -/
  | collectiveCompletion
  /-- DIE_LOSS (R393). -/
  | dieLoss
  /-- MODULE_HEARTBEAT_LOSS (R394). -/
  | moduleHeartbeatLoss
  /-- THERMAL_EMERGENCY (R418). -/
  | thermalEmergency
  /-- FIRMWARE_WATCHDOG_EXPIRY (R419). -/
  | firmwareWatchdogExpiry
  /-- PCAP_RAISE (R413). -/
  | pcapRaise
  /-- DROOP_TRIP (R415). -/
  | droopTrip
  /-- DROOP_STRETCH_END (R415). -/
  | droopStretchEnd
  /-- DROOP_FREEZE_END (R415). -/
  | droopFreezeEnd
  /-- RETENTION_ENTRY (R416). -/
  | retentionEntry
  /-- RETENTION_EXIT (R416). -/
  | retentionExit
  /-- PHASE_REFETCH_COMPLETE (R397). -/
  | phaseRefetchComplete
  /-- PHCTL_WRITE (R395). -/
  | phctlWrite
  /-- AUDIT_REPLAY_START (R404). -/
  | auditReplayStart
  /-- CHECKPOINT_CUT (R407). -/
  | checkpointCut
  /-- CHECKPOINT_PAGE_STREAM (R408). -/
  | checkpointPageStream
  /-- DEBUG_RELEASE (R423). -/
  | debugRelease
  /-- SAMPLE_RECORD (R427). -/
  | sampleRecord
  /-- GO_BACK_N_RETRANSMISSION (R445). -/
  | goBackNRetransmission
  /-- POWER_FIRMWARE_WATCHDOG_SIGNAL (R419). -/
  | powerFirmwareWatchdogSignal
  /-- POWER_FIRMWARE_UPDATE_START (R419). -/
  | powerFirmwareUpdateStart
deriving DecidableEq, Repr

end Sys2Proof
end

