-- ==== Sys2Proof/WellFormed.lean ====
section
/-! DEFINITION. Which slot operations are well formed: the register kinds of Table 2-3, the ranges of immediates and the
field values that raise an illegal-instruction fault at decode (R29 to R34, R40, and each instruction's decode rules).
An event is well formed as it stands. -/

namespace Sys2Proof

/-- The four classes of slots (R19). -/
inductive Cls where
  | s | v | f | m
deriving DecidableEq, Repr

/-- The class of slot `i` (R19). -/
def slotClass (i : Nat) : Cls :=
  if i < 2 then .s else if i < 5 then .v else if i = 5 then .f else .m

/-- A field of `n` bits with its literal above it, as a natural number. -/
def litNat (n field : Nat) : Option (BitVec 30) → Nat
  | none => field
  | some l => l.toNat * 2 ^ n + field

/-- The width of a field with or without its literal. -/
def litWidth (n : Nat) : Option (BitVec 30) → Nat
  | none => n
  | some _ => n + 30

/-- The signed value of a field of `n` bits, extended by its literal (R24). -/
def litInt (n field : Nat) (lit : Option (BitVec 30)) : Int :=
  let w := litWidth n lit
  let x := litNat n field lit
  if 2 * x < 2 ^ w then (x : Int) else (x : Int) - (2 ^ w : Nat)

/-- A signed 10-bit immediate, or 40 bits with its literal (R24, R193). -/
def Imm10.int (i : Imm10) : Int := litInt 10 i.field.toNat i.lit
/-- A raw 10-bit immediate (R27). -/
def Imm10.raw (i : Imm10) : Nat := litNat 10 i.field.toNat i.lit
/-- A signed 12-bit branch offset, or 42 bits with its literal (R24, R33). -/
def Imm12.int (i : Imm12) : Int := litInt 12 i.field.toNat i.lit
/-- A signed 16-bit immediate, or 46 bits with its literal (R24, R193). -/
def Imm16.int (i : Imm16) : Int := litInt 16 i.field.toNat i.lit
/-- A raw 16-bit immediate (R27). -/
def Imm16.raw (i : Imm16) : Nat := litNat 16 i.field.toNat i.lit

/-- A predicate field names k0 to k15 (R29). -/
def predOk (r : Reg) : Bool := decide (r.toNat < 16)
/-- A tile field names z0 to z7 (R29). -/
def tileOk (r : Reg) : Bool := decide (r.toNat < 8)
/-- A queue-only field names q0 to q7 (R29). -/
def queueOk (r : Reg) : Bool := decide (56 ≤ r.toNat)
/-- A field that must be even (R36, R316, R332). -/
def evenOk (r : Reg) : Bool := decide (r.toNat % 2 = 0)
/-- The registers a copy packet may be read from (R40). -/
def packetOk (r : Reg) : Bool := decide (r.toNat % 8 = 0) && decide (r ≠ 0#6)
/-- A merge mask and a queue destination exclude each other (R172). -/
def maskOk (m : BitVec 3) (d : Reg) : Bool := decide (m = 0#3) || decide (d.toNat < 56)
/-- An immediate in a closed range. -/
def rangeOk (x : Int) (lo hi : Int) : Bool := decide (lo ≤ x) && decide (x ≤ hi)
/-- A scope of R32: 0 to 5. -/
def scopeOk (sc : BitVec 3) : Bool := decide (sc.toNat ≤ 5)
/-- The code of VCVT: sel within the operation's values, the other bits zero (R228). -/
def vcvtOk (x : Nat) : Bool :=
  decide (x < 64) && decide (x / 8 % 2 = 0) &&
    decide (x / 16 ≤ (if x % 8 < 4 then 0 else if x % 8 < 6 then 1 else 3))
/-- The code of VFIN: a format 0x0 to 0xA, a mode 0 to 4 or 7 (R230). -/
def vfinOk (x : Nat) : Bool :=
  decide (x < 128) && decide (x % 16 ≤ 10) && decide (x / 16 ≠ 5 ∧ x / 16 ≠ 6)
/-- The pattern of XG.MOV: kind 0 to 2, bits [7:3] zero (R237). -/
def xgOk (x : Nat) : Bool := decide (x < 768) && decide (x % 256 < 8)
/-- The operand of MSHAPE: bits [14:11] zero, OFF alone, and any literal zero (R276). -/
def mshapeOk (i : Imm16) : Bool :=
  decide (i.raw < 65536) && decide (i.raw / 2 ^ 11 % 16 = 0) && decide (i.raw < 2 ^ 15 ∨ i.raw = 2 ^ 15)
/-- The extended value of VMOVI lies in −2^31 to 2^32 − 1 (R227). -/
def vmoviWOk (imm : BitVec 16) (lit : BitVec 30) : Bool :=
  rangeOk (litInt 16 imm.toNat (some lit)) (-(2 ^ 31)) (2 ^ 32 - 1)
/-- A branch condition 0 to 6, with a zero when always taken (R33). -/
def bcondOk (cond : BitVec 4) (a : Reg) : Bool :=
  decide (cond.toNat ≤ 6) && (decide (cond ≠ 6#4) || decide (a = 0#6))

/-- The decode rules of each instruction. -/
def Instr.wf (i : Instr) : Bool :=
  match i with
  | .powerOnReset => true
  | .managementCoreBoot => true
  | .featureNegotiation => true
  | .partitionAssign => true
  | .partitionWithdraw => true
  | .spdmRequest => true
  | .debugPolicy => true
  | .lockInterface => true
  | .startInterface => true
  | .stopInterface => true
  | .hostBar2Read => true
  | .hostBar2Write => true
  | .hostAtomicop => true
  | .doorbellWrite => true
  | .queuePollTimer => true
  | .queueSlotTake => true
  | .controlRegisterWrite => true
  | .issueBundle => true
  | .resultLanding => true
  | .lateItemArrival => true
  | .directReplyArrival => true
  | .directStoreAck => true
  | .portRequestService => true
  | .pageWalk => true
  | .turretSlotLoad => true
  | .turretSlotStore => true
  | .streamRetry => true
  | .streamCompletion => true
  | .copyPacketStart => true
  | .copyUnitWrite => true
  | .suspendSlotTake => true
  | .ceresumeWrite => true
  | .multicastLanding => true
  | .copyCompletion => true
  | .tickBoundary => true
  | .bandStepDown => true
  | .rowGroupLimit => true
  | .refreshComplete => true
  | .missedRefresh => true
  | .sliceLineAgeLimit => true
  | .lclassWrite => true
  | .temptabWrite => true
  | .layoutWrite => true
  | .sscarveWrite => true
  | .tileWriteComplete => true
  | .matrixKStep => true
  | .matrixOpComplete => true
  | .tileOwnerChange => true
  | .mxstatWrite => true
  | .deferredMatrixFault => true
  | .expiryTrap => true
  | .copyErrorTrap => true
  | .bufferContractTrap => true
  | .progressFault => true
  | .preemptionRequest => true
  | .preemptStop => true
  | .timesliceExpiry => true
  | .runningContextChange => true
  | .contextSave => true
  | .contextRestore => true
  | .trapHandlerStart => true
  | .taskCompletion => true
  | .placementDecision => true
  | .patienceExpiry => true
  | .tileStepProduce => true
  | .teamMigration => true
  | .teamArrival => true
  | .launchPacket => true
  | .launchNopPacket => true
  | .launchCompletion => true
  | .capstart => true
  | .capstop => true
  | .waitTimerExpiry => true
  | .clkdivPauseEnd => true
  | .atomicEnginePerform => true
  | .collectivePacket => true
  | .collectiveNopPacket => true
  | .collectiveChunkStep => true
  | .chunkMarkWrite => true
  | .linkFall => true
  | .podLinkLoss => true
  | .fabricFrameReceive => true
  | .epochAckCollect => true
  | .memberAckTimeout => true
  | .treeRebuild => true
  | .collectiveCompletion => true
  | .dieLoss => true
  | .moduleHeartbeatLoss => true
  | .thermalEmergency => true
  | .firmwareWatchdogExpiry => true
  | .pcapRaise => true
  | .droopTrip => true
  | .droopStretchEnd => true
  | .droopFreezeEnd => true
  | .retentionEntry => true
  | .retentionExit => true
  | .phaseRefetchComplete => true
  | .phctlWrite => true
  | .auditReplayStart => true
  | .checkpointCut => true
  | .checkpointPageStream => true
  | .debugRelease => true
  | .sampleRecord => true
  | .add _ _ _ => true
  | .sub _ _ _ => true
  | .and _ _ _ => true
  | .or _ _ _ => true
  | .xor _ _ _ => true
  | .andn _ _ _ => true
  | .addi _ _ _ => true
  | .andi _ _ _ => true
  | .ori _ _ _ => true
  | .xori _ _ _ => true
  | .shl _ _ _ => true
  | .shr _ _ _ => true
  | .sar _ _ _ => true
  | .shli _ _ imm => rangeOk imm.int 0 63
  | .shri _ _ imm => rangeOk imm.int 0 63
  | .sari _ _ imm => rangeOk imm.int 0 63
  | .mul _ _ _ => true
  | .mulh _ _ _ => true
  | .mulhu _ _ _ => true
  | .min _ _ _ => true
  | .max _ _ _ => true
  | .minu _ _ _ => true
  | .maxu _ _ _ => true
  | .seq _ _ _ => true
  | .sne _ _ _ => true
  | .slt _ _ _ => true
  | .sltu _ _ _ => true
  | .seqi _ _ _ => true
  | .snei _ _ _ => true
  | .slti _ _ _ => true
  | .sltui _ _ _ => true
  | .sel _ _ _ _ => true
  | .ldi _ _ => true
  | .ldhi _ _ => true
  | .clz _ _ => true
  | .ctz _ _ => true
  | .popc _ _ => true
  | .brev _ _ => true
  | .bfx _ _ _ => true
  | .bfxU _ _ _ => true
  | .bfi _ _ _ => true
  | .fshr _ a _ => evenOk a
  | .fshri _ a imm => evenOk a && rangeOk imm.int 0 127
  | .bCond cond a _ => bcondOk cond a
  | .jmp _ => true
  | .jmpr _ => true
  | .call _ _ => true
  | .ret _ => true
  | .loop _ last => decide (last ≠ 0#12)
  | .loopi _ last => decide (last ≠ 0#12)
  | .lidx _ imm => rangeOk imm.int 0 5
  | .lbrk _ => true
  | .fmtset _ => true
  | .fmtget _ => true
  | .clkdiv _ => true
  | .mfc _ imm => decide (imm.raw < 1024)
  | .mtc ctl _ => decide (ctl.raw < 1024)
  | .tstamp _ => true
  | .cycles _ => true
  | .yield => true
  | .wait _ => true
  | .spawn _ a => evenOk a
  | .done => true
  | .phase => true
  | .trap imm => decide (imm.raw < 65536)
  | .sys imm => decide (imm.raw < 65536)
  | .vaddF d _ _ _ m => maskOk m d
  | .vsubF d _ _ _ m => maskOk m d
  | .vmulF d _ _ _ m => maskOk m d
  | .vfma d _ _ _ m => maskOk m d
  | .vfms d _ _ _ m => maskOk m d
  | .vfnma d _ _ _ m => maskOk m d
  | .vminF d _ _ m => maskOk m d
  | .vmaxF d _ _ m => maskOk m d
  | .vabs d _ m => maskOk m d
  | .vneg d _ m => maskOk m d
  | .vcmpF d _ _ _ => predOk d
  | .vclass d _ imm => predOk d && decide (imm.raw < 1024)
  | .vcvt _ _ imm => vcvtOk imm.raw
  | .vro _ _ imm => decide (1 ≤ imm.raw ∧ imm.raw ≤ 4)
  | .vfin _ _ imm => vfinOk imm.raw
  | .vstky d _ => predOk d
  | .vclrs d _ m => maskOk m d
  | .vaddI d _ _ m => maskOk m d
  | .vsubI d _ _ m => maskOk m d
  | .vmulI d _ _ m => maskOk m d
  | .vmulhI d _ _ m => maskOk m d
  | .vminI d _ _ m => maskOk m d
  | .vmaxI d _ _ m => maskOk m d
  | .vaddsI d _ _ m => maskOk m d
  | .vand d _ _ m => maskOk m d
  | .vor d _ _ m => maskOk m d
  | .vxor d _ _ m => maskOk m d
  | .vandn d _ _ m => maskOk m d
  | .vshl d _ _ m => maskOk m d
  | .vshr d _ _ m => maskOk m d
  | .vsar d _ _ m => maskOk m d
  | .vcmpI d _ _ _ => predOk d
  | .vbfx d _ _ m => maskOk m d
  | .vfshr _ a imm => evenOk a && decide (a.toNat ≤ 54) && rangeOk imm.int 0 63
  | .vpopc d _ m => maskOk m d
  | .vclz d _ m => maskOk m d
  | .kand d a b => predOk d && predOk a && predOk b
  | .kor d a b => predOk d && predOk a && predOk b
  | .knot d a => predOk d && predOk a
  | .vsel _ _ _ _ => true
  | .vmov d _ m => maskOk m d
  | .vmovi _ _ => true
  | .vmoviW _ imm lit => vmoviWOk imm lit
  | .vbcast d _ m => maskOk m d
  | .vget _ _ imm => rangeOk imm.int 0 127
  | .vset d _ imm => rangeOk imm.int 0 127 && decide (d.toNat < 56)
  | .vperm d _ _ m => maskOk m d
  | .vrot _ _ imm => rangeOk imm.int 0 15
  | .xgMov _ _ imm => xgOk imm.raw
  | .xgBcast _ _ imm => rangeOk imm.int 0 127
  | .vred _ _ imm => decide (imm.raw < 16)
  | .vscan _ _ imm => decide (imm.raw < 32)
  | .mredF _ _ _ _ => true
  | .mredI _ _ _ _ => true
  | .trdRow _ a imm => tileOk a && rangeOk imm.int 0 31
  | .trdCol _ a imm => tileOk a && rangeOk imm.int 0 63
  | .twrRow d _ imm => tileOk d && rangeOk imm.int 0 31
  | .twrCol d _ imm => tileOk d && rangeOk imm.int 0 63
  | .rcp d _ _ m => maskOk m d
  | .rsq d _ _ m => maskOk m d
  | .sqrt d _ _ m => maskOk m d
  | .exp2 d _ _ m => maskOk m d
  | .log2 d _ _ m => maskOk m d
  | .tanh d _ _ m => maskOk m d
  | .sin d _ _ m => maskOk m d
  | .cos d _ _ m => maskOk m d
  | .sigm d _ _ m => maskOk m d
  | .idiv _ _ _ => true
  | .idivu _ _ _ => true
  | .irem _ _ _ => true
  | .iremu _ _ _ => true
  | .mshape d imm => tileOk d && mshapeOk imm
  | .mzero d => tileOk d
  | .mma d _ _ => tileOk d
  | .mmas d _ _ => tileOk d
  | .mstore d _ => tileOk d
  | .mwait d => tileOk d
  | .mwaitAll => true
  | .lldB _ _ _ => true
  | .lldBU _ _ _ => true
  | .lldH _ _ _ => true
  | .lldHU _ _ _ => true
  | .lldW _ _ _ => true
  | .lldWU _ _ _ => true
  | .lldD _ _ _ => true
  | .lstB _ _ _ => true
  | .lstH _ _ _ => true
  | .lstW _ _ _ => true
  | .lstD _ _ _ => true
  | .gldB _ _ _ => true
  | .gldBU _ _ _ => true
  | .gldH _ _ _ => true
  | .gldHU _ _ _ => true
  | .gldW _ _ _ => true
  | .gldWU _ _ _ => true
  | .gldD _ _ _ => true
  | .gstB _ _ _ => true
  | .gstH _ _ _ => true
  | .gstW _ _ _ => true
  | .gstD _ _ _ => true
  | .gldWAcq _ _ _ => true
  | .gldDAcq _ _ _ => true
  | .gstWRel _ _ _ => true
  | .gstDRel _ _ _ => true
  | .vldRow _ _ _ => true
  | .vldCol _ _ _ => true
  | .vldStr _ base _ => decide (base ≠ 63#6)
  | .vstRow _ _ _ => true
  | .vstCol _ _ _ => true
  | .vstStr _ base _ => decide (base ≠ 63#6)
  | .vstBf16 _ _ _ => true
  | .vstF16 _ _ _ => true
  | .vstF8e4 _ _ _ => true
  | .vstF8e5 _ _ _ => true
  | .vldg d _ _ m => maskOk m d
  | .vsts _ _ _ _ => true
  | .vspl _ _ _ => true
  | .vfil _ _ _ => true
  | .gvld _ _ _ => true
  | .gvst _ _ _ => true
  | .aaddW _ _ _ _ sc => scopeOk sc
  | .aaddD _ _ _ _ sc => scopeOk sc
  | .afaddW _ _ _ _ sc => scopeOk sc
  | .aminW _ _ _ _ sc => scopeOk sc
  | .aminD _ _ _ _ sc => scopeOk sc
  | .amaxW _ _ _ _ sc => scopeOk sc
  | .amaxD _ _ _ _ sc => scopeOk sc
  | .aminuW _ _ _ _ sc => scopeOk sc
  | .aminuD _ _ _ _ sc => scopeOk sc
  | .amaxuW _ _ _ _ sc => scopeOk sc
  | .amaxuD _ _ _ _ sc => scopeOk sc
  | .aandW _ _ _ _ sc => scopeOk sc
  | .aandD _ _ _ _ sc => scopeOk sc
  | .aorW _ _ _ _ sc => scopeOk sc
  | .aorD _ _ _ _ sc => scopeOk sc
  | .axorW _ _ _ _ sc => scopeOk sc
  | .axorD _ _ _ _ sc => scopeOk sc
  | .axchgW _ _ _ _ sc => scopeOk sc
  | .axchgD _ _ _ _ sc => scopeOk sc
  | .acasW _ _ _ _ sc => scopeOk sc
  | .acasD _ _ _ _ sc => scopeOk sc
  | .futRd _ _ _ => true
  | .futFill _ _ _ => true
  | .futReset _ _ => true
  | .fence ord sc => scopeOk sc && decide (ord ≠ 0#2)
  | .barArr _ sc => scopeOk sc
  | .barWait _ sc => scopeOk sc
  | .cntAdd _ _ ord sc => scopeOk sc && decide (ord = 0#2 ∨ ord = 2#2)
  | .cntWait _ ord sc => scopeOk sc && decide (ord = 0#2 ∨ ord = 1#2)
  | .icinv _ sc => scopeOk sc
  | .cpy _ a => packetOk a
  | .cpyMc _ a _ => packetOk a
  | .cpyw _ a => packetOk a
  | .subOpen d _ => queueOk d
  | .subClose d => queueOk d
  | .qcfg d _ => queueOk d
  | .qstat _ a => queueOk a
  | .ltClass d _ _ => decide (d.toNat ≤ 7)
  | .ltTouch _ _ => true
  | .ltFree _ _ => true
  | .ltStat _ _ => true
  | .resReg _ a => evenOk a
  | .resDrop _ _ => true
  | .resQry _ _ _ => true
  | .tlbinv _ _ => true
  | .privMtc ctl _ => decide (ctl.raw < 1024)
  | .goBackNRetransmission => true
  | .powerFirmwareWatchdogSignal => true
  | .powerFirmwareUpdateStart => true

/-- The class of a slot operation; none for an event. -/
def Instr.cls (i : Instr) : Option Cls :=
  match i with
  | .powerOnReset => none
  | .managementCoreBoot => none
  | .featureNegotiation => none
  | .partitionAssign => none
  | .partitionWithdraw => none
  | .spdmRequest => none
  | .debugPolicy => none
  | .lockInterface => none
  | .startInterface => none
  | .stopInterface => none
  | .hostBar2Read => none
  | .hostBar2Write => none
  | .hostAtomicop => none
  | .doorbellWrite => none
  | .queuePollTimer => none
  | .queueSlotTake => none
  | .controlRegisterWrite => none
  | .issueBundle => none
  | .resultLanding => none
  | .lateItemArrival => none
  | .directReplyArrival => none
  | .directStoreAck => none
  | .portRequestService => none
  | .pageWalk => none
  | .turretSlotLoad => none
  | .turretSlotStore => none
  | .streamRetry => none
  | .streamCompletion => none
  | .copyPacketStart => none
  | .copyUnitWrite => none
  | .suspendSlotTake => none
  | .ceresumeWrite => none
  | .multicastLanding => none
  | .copyCompletion => none
  | .tickBoundary => none
  | .bandStepDown => none
  | .rowGroupLimit => none
  | .refreshComplete => none
  | .missedRefresh => none
  | .sliceLineAgeLimit => none
  | .lclassWrite => none
  | .temptabWrite => none
  | .layoutWrite => none
  | .sscarveWrite => none
  | .tileWriteComplete => none
  | .matrixKStep => none
  | .matrixOpComplete => none
  | .tileOwnerChange => none
  | .mxstatWrite => none
  | .deferredMatrixFault => none
  | .expiryTrap => none
  | .copyErrorTrap => none
  | .bufferContractTrap => none
  | .progressFault => none
  | .preemptionRequest => none
  | .preemptStop => none
  | .timesliceExpiry => none
  | .runningContextChange => none
  | .contextSave => none
  | .contextRestore => none
  | .trapHandlerStart => none
  | .taskCompletion => none
  | .placementDecision => none
  | .patienceExpiry => none
  | .tileStepProduce => none
  | .teamMigration => none
  | .teamArrival => none
  | .launchPacket => none
  | .launchNopPacket => none
  | .launchCompletion => none
  | .capstart => none
  | .capstop => none
  | .waitTimerExpiry => none
  | .clkdivPauseEnd => none
  | .atomicEnginePerform => none
  | .collectivePacket => none
  | .collectiveNopPacket => none
  | .collectiveChunkStep => none
  | .chunkMarkWrite => none
  | .linkFall => none
  | .podLinkLoss => none
  | .fabricFrameReceive => none
  | .epochAckCollect => none
  | .memberAckTimeout => none
  | .treeRebuild => none
  | .collectiveCompletion => none
  | .dieLoss => none
  | .moduleHeartbeatLoss => none
  | .thermalEmergency => none
  | .firmwareWatchdogExpiry => none
  | .pcapRaise => none
  | .droopTrip => none
  | .droopStretchEnd => none
  | .droopFreezeEnd => none
  | .retentionEntry => none
  | .retentionExit => none
  | .phaseRefetchComplete => none
  | .phctlWrite => none
  | .auditReplayStart => none
  | .checkpointCut => none
  | .checkpointPageStream => none
  | .debugRelease => none
  | .sampleRecord => none
  | .add _ _ _ => some .s
  | .sub _ _ _ => some .s
  | .and _ _ _ => some .s
  | .or _ _ _ => some .s
  | .xor _ _ _ => some .s
  | .andn _ _ _ => some .s
  | .addi _ _ _ => some .s
  | .andi _ _ _ => some .s
  | .ori _ _ _ => some .s
  | .xori _ _ _ => some .s
  | .shl _ _ _ => some .s
  | .shr _ _ _ => some .s
  | .sar _ _ _ => some .s
  | .shli _ _ _ => some .s
  | .shri _ _ _ => some .s
  | .sari _ _ _ => some .s
  | .mul _ _ _ => some .s
  | .mulh _ _ _ => some .s
  | .mulhu _ _ _ => some .s
  | .min _ _ _ => some .s
  | .max _ _ _ => some .s
  | .minu _ _ _ => some .s
  | .maxu _ _ _ => some .s
  | .seq _ _ _ => some .s
  | .sne _ _ _ => some .s
  | .slt _ _ _ => some .s
  | .sltu _ _ _ => some .s
  | .seqi _ _ _ => some .s
  | .snei _ _ _ => some .s
  | .slti _ _ _ => some .s
  | .sltui _ _ _ => some .s
  | .sel _ _ _ _ => some .s
  | .ldi _ _ => some .s
  | .ldhi _ _ => some .s
  | .clz _ _ => some .s
  | .ctz _ _ => some .s
  | .popc _ _ => some .s
  | .brev _ _ => some .s
  | .bfx _ _ _ => some .s
  | .bfxU _ _ _ => some .s
  | .bfi _ _ _ => some .s
  | .fshr _ _ _ => some .s
  | .fshri _ _ _ => some .s
  | .bCond _ _ _ => some .s
  | .jmp _ => some .s
  | .jmpr _ => some .s
  | .call _ _ => some .s
  | .ret _ => some .s
  | .loop _ _ => some .s
  | .loopi _ _ => some .s
  | .lidx _ _ => some .s
  | .lbrk _ => some .s
  | .fmtset _ => some .s
  | .fmtget _ => some .s
  | .clkdiv _ => some .s
  | .mfc _ _ => some .s
  | .mtc _ _ => some .s
  | .tstamp _ => some .s
  | .cycles _ => some .s
  | .yield => some .s
  | .wait _ => some .s
  | .spawn _ _ => some .s
  | .done => some .s
  | .phase => some .s
  | .trap _ => some .s
  | .sys _ => some .s
  | .vaddF _ _ _ _ _ => some .v
  | .vsubF _ _ _ _ _ => some .v
  | .vmulF _ _ _ _ _ => some .v
  | .vfma _ _ _ _ _ => some .v
  | .vfms _ _ _ _ _ => some .v
  | .vfnma _ _ _ _ _ => some .v
  | .vminF _ _ _ _ => some .v
  | .vmaxF _ _ _ _ => some .v
  | .vabs _ _ _ => some .v
  | .vneg _ _ _ => some .v
  | .vcmpF _ _ _ _ => some .v
  | .vclass _ _ _ => some .v
  | .vcvt _ _ _ => some .v
  | .vro _ _ _ => some .v
  | .vfin _ _ _ => some .v
  | .vstky _ _ => some .v
  | .vclrs _ _ _ => some .v
  | .vaddI _ _ _ _ => some .v
  | .vsubI _ _ _ _ => some .v
  | .vmulI _ _ _ _ => some .v
  | .vmulhI _ _ _ _ => some .v
  | .vminI _ _ _ _ => some .v
  | .vmaxI _ _ _ _ => some .v
  | .vaddsI _ _ _ _ => some .v
  | .vand _ _ _ _ => some .v
  | .vor _ _ _ _ => some .v
  | .vxor _ _ _ _ => some .v
  | .vandn _ _ _ _ => some .v
  | .vshl _ _ _ _ => some .v
  | .vshr _ _ _ _ => some .v
  | .vsar _ _ _ _ => some .v
  | .vcmpI _ _ _ _ => some .v
  | .vbfx _ _ _ _ => some .v
  | .vfshr _ _ _ => some .v
  | .vpopc _ _ _ => some .v
  | .vclz _ _ _ => some .v
  | .kand _ _ _ => some .v
  | .kor _ _ _ => some .v
  | .knot _ _ => some .v
  | .vsel _ _ _ _ => some .v
  | .vmov _ _ _ => some .v
  | .vmovi _ _ => some .v
  | .vmoviW _ _ _ => some .v
  | .vbcast _ _ _ => some .v
  | .vget _ _ _ => some .v
  | .vset _ _ _ => some .v
  | .vperm _ _ _ _ => some .v
  | .vrot _ _ _ => some .v
  | .xgMov _ _ _ => some .v
  | .xgBcast _ _ _ => some .v
  | .vred _ _ _ => some .v
  | .vscan _ _ _ => some .v
  | .mredF _ _ _ _ => some .v
  | .mredI _ _ _ _ => some .v
  | .trdRow _ _ _ => some .v
  | .trdCol _ _ _ => some .v
  | .twrRow _ _ _ => some .v
  | .twrCol _ _ _ => some .v
  | .rcp _ _ _ _ => some .f
  | .rsq _ _ _ _ => some .f
  | .sqrt _ _ _ _ => some .f
  | .exp2 _ _ _ _ => some .f
  | .log2 _ _ _ _ => some .f
  | .tanh _ _ _ _ => some .f
  | .sin _ _ _ _ => some .f
  | .cos _ _ _ _ => some .f
  | .sigm _ _ _ _ => some .f
  | .idiv _ _ _ => some .f
  | .idivu _ _ _ => some .f
  | .irem _ _ _ => some .f
  | .iremu _ _ _ => some .f
  | .mshape _ _ => some .f
  | .mzero _ => some .f
  | .mma _ _ _ => some .f
  | .mmas _ _ _ => some .f
  | .mstore _ _ => some .f
  | .mwait _ => some .f
  | .mwaitAll => some .f
  | .lldB _ _ _ => some .m
  | .lldBU _ _ _ => some .m
  | .lldH _ _ _ => some .m
  | .lldHU _ _ _ => some .m
  | .lldW _ _ _ => some .m
  | .lldWU _ _ _ => some .m
  | .lldD _ _ _ => some .m
  | .lstB _ _ _ => some .m
  | .lstH _ _ _ => some .m
  | .lstW _ _ _ => some .m
  | .lstD _ _ _ => some .m
  | .gldB _ _ _ => some .m
  | .gldBU _ _ _ => some .m
  | .gldH _ _ _ => some .m
  | .gldHU _ _ _ => some .m
  | .gldW _ _ _ => some .m
  | .gldWU _ _ _ => some .m
  | .gldD _ _ _ => some .m
  | .gstB _ _ _ => some .m
  | .gstH _ _ _ => some .m
  | .gstW _ _ _ => some .m
  | .gstD _ _ _ => some .m
  | .gldWAcq _ _ _ => some .m
  | .gldDAcq _ _ _ => some .m
  | .gstWRel _ _ _ => some .m
  | .gstDRel _ _ _ => some .m
  | .vldRow _ _ _ => some .m
  | .vldCol _ _ _ => some .m
  | .vldStr _ _ _ => some .m
  | .vstRow _ _ _ => some .m
  | .vstCol _ _ _ => some .m
  | .vstStr _ _ _ => some .m
  | .vstBf16 _ _ _ => some .m
  | .vstF16 _ _ _ => some .m
  | .vstF8e4 _ _ _ => some .m
  | .vstF8e5 _ _ _ => some .m
  | .vldg _ _ _ m => some .m
  | .vsts _ _ _ m => some .m
  | .vspl _ _ _ => some .m
  | .vfil _ _ _ => some .m
  | .gvld _ _ _ => some .m
  | .gvst _ _ _ => some .m
  | .aaddW _ _ _ _ _ => some .m
  | .aaddD _ _ _ _ _ => some .m
  | .afaddW _ _ _ _ _ => some .m
  | .aminW _ _ _ _ _ => some .m
  | .aminD _ _ _ _ _ => some .m
  | .amaxW _ _ _ _ _ => some .m
  | .amaxD _ _ _ _ _ => some .m
  | .aminuW _ _ _ _ _ => some .m
  | .aminuD _ _ _ _ _ => some .m
  | .amaxuW _ _ _ _ _ => some .m
  | .amaxuD _ _ _ _ _ => some .m
  | .aandW _ _ _ _ _ => some .m
  | .aandD _ _ _ _ _ => some .m
  | .aorW _ _ _ _ _ => some .m
  | .aorD _ _ _ _ _ => some .m
  | .axorW _ _ _ _ _ => some .m
  | .axorD _ _ _ _ _ => some .m
  | .axchgW _ _ _ _ _ => some .m
  | .axchgD _ _ _ _ _ => some .m
  | .acasW _ _ _ _ _ => some .m
  | .acasD _ _ _ _ _ => some .m
  | .futRd _ _ _ => some .m
  | .futFill _ _ _ => some .m
  | .futReset _ _ => some .m
  | .fence _ _ => some .m
  | .barArr _ _ => some .m
  | .barWait _ _ => some .m
  | .cntAdd _ _ _ _ => some .m
  | .cntWait _ _ _ => some .m
  | .icinv _ _ => some .m
  | .cpy _ _ => some .m
  | .cpyMc _ _ _ => some .m
  | .cpyw _ _ => some .m
  | .subOpen _ _ => some .m
  | .subClose _ => some .m
  | .qcfg _ _ => some .m
  | .qstat _ _ => some .m
  | .ltClass _ _ _ => some .m
  | .ltTouch _ _ => some .m
  | .ltFree _ _ => some .m
  | .ltStat _ _ => some .m
  | .resReg _ _ => some .m
  | .resDrop _ _ => some .m
  | .resQry _ _ _ => some .m
  | .tlbinv _ _ => some .m
  | .privMtc _ _ => some .m
  | .goBackNRetransmission => none
  | .powerFirmwareWatchdogSignal => none
  | .powerFirmwareUpdateStart => none

/-- Whether an operation may stand in slot `i`: its class, and no floating multiply in V2 (R19, R37). -/
def Instr.slotOk (slot : Nat) (i : Instr) : Bool :=
  decide (i.cls = some (slotClass slot)) &&
    (decide (slot ≠ 4) ||
      (match i with
        | .vmulF _ _ _ _ _ => false
        | .vfma _ _ _ _ _ => false
        | .vfms _ _ _ _ _ => false
        | .vfnma _ _ _ _ _ => false
        | _ => true))

end Sys2Proof
end

