-- ==== Sys2Proof/Decode.lean ====
section
/-! DEFINITION. Decoding (R18 to R44): the fields of a slot, the opcode map of each class, the literal rules, and a bundle
decoded as a whole; then the encoder, from the same tables. Every bit pattern is decoded or refused by name. -/

namespace Sys2Proof

/-- Why a slot is no instruction: its opcode is unassigned (R42), a field its entry does not use is not zero (R30), an
operand is outside what it admits (R29, R31 to R41), or it stands in a slot it may not stand in (R37). -/
inductive Reject where
  | unassigned
  | unusedField
  | operand
  | wrongSlot
deriving DecidableEq, Repr

/-! The fields of a slot (Table 2-2). -/

/-- The opcode, [7:0] (R19). -/
def fOp (w : BitVec 30) : BitVec 8 := w.extractLsb' 0 8
/-- d, [13:8]. -/
def fD (w : BitVec 30) : BitVec 6 := w.extractLsb' 8 6
/-- a, [19:14]; base in MEM, MV and AT. -/
def fA (w : BitVec 30) : BitVec 6 := w.extractLsb' 14 6
/-- b, [25:20]; idx in MV. -/
def fB (w : BitVec 30) : BitVec 6 := w.extractLsb' 20 6
/-- flags, [29:26]. -/
def fFl (w : BitVec 30) : BitVec 4 := w.extractLsb' 26 4
/-- imm10, [29:20]. -/
def fI10 (w : BitVec 30) : BitVec 10 := w.extractLsb' 20 10
/-- imm16, [29:14]. -/
def fI16 (w : BitVec 30) : BitVec 16 := w.extractLsb' 14 16
/-- off12 and end, [29:18]. -/
def fI12 (w : BitVec 30) : BitVec 12 := w.extractLsb' 18 12
/-- cond of BR, [17:14]. -/
def fCond (w : BitVec 30) : BitVec 4 := w.extractLsb' 14 4
/-- x of LOOP, [17:8]. -/
def fX (w : BitVec 30) : BitVec 10 := w.extractLsb' 8 10
/-- FIN, [29] (R31). -/
def fFin (w : BitVec 30) : Bool := w.getLsbD 29
/-- m, and cond of layout C, [28:26] (R31). -/
def fM (w : BitVec 30) : BitVec 3 := w.extractLsb' 26 3
/-- s of AT, [24:20]. -/
def fS (w : BitVec 30) : BitVec 5 := w.extractLsb' 20 5
/-- ord of AT, [26:25]. -/
def fOrd (w : BitVec 30) : BitVec 2 := w.extractLsb' 25 2
/-- sc of AT, [29:27]. -/
def fSc (w : BitVec 30) : BitVec 3 := w.extractLsb' 27 3

/-! Each operand shape of the opcode map (R36 to R39): none where an unused field is not zero (R30). -/

/-- D, a, b; flags zero. -/
def deRrr (c : Reg → Reg → Reg → Instr) (w : BitVec 30) : Option Instr :=
  if fFl w = 0 then some (c (fD w) (fA w) (fB w)) else none

/-- D, a (or base) and imm10 (or off10). -/
def deRri (c : Reg → Reg → Imm10 → Instr) (w : BitVec 30) (lit : Option (BitVec 30)) : Option Instr :=
  some (c (fD w) (fA w) ⟨fI10 w, lit⟩)

/-- D, a. -/
def deRr (c : Reg → Reg → Instr) (w : BitVec 30) : Option Instr :=
  if fFl w = 0 ∧ fB w = 0 then some (c (fD w) (fA w)) else none

/-- A alone. -/
def deRa (c : Reg → Instr) (w : BitVec 30) : Option Instr :=
  if fFl w = 0 ∧ fB w = 0 ∧ fD w = 0 then some (c (fA w)) else none

/-- D alone. -/
def deRd (c : Reg → Instr) (w : BitVec 30) : Option Instr :=
  if fFl w = 0 ∧ fB w = 0 ∧ fA w = 0 then some (c (fD w)) else none

/-- No field. -/
def deNone (c : Instr) (w : BitVec 30) : Option Instr :=
  if fFl w = 0 ∧ fB w = 0 ∧ fA w = 0 ∧ fD w = 0 then some c else none

/-- A, b; d zero. -/
def deRab (c : Reg → Reg → Instr) (w : BitVec 30) : Option Instr :=
  if fFl w = 0 ∧ fD w = 0 then some (c (fA w) (fB w)) else none

/-- Imm10, a; d zero. -/
def deRaI (c : Imm10 → Reg → Instr) (w : BitVec 30) (lit : Option (BitVec 30)) : Option Instr :=
  if fD w = 0 then some (c ⟨fI10 w, lit⟩ (fA w)) else none

/-- D, imm10; a zero. -/
def deRdI (c : Reg → Imm10 → Instr) (w : BitVec 30) (lit : Option (BitVec 30)) : Option Instr :=
  if fA w = 0 then some (c (fD w) ⟨fI10 w, lit⟩) else none

/-- D, a, b and a register number in the flags (SEL, layout K). -/
def deSel (c : Reg → Reg → Reg → BitVec 4 → Instr) (w : BitVec 30) : Option Instr :=
  some (c (fD w) (fA w) (fB w) (fFl w))

/-- D, imm16. -/
def deRi (c : Reg → Imm16 → Instr) (w : BitVec 30) (lit : Option (BitVec 30)) : Option Instr :=
  some (c (fD w) ⟨fI16 w, lit⟩)

/-- Imm16; d zero. -/
def deRiD0 (c : Imm16 → Instr) (w : BitVec 30) (lit : Option (BitVec 30)) : Option Instr :=
  if fD w = 0 then some (c ⟨fI16 w, lit⟩) else none

/-- Cond, a, off12. -/
def deBr (c : BitVec 4 → Reg → Imm12 → Instr) (w : BitVec 30) (lit : Option (BitVec 30)) : Option Instr :=
  some (c (fCond w) (fD w) ⟨fI12 w, lit⟩)

/-- X names a register. -/
def deLoop (c : Reg → BitVec 12 → Instr) (w : BitVec 30) : Option Instr :=
  if fX w / 64 = 0 then some (c (fD w) (fI12 w)) else none

/-- X is a count. -/
def deLoopi (c : Imm10 → BitVec 12 → Instr) (w : BitVec 30) (lit : Option (BitVec 30)) : Option Instr :=
  some (c ⟨fX w, lit⟩ (fI12 w))

/-- Layout A, three registers. -/
def deVA3 (c : Reg → Reg → Reg → Bool → BitVec 3 → Instr) (w : BitVec 30) : Option Instr :=
  some (c (fD w) (fA w) (fB w) (fFin w) (fM w))

/-- Layout A, two registers. -/
def deVA2 (c : Reg → Reg → Bool → BitVec 3 → Instr) (w : BitVec 30) : Option Instr :=
  if fB w = 0 then some (c (fD w) (fA w) (fFin w) (fM w)) else none

/-- Layouts B, C and MV: bit 29 zero. -/
def deVB3 (c : Reg → Reg → Reg → BitVec 3 → Instr) (w : BitVec 30) : Option Instr :=
  if fFin w then none else some (c (fD w) (fA w) (fB w) (fM w))

/-- Layout B, two registers. -/
def deVB2 (c : Reg → Reg → BitVec 3 → Instr) (w : BitVec 30) : Option Instr :=
  if fFin w ∨ fB w ≠ 0 then none else some (c (fD w) (fA w) (fM w))

/-- Base, off10; d zero. -/
def deMemD0 (c : Reg → Imm10 → Instr) (w : BitVec 30) (lit : Option (BitVec 30)) : Option Instr :=
  if fD w = 0 then some (c (fA w) ⟨fI10 w, lit⟩) else none

/-- AT with every field. -/
def deAt (c : Reg → Reg → BitVec 5 → BitVec 2 → BitVec 3 → Instr) (w : BitVec 30) : Option Instr :=
  some (c (fD w) (fA w) (fS w) (fOrd w) (fSc w))

/-- AT: ord and scope. -/
def deAtF (c : BitVec 2 → BitVec 3 → Instr) (w : BitVec 30) : Option Instr :=
  if fD w = 0 ∧ fA w = 0 ∧ fS w = 0 then some (c (fOrd w) (fSc w)) else none

/-- AT: base and scope. -/
def deAtB (c : Reg → BitVec 3 → Instr) (w : BitVec 30) : Option Instr :=
  if fD w = 0 ∧ fS w = 0 ∧ fOrd w = 0 then some (c (fA w) (fSc w)) else none

/-- AT: base, s, ord, scope. -/
def deAtC (c : Reg → BitVec 5 → BitVec 2 → BitVec 3 → Instr) (w : BitVec 30) : Option Instr :=
  if fD w = 0 then some (c (fA w) (fS w) (fOrd w) (fSc w)) else none

/-- AT: base, ord, scope. -/
def deAtW (c : Reg → BitVec 2 → BitVec 3 → Instr) (w : BitVec 30) : Option Instr :=
  if fD w = 0 ∧ fS w = 0 then some (c (fA w) (fOrd w) (fSc w)) else none

/-- Whether an opcode of class S is assigned (R36, R42). -/
def assignedS (op : Nat) : Bool :=
  match op with
  | 0x01 => true
  | 0x02 => true
  | 0x03 => true
  | 0x04 => true
  | 0x05 => true
  | 0x06 => true
  | 0x07 => true
  | 0x08 => true
  | 0x09 => true
  | 0x0A => true
  | 0x0B => true
  | 0x0C => true
  | 0x0D => true
  | 0x0E => true
  | 0x0F => true
  | 0x10 => true
  | 0x11 => true
  | 0x12 => true
  | 0x13 => true
  | 0x14 => true
  | 0x15 => true
  | 0x16 => true
  | 0x17 => true
  | 0x18 => true
  | 0x19 => true
  | 0x1A => true
  | 0x1B => true
  | 0x1C => true
  | 0x1D => true
  | 0x1E => true
  | 0x1F => true
  | 0x20 => true
  | 0x21 => true
  | 0x22 => true
  | 0x23 => true
  | 0x24 => true
  | 0x25 => true
  | 0x26 => true
  | 0x27 => true
  | 0x28 => true
  | 0x29 => true
  | 0x2A => true
  | 0x2B => true
  | 0x40 => true
  | 0x41 => true
  | 0x42 => true
  | 0x43 => true
  | 0x44 => true
  | 0x45 => true
  | 0x46 => true
  | 0x47 => true
  | 0x48 => true
  | 0x60 => true
  | 0x61 => true
  | 0x62 => true
  | 0x63 => true
  | 0x64 => true
  | 0x65 => true
  | 0x66 => true
  | 0x67 => true
  | 0x68 => true
  | 0x69 => true
  | 0x6A => true
  | 0x6B => true
  | 0x6C => true
  | 0x6D => true
  | _ => false

/-- The opcode map of class S (R36). -/
def decS (w : BitVec 30) (lit : Option (BitVec 30)) : Option Instr :=
  match (fOp w).toNat with
  | 0x01 => deRrr .add w
  | 0x02 => deRrr .sub w
  | 0x04 => deRrr .and w
  | 0x05 => deRrr .or w
  | 0x06 => deRrr .xor w
  | 0x07 => deRrr .andn w
  | 0x0B => deRrr .shl w
  | 0x0C => deRrr .shr w
  | 0x0D => deRrr .sar w
  | 0x11 => deRrr .mul w
  | 0x12 => deRrr .mulh w
  | 0x13 => deRrr .mulhu w
  | 0x14 => deRrr .min w
  | 0x15 => deRrr .max w
  | 0x16 => deRrr .minu w
  | 0x17 => deRrr .maxu w
  | 0x18 => deRrr .seq w
  | 0x19 => deRrr .sne w
  | 0x1A => deRrr .slt w
  | 0x1B => deRrr .sltu w
  | 0x27 => deRrr .bfx w
  | 0x28 => deRrr .bfxU w
  | 0x29 => deRrr .bfi w
  | 0x2A => deRrr .fshr w
  | 0x03 => deRri .addi w lit
  | 0x08 => deRri .andi w lit
  | 0x09 => deRri .ori w lit
  | 0x0A => deRri .xori w lit
  | 0x0E => deRri .shli w lit
  | 0x0F => deRri .shri w lit
  | 0x10 => deRri .sari w lit
  | 0x1C => deRri .seqi w lit
  | 0x1D => deRri .snei w lit
  | 0x1E => deRri .slti w lit
  | 0x1F => deRri .sltui w lit
  | 0x2B => deRri .fshri w lit
  | 0x20 => deSel .sel w
  | 0x21 => deRi .ldi w lit
  | 0x22 => deRi .ldhi w lit
  | 0x23 => deRr .clz w
  | 0x24 => deRr .ctz w
  | 0x25 => deRr .popc w
  | 0x26 => deRr .brev w
  | 0x40 => deBr .bCond w lit
  | 0x41 => deRiD0 .jmp w lit
  | 0x42 => deRa .jmpr w
  | 0x43 => deRi .call w lit
  | 0x44 => deRa .ret w
  | 0x45 => deLoop .loop w
  | 0x46 => deLoopi .loopi w lit
  | 0x47 => deRdI .lidx w lit
  | 0x48 => deRa .lbrk w
  | 0x60 => deRa .fmtset w
  | 0x61 => deRd .fmtget w
  | 0x62 => deRa .clkdiv w
  | 0x63 => deRdI .mfc w lit
  | 0x64 => deRaI .mtc w lit
  | 0x65 => deRd .tstamp w
  | 0x66 => deRd .cycles w
  | 0x67 => deNone .yield w
  | 0x68 => deRa .wait w
  | 0x69 => deRr .spawn w
  | 0x6A => deNone .done w
  | 0x6B => deNone .phase w
  | 0x6C => deRiD0 .trap w lit
  | 0x6D => deRiD0 .sys w lit
  | _ => none

/-- Whether an opcode of class V is assigned (R37, R42). -/
def assignedV (op : Nat) : Bool :=
  match op with
  | 0x01 => true
  | 0x02 => true
  | 0x03 => true
  | 0x04 => true
  | 0x05 => true
  | 0x06 => true
  | 0x07 => true
  | 0x08 => true
  | 0x09 => true
  | 0x0A => true
  | 0x0B => true
  | 0x0C => true
  | 0x0D => true
  | 0x0E => true
  | 0x0F => true
  | 0x10 => true
  | 0x11 => true
  | 0x40 => true
  | 0x41 => true
  | 0x42 => true
  | 0x43 => true
  | 0x44 => true
  | 0x45 => true
  | 0x46 => true
  | 0x47 => true
  | 0x48 => true
  | 0x49 => true
  | 0x4A => true
  | 0x4B => true
  | 0x4C => true
  | 0x4D => true
  | 0x4E => true
  | 0x4F => true
  | 0x50 => true
  | 0x51 => true
  | 0x52 => true
  | 0x53 => true
  | 0x54 => true
  | 0x55 => true
  | 0x80 => true
  | 0x81 => true
  | 0x82 => true
  | 0x83 => true
  | 0x84 => true
  | 0x85 => true
  | 0x86 => true
  | 0x87 => true
  | 0x88 => true
  | 0x89 => true
  | 0x8A => true
  | 0x8B => true
  | 0x8C => true
  | 0x8D => true
  | 0xA0 => true
  | 0xA1 => true
  | 0xA2 => true
  | 0xA3 => true
  | _ => false

/-- The opcode map of class V (R37). -/
def decV (w : BitVec 30) (lit : Option (BitVec 30)) : Option Instr :=
  match (fOp w).toNat with
  | 0x01 => deVA3 .vaddF w
  | 0x02 => deVA3 .vsubF w
  | 0x03 => deVA3 .vmulF w
  | 0x04 => deVA3 .vfma w
  | 0x05 => deVA3 .vfms w
  | 0x06 => deVA3 .vfnma w
  | 0x07 => deVB3 .vminF w
  | 0x08 => deVB3 .vmaxF w
  | 0x40 => deVB3 .vaddI w
  | 0x41 => deVB3 .vsubI w
  | 0x42 => deVB3 .vmulI w
  | 0x43 => deVB3 .vmulhI w
  | 0x44 => deVB3 .vminI w
  | 0x45 => deVB3 .vmaxI w
  | 0x46 => deVB3 .vaddsI w
  | 0x47 => deVB3 .vand w
  | 0x48 => deVB3 .vor w
  | 0x49 => deVB3 .vxor w
  | 0x4A => deVB3 .vandn w
  | 0x4B => deVB3 .vshl w
  | 0x4C => deVB3 .vshr w
  | 0x4D => deVB3 .vsar w
  | 0x4F => deVB3 .vbfx w
  | 0x86 => deVB3 .vperm w
  | 0x09 => deVB2 .vabs w
  | 0x0A => deVB2 .vneg w
  | 0x11 => deVB2 .vclrs w
  | 0x51 => deVB2 .vpopc w
  | 0x52 => deVB2 .vclz w
  | 0x81 => deVB2 .vmov w
  | 0x83 => deVB2 .vbcast w
  | 0x0B => deVB3 .vcmpF w
  | 0x4E => deVB3 .vcmpI w
  | 0x0C => deRri .vclass w lit
  | 0x0D => deRri .vcvt w lit
  | 0x0E => deRri .vro w lit
  | 0x0F => deRri .vfin w lit
  | 0x50 => deRri .vfshr w lit
  | 0x84 => deRri .vget w lit
  | 0x85 => deRri .vset w lit
  | 0x87 => deRri .vrot w lit
  | 0x88 => deRri .xgMov w lit
  | 0x89 => deRri .xgBcast w lit
  | 0x8A => deRri .vred w lit
  | 0x8B => deRri .vscan w lit
  | 0xA0 => deRri .trdRow w lit
  | 0xA1 => deRri .trdCol w lit
  | 0xA2 => deRri .twrRow w lit
  | 0xA3 => deRri .twrCol w lit
  | 0x10 => deRr .vstky w
  | 0x53 => deRrr .kand w
  | 0x54 => deRrr .kor w
  | 0x55 => deRr .knot w
  | 0x80 => deSel .vsel w
  | 0x8C => deSel .mredF w
  | 0x8D => deSel .mredI w
  | 0x82 => match lit with
    | none => some (.vmovi (fD w) (fI16 w))
    | some l => some (.vmoviW (fD w) (fI16 w) l)
  | _ => none

/-- Whether an opcode of class F is assigned (R38, R42). -/
def assignedF (op : Nat) : Bool :=
  match op with
  | 0x01 => true
  | 0x02 => true
  | 0x03 => true
  | 0x04 => true
  | 0x05 => true
  | 0x06 => true
  | 0x07 => true
  | 0x08 => true
  | 0x09 => true
  | 0x20 => true
  | 0x21 => true
  | 0x22 => true
  | 0x23 => true
  | 0x40 => true
  | 0x41 => true
  | 0x42 => true
  | 0x43 => true
  | 0x44 => true
  | 0x45 => true
  | 0x46 => true
  | _ => false

/-- The opcode map of class F (R38). -/
def decF (w : BitVec 30) (lit : Option (BitVec 30)) : Option Instr :=
  match (fOp w).toNat with
  | 0x01 => deVA2 .rcp w
  | 0x02 => deVA2 .rsq w
  | 0x03 => deVA2 .sqrt w
  | 0x04 => deVA2 .exp2 w
  | 0x05 => deVA2 .log2 w
  | 0x06 => deVA2 .tanh w
  | 0x07 => deVA2 .sin w
  | 0x08 => deVA2 .cos w
  | 0x09 => deVA2 .sigm w
  | 0x20 => deRrr .idiv w
  | 0x21 => deRrr .idivu w
  | 0x22 => deRrr .irem w
  | 0x23 => deRrr .iremu w
  | 0x40 => deRi .mshape w lit
  | 0x41 => deRd .mzero w
  | 0x42 => deRrr .mma w
  | 0x43 => deRrr .mmas w
  | 0x44 => deRr .mstore w
  | 0x45 => deRd .mwait w
  | 0x46 => deNone .mwaitAll w
  | _ => none

/-- Whether an opcode of class M is assigned (R39, R42). -/
def assignedM (op : Nat) : Bool :=
  match op with
  | 0x01 => true
  | 0x02 => true
  | 0x03 => true
  | 0x04 => true
  | 0x05 => true
  | 0x06 => true
  | 0x07 => true
  | 0x08 => true
  | 0x09 => true
  | 0x0A => true
  | 0x0B => true
  | 0x0C => true
  | 0x0D => true
  | 0x0E => true
  | 0x0F => true
  | 0x10 => true
  | 0x11 => true
  | 0x12 => true
  | 0x13 => true
  | 0x14 => true
  | 0x15 => true
  | 0x16 => true
  | 0x17 => true
  | 0x18 => true
  | 0x19 => true
  | 0x1A => true
  | 0x1B => true
  | 0x1C => true
  | 0x1D => true
  | 0x1E => true
  | 0x1F => true
  | 0x20 => true
  | 0x21 => true
  | 0x22 => true
  | 0x23 => true
  | 0x24 => true
  | 0x25 => true
  | 0x26 => true
  | 0x27 => true
  | 0x28 => true
  | 0x29 => true
  | 0x2A => true
  | 0x30 => true
  | 0x31 => true
  | 0x32 => true
  | 0x33 => true
  | 0x34 => true
  | 0x35 => true
  | 0x36 => true
  | 0x37 => true
  | 0x38 => true
  | 0x39 => true
  | 0x3A => true
  | 0x3B => true
  | 0x3C => true
  | 0x3D => true
  | 0x3E => true
  | 0x3F => true
  | 0x40 => true
  | 0x41 => true
  | 0x42 => true
  | 0x43 => true
  | 0x44 => true
  | 0x45 => true
  | 0x46 => true
  | 0x47 => true
  | 0x50 => true
  | 0x51 => true
  | 0x52 => true
  | 0x53 => true
  | 0x54 => true
  | 0x55 => true
  | 0x70 => true
  | 0x71 => true
  | 0x72 => true
  | 0x73 => true
  | 0x74 => true
  | 0x75 => true
  | 0x76 => true
  | 0x90 => true
  | 0x91 => true
  | 0x92 => true
  | 0x93 => true
  | 0xA0 => true
  | 0xA1 => true
  | 0xA2 => true
  | 0xB0 => true
  | 0xB1 => true
  | _ => false

/-- The opcode map of class M (R39). -/
def decM (w : BitVec 30) (lit : Option (BitVec 30)) : Option Instr :=
  match (fOp w).toNat with
  | 0x01 => deRri .lldB w lit
  | 0x02 => deRri .lldBU w lit
  | 0x03 => deRri .lldH w lit
  | 0x04 => deRri .lldHU w lit
  | 0x05 => deRri .lldW w lit
  | 0x06 => deRri .lldWU w lit
  | 0x07 => deRri .lldD w lit
  | 0x08 => deRri .lstB w lit
  | 0x09 => deRri .lstH w lit
  | 0x0A => deRri .lstW w lit
  | 0x0B => deRri .lstD w lit
  | 0x0C => deRri .gldB w lit
  | 0x0D => deRri .gldBU w lit
  | 0x0E => deRri .gldH w lit
  | 0x0F => deRri .gldHU w lit
  | 0x10 => deRri .gldW w lit
  | 0x11 => deRri .gldWU w lit
  | 0x12 => deRri .gldD w lit
  | 0x13 => deRri .gstB w lit
  | 0x14 => deRri .gstH w lit
  | 0x15 => deRri .gstW w lit
  | 0x16 => deRri .gstD w lit
  | 0x17 => deRri .gldWAcq w lit
  | 0x18 => deRri .gldDAcq w lit
  | 0x19 => deRri .gstWRel w lit
  | 0x1A => deRri .gstDRel w lit
  | 0x1B => deRri .vldRow w lit
  | 0x1C => deRri .vldCol w lit
  | 0x1D => deRri .vldStr w lit
  | 0x1E => deRri .vstRow w lit
  | 0x1F => deRri .vstCol w lit
  | 0x20 => deRri .vstStr w lit
  | 0x21 => deRri .vstBf16 w lit
  | 0x22 => deRri .vstF16 w lit
  | 0x23 => deRri .vstF8e4 w lit
  | 0x24 => deRri .vstF8e5 w lit
  | 0x25 => deVB3 .vldg w
  | 0x26 => deVB3 .vsts w
  | 0x27 => deRri .vspl w lit
  | 0x28 => deRri .vfil w lit
  | 0x29 => deRri .gvld w lit
  | 0x2A => deRri .gvst w lit
  | 0x30 => deAt .aaddW w
  | 0x31 => deAt .aaddD w
  | 0x32 => deAt .afaddW w
  | 0x33 => deAt .aminW w
  | 0x34 => deAt .aminD w
  | 0x35 => deAt .amaxW w
  | 0x36 => deAt .amaxD w
  | 0x37 => deAt .aminuW w
  | 0x38 => deAt .aminuD w
  | 0x39 => deAt .amaxuW w
  | 0x3A => deAt .amaxuD w
  | 0x3B => deAt .aandW w
  | 0x3C => deAt .aandD w
  | 0x3D => deAt .aorW w
  | 0x3E => deAt .aorD w
  | 0x3F => deAt .axorW w
  | 0x40 => deAt .axorD w
  | 0x41 => deAt .axchgW w
  | 0x42 => deAt .axchgD w
  | 0x43 => deAt .acasW w
  | 0x44 => deAt .acasD w
  | 0x45 => deRri .futRd w lit
  | 0x46 => deRri .futFill w lit
  | 0x47 => deMemD0 .futReset w lit
  | 0x50 => deAtF .fence w
  | 0x51 => deAtB .barArr w
  | 0x52 => deAtB .barWait w
  | 0x53 => deAtC .cntAdd w
  | 0x54 => deAtW .cntWait w
  | 0x55 => deAtB .icinv w
  | 0x70 => deRr .cpy w
  | 0x71 => deRrr .cpyMc w
  | 0x72 => deRr .cpyw w
  | 0x73 => deRr .subOpen w
  | 0x74 => deRd .subClose w
  | 0x75 => deRr .qcfg w
  | 0x76 => deRr .qstat w
  | 0x90 => deRrr .ltClass w
  | 0x91 => deRab .ltTouch w
  | 0x92 => deRab .ltFree w
  | 0x93 => deRr .ltStat w
  | 0xA0 => deRr .resReg w
  | 0xA1 => deRab .resDrop w
  | 0xA2 => deRrr .resQry w
  | 0xB0 => deRab .tlbinv w
  | 0xB1 => deRaI .privMtc w lit
  | _ => none

/-- Whether the operation of a class and opcode has an immediate field a literal extends: formats RI, RRI, MEM, BR and
the LOOPI form (R25). -/
def takesLiteral (c : Cls) (op : Nat) : Bool :=
  match c with
  | .s => op ∈ [0x03, 0x08, 0x09, 0x0A, 0x0E, 0x0F, 0x10, 0x1C, 0x1D, 0x1E, 0x1F, 0x21, 0x22, 0x2B, 0x40, 0x41, 0x43, 0x46, 0x47, 0x63, 0x64, 0x6C, 0x6D]
  | .v => op ∈ [0x0C, 0x0D, 0x0E, 0x0F, 0x50, 0x82, 0x84, 0x85, 0x87, 0x88, 0x89, 0x8A, 0x8B, 0xA0, 0xA1, 0xA2, 0xA3]
  | .f => op ∈ [0x40]
  | .m => op ∈ [0x01, 0x02, 0x03, 0x04, 0x05, 0x06, 0x07, 0x08, 0x09, 0x0A, 0x0B, 0x0C, 0x0D, 0x0E, 0x0F, 0x10, 0x11, 0x12, 0x13, 0x14, 0x15, 0x16, 0x17, 0x18, 0x19, 0x1A, 0x1B, 0x1C, 0x1D, 0x1E, 0x1F, 0x20, 0x21, 0x22, 0x23, 0x24, 0x27, 0x28, 0x29, 0x2A, 0x45, 0x46, 0x47, 0xB1]

/-- Whether an opcode is assigned in a class (R42). -/
def assigned (c : Cls) (op : Nat) : Bool :=
  match c with
  | .s => assignedS op
  | .v => assignedV op
  | .f => assignedF op
  | .m => assignedM op

/-- The fields of a slot read under the opcode map of its class. -/
def decRaw (c : Cls) (w : BitVec 30) (lit : Option (BitVec 30)) : Option Instr :=
  match c with
  | .s => decS w lit
  | .v => decV w lit
  | .f => decF w lit
  | .m => decM w lit

/-- Decodes the operation of slot `slot` with its literal, or refuses it by name (R29 to R42). -/
def decodeSlot (slot : Nat) (w : BitVec 30) (lit : Option (BitVec 30)) : Except Reject Instr :=
  let c := slotClass slot
  if !assigned c (fOp w).toNat then .error .unassigned
  else
    match decRaw c w lit with
    | none => .error .unusedField
    | some i =>
      if !i.wf then .error .operand
      else if !i.slotOk slot then .error .wrongSlot
      else .ok i

/-- Opcodes 0xB0 to 0xBF of class M are privileged (R41). -/
def privilegedOp (c : Cls) (op : Nat) : Bool := decide (c = .m) && decide (0xB0 ≤ op) && decide (op ≤ 0xBF)

/-! The bundle (R18, R43, R44). -/

/-- Slot `i` of a bundle. -/
def bundleSlot (x : BitVec 256) (i : Nat) : BitVec 30 := x.extractLsb' (16 + 30 * i) 30
/-- The L bit of slot `i` (R18). -/
def bundleL (x : BitVec 256) (i : Nat) : Bool := x.getLsbD (1 + i)
/-- The D bit (R18). -/
def bundleD (x : BitVec 256) : Bool := x.getLsbD 0
/-- Whether slot `i` is a NOP (R20). -/
def isNop (x : BitVec 256) (i : Nat) : Bool := decide (bundleSlot x i = 0) && !bundleL x i
/-- Whether slot `i` holds an operation: neither a NOP nor a literal. -/
def isOp (x : BitVec 256) (i : Nat) : Bool := !bundleL x i && !isNop x i
/-- Whether the literal in slot `i` is legal (R25). -/
def literalOk (x : BitVec 256) (i : Nat) : Bool :=
  let p := i - 1
  let op := (fOp (bundleSlot x p)).toNat
  decide (i ≠ 0) && isOp x p && assigned (slotClass p) op && takesLiteral (slotClass p) op
/-- Whether slot `i` holds a control-flow operation: class S, assigned, 0x40 to 0x48 (R23). -/
def isControlFlow (x : BitVec 256) (i : Nat) : Bool :=
  let op := (fOp (bundleSlot x i)).toNat
  isOp x i && decide (slotClass i = .s) && decide (0x40 ≤ op) && decide (op ≤ 0x48)

/-- The slots of a bundle. -/
def slots8 : List Nat := [0, 1, 2, 3, 4, 5, 6, 7]

/-- R43 in its order: the slot an illegal-bundle fault names (R44), or none. `oddHalf` says that the vector divisor is
twice the control divisor and the issue cycle is odd. -/
def bundleFault (x : BitVec 256) (oddHalf : Bool) : Option Nat :=
  if x.extractLsb' 9 7 ≠ 0 then some 0
  else if bundleL x 0 then some 0
  else
    match slots8.find? (fun i => bundleL x i && !literalOk x i) with
    | some i => some i
    | none =>
      match slots8.filter (isControlFlow x) with
      | _ :: j :: _ => some j
      | _ =>
        if oddHalf && slots8.any (fun i => isOp x i && (decide (slotClass i = .v) || decide (slotClass i = .f))) then some 0
        else none

/-- What a slot of a bundle holds once decoded. -/
def slotInstr (x : BitVec 256) (i : Nat) : Except Reject Instr :=
  decodeSlot i (bundleSlot x i) (if bundleL x (i + 1) && decide (i < 7) then some (bundleSlot x (i + 1)) else none)

/-- Why a slot stops its bundle at decode: 0x02 illegal instruction, or 0x03 privilege, which in user state is decided on
the opcode alone (R41, R42). -/
def slotFault (x : BitVec 256) (priv : Bool) (i : Nat) : Option Nat :=
  let c := slotClass i
  let op := (fOp (bundleSlot x i)).toNat
  if !isOp x i then none
  else if !priv && privilegedOp c op && assigned c op then some 0x03
  else match slotInstr x i with
    | .ok _ => none
    | .error _ => some 0x02

/-- A bundle decoded as a whole (R44): the stop code and slot of the first fault, or the operations of its slots. -/
def decodeBundle (x : BitVec 256) (priv oddHalf : Bool) : Except (Nat × Nat) (List (Nat × Instr)) :=
  match bundleFault x oddHalf with
  | some i => .error (0x01, i)
  | none =>
    match slots8.find? (fun i => (slotFault x priv i).isSome) with
    | some i => .error ((slotFault x priv i).getD 0x02, i)
    | none =>
      .ok (slots8.filterMap (fun i =>
        if isOp x i then
          match slotInstr x i with
          | .ok j => some (i, j)
          | .error _ => none
        else none))

/-- The bundle whose bytes, least significant first, are the bits of `w` (R18). -/
def bundleOf (w : Nat) : BitVec 256 := BitVec.ofNat 256 w

/-- What this decoder reads from an instruction whose bits are `w`: the single operation of that bundle, in privileged
state on an even cycle; none where the bundle is refused or holds no operation or several. The opcode table numbers no
bits, so `nbits` decides nothing. -/
def decodeTableWord (_nbits w : Nat) : Option Instr :=
  match decodeBundle (bundleOf w) true false with
  | .ok [(_, i)] => some i
  | _ => none

/-! The encoder, from the same tables. -/

/-- A slot's bits with the literal that follows it. -/
structure Enc where
  cls : Cls
  word : BitVec 30
  lit : Option (BitVec 30)
deriving DecidableEq, Repr

/-- RRR and MV words. -/
def enRrr (fl : BitVec 4) (b a d : BitVec 6) (op : BitVec 8) : BitVec 30 := fl ++ b ++ a ++ d ++ op
/-- Flags of layouts A, B and C: bit 29 and three bits. -/
def enFl (fin : Bool) (m : BitVec 3) : BitVec 4 := BitVec.ofBool fin ++ m
/-- RRI and MEM words. -/
def enRri (i : BitVec 10) (a d : BitVec 6) (op : BitVec 8) : BitVec 30 := i ++ a ++ d ++ op
/-- RI words. -/
def enRi (i : BitVec 16) (d : BitVec 6) (op : BitVec 8) : BitVec 30 := i ++ d ++ op
/-- BR words. -/
def enBr (off : BitVec 12) (cond : BitVec 4) (a : BitVec 6) (op : BitVec 8) : BitVec 30 := off ++ cond ++ a ++ op
/-- LOOP words. -/
def enLoop (last : BitVec 12) (x : BitVec 10) (op : BitVec 8) : BitVec 30 := last ++ x ++ op
/-- AT words. -/
def enAt (sc : BitVec 3) (ord : BitVec 2) (s : BitVec 5) (base d : BitVec 6) (op : BitVec 8) : BitVec 30 :=
  sc ++ ord ++ s ++ base ++ d ++ op

/-- The bundle that holds one operation in a slot, its literal in the next with the L bit of that slot, and NOPs elsewhere
(R18, R25). -/
def oneSlotBundle (slot : Nat) (e : Enc) : BitVec 256 :=
  let one (i : Nat) (w : BitVec 30) : BitVec 256 := w.setWidth 256 <<< (16 + 30 * i)
  match e.lit with
  | none => one slot e.word
  | some l => one slot e.word ||| one (slot + 1) l ||| (1#256 <<< (slot + 2))

/-- Encodes a slot operation; an event has no encoding. -/
def encode (i : Instr) : Option Enc :=
  match i with
  | .powerOnReset => none
  | .managementCoreBoot => none
  | .featureNegotiation => none
  | .partitionAssign => none
  | .partitionWithdraw => none
  | .spdmRequest => none
  | .debugPolicy => none
  | .lockInterface => none
  | .startInterface => none
  | .stopInterface => none
  | .hostBar2Read => none
  | .hostBar2Write => none
  | .hostAtomicop => none
  | .doorbellWrite => none
  | .queuePollTimer => none
  | .queueSlotTake => none
  | .controlRegisterWrite => none
  | .issueBundle => none
  | .resultLanding => none
  | .lateItemArrival => none
  | .directReplyArrival => none
  | .directStoreAck => none
  | .portRequestService => none
  | .pageWalk => none
  | .turretSlotLoad => none
  | .turretSlotStore => none
  | .streamRetry => none
  | .streamCompletion => none
  | .copyPacketStart => none
  | .copyUnitWrite => none
  | .suspendSlotTake => none
  | .ceresumeWrite => none
  | .multicastLanding => none
  | .copyCompletion => none
  | .tickBoundary => none
  | .bandStepDown => none
  | .rowGroupLimit => none
  | .refreshComplete => none
  | .missedRefresh => none
  | .sliceLineAgeLimit => none
  | .lclassWrite => none
  | .temptabWrite => none
  | .layoutWrite => none
  | .sscarveWrite => none
  | .tileWriteComplete => none
  | .matrixKStep => none
  | .matrixOpComplete => none
  | .tileOwnerChange => none
  | .mxstatWrite => none
  | .deferredMatrixFault => none
  | .expiryTrap => none
  | .copyErrorTrap => none
  | .bufferContractTrap => none
  | .progressFault => none
  | .preemptionRequest => none
  | .preemptStop => none
  | .timesliceExpiry => none
  | .runningContextChange => none
  | .contextSave => none
  | .contextRestore => none
  | .trapHandlerStart => none
  | .taskCompletion => none
  | .placementDecision => none
  | .patienceExpiry => none
  | .tileStepProduce => none
  | .teamMigration => none
  | .teamArrival => none
  | .launchPacket => none
  | .launchNopPacket => none
  | .launchCompletion => none
  | .capstart => none
  | .capstop => none
  | .waitTimerExpiry => none
  | .clkdivPauseEnd => none
  | .atomicEnginePerform => none
  | .collectivePacket => none
  | .collectiveNopPacket => none
  | .collectiveChunkStep => none
  | .chunkMarkWrite => none
  | .linkFall => none
  | .podLinkLoss => none
  | .fabricFrameReceive => none
  | .epochAckCollect => none
  | .memberAckTimeout => none
  | .treeRebuild => none
  | .collectiveCompletion => none
  | .dieLoss => none
  | .moduleHeartbeatLoss => none
  | .thermalEmergency => none
  | .firmwareWatchdogExpiry => none
  | .pcapRaise => none
  | .droopTrip => none
  | .droopStretchEnd => none
  | .droopFreezeEnd => none
  | .retentionEntry => none
  | .retentionExit => none
  | .phaseRefetchComplete => none
  | .phctlWrite => none
  | .auditReplayStart => none
  | .checkpointCut => none
  | .checkpointPageStream => none
  | .debugRelease => none
  | .sampleRecord => none
  | .add d a b => some ⟨.s, enRrr 0 b a d 0x01, none⟩
  | .sub d a b => some ⟨.s, enRrr 0 b a d 0x02, none⟩
  | .and d a b => some ⟨.s, enRrr 0 b a d 0x04, none⟩
  | .or d a b => some ⟨.s, enRrr 0 b a d 0x05, none⟩
  | .xor d a b => some ⟨.s, enRrr 0 b a d 0x06, none⟩
  | .andn d a b => some ⟨.s, enRrr 0 b a d 0x07, none⟩
  | .addi d a imm => some ⟨.s, enRri imm.field a d 0x03, imm.lit⟩
  | .andi d a imm => some ⟨.s, enRri imm.field a d 0x08, imm.lit⟩
  | .ori d a imm => some ⟨.s, enRri imm.field a d 0x09, imm.lit⟩
  | .xori d a imm => some ⟨.s, enRri imm.field a d 0x0A, imm.lit⟩
  | .shl d a b => some ⟨.s, enRrr 0 b a d 0x0B, none⟩
  | .shr d a b => some ⟨.s, enRrr 0 b a d 0x0C, none⟩
  | .sar d a b => some ⟨.s, enRrr 0 b a d 0x0D, none⟩
  | .shli d a imm => some ⟨.s, enRri imm.field a d 0x0E, imm.lit⟩
  | .shri d a imm => some ⟨.s, enRri imm.field a d 0x0F, imm.lit⟩
  | .sari d a imm => some ⟨.s, enRri imm.field a d 0x10, imm.lit⟩
  | .mul d a b => some ⟨.s, enRrr 0 b a d 0x11, none⟩
  | .mulh d a b => some ⟨.s, enRrr 0 b a d 0x12, none⟩
  | .mulhu d a b => some ⟨.s, enRrr 0 b a d 0x13, none⟩
  | .min d a b => some ⟨.s, enRrr 0 b a d 0x14, none⟩
  | .max d a b => some ⟨.s, enRrr 0 b a d 0x15, none⟩
  | .minu d a b => some ⟨.s, enRrr 0 b a d 0x16, none⟩
  | .maxu d a b => some ⟨.s, enRrr 0 b a d 0x17, none⟩
  | .seq d a b => some ⟨.s, enRrr 0 b a d 0x18, none⟩
  | .sne d a b => some ⟨.s, enRrr 0 b a d 0x19, none⟩
  | .slt d a b => some ⟨.s, enRrr 0 b a d 0x1A, none⟩
  | .sltu d a b => some ⟨.s, enRrr 0 b a d 0x1B, none⟩
  | .seqi d a imm => some ⟨.s, enRri imm.field a d 0x1C, imm.lit⟩
  | .snei d a imm => some ⟨.s, enRri imm.field a d 0x1D, imm.lit⟩
  | .slti d a imm => some ⟨.s, enRri imm.field a d 0x1E, imm.lit⟩
  | .sltui d a imm => some ⟨.s, enRri imm.field a d 0x1F, imm.lit⟩
  | .sel d a b c => some ⟨.s, enRrr c b a d 0x20, none⟩
  | .ldi d imm => some ⟨.s, enRi imm.field d 0x21, imm.lit⟩
  | .ldhi d imm => some ⟨.s, enRi imm.field d 0x22, imm.lit⟩
  | .clz d a => some ⟨.s, enRrr 0 0 a d 0x23, none⟩
  | .ctz d a => some ⟨.s, enRrr 0 0 a d 0x24, none⟩
  | .popc d a => some ⟨.s, enRrr 0 0 a d 0x25, none⟩
  | .brev d a => some ⟨.s, enRrr 0 0 a d 0x26, none⟩
  | .bfx d a b => some ⟨.s, enRrr 0 b a d 0x27, none⟩
  | .bfxU d a b => some ⟨.s, enRrr 0 b a d 0x28, none⟩
  | .bfi d a b => some ⟨.s, enRrr 0 b a d 0x29, none⟩
  | .fshr d a b => some ⟨.s, enRrr 0 b a d 0x2A, none⟩
  | .fshri d a imm => some ⟨.s, enRri imm.field a d 0x2B, imm.lit⟩
  | .bCond cond a off => some ⟨.s, enBr off.field cond a 0x40, off.lit⟩
  | .jmp imm => some ⟨.s, enRi imm.field 0 0x41, imm.lit⟩
  | .jmpr a => some ⟨.s, enRrr 0 0 a 0 0x42, none⟩
  | .call d imm => some ⟨.s, enRi imm.field d 0x43, imm.lit⟩
  | .ret a => some ⟨.s, enRrr 0 0 a 0 0x44, none⟩
  | .loop a last => some ⟨.s, enLoop last (a.zeroExtend 10) 0x45, none⟩
  | .loopi count last => some ⟨.s, enLoop last count.field 0x46, count.lit⟩
  | .lidx d imm => some ⟨.s, enRri imm.field 0 d 0x47, imm.lit⟩
  | .lbrk a => some ⟨.s, enRrr 0 0 a 0 0x48, none⟩
  | .fmtset a => some ⟨.s, enRrr 0 0 a 0 0x60, none⟩
  | .fmtget d => some ⟨.s, enRrr 0 0 0 d 0x61, none⟩
  | .clkdiv a => some ⟨.s, enRrr 0 0 a 0 0x62, none⟩
  | .mfc d imm => some ⟨.s, enRri imm.field 0 d 0x63, imm.lit⟩
  | .mtc ctl a => some ⟨.s, enRri ctl.field a 0 0x64, ctl.lit⟩
  | .tstamp d => some ⟨.s, enRrr 0 0 0 d 0x65, none⟩
  | .cycles d => some ⟨.s, enRrr 0 0 0 d 0x66, none⟩
  | .yield => some ⟨.s, enRrr 0 0 0 0 0x67, none⟩
  | .wait a => some ⟨.s, enRrr 0 0 a 0 0x68, none⟩
  | .spawn d a => some ⟨.s, enRrr 0 0 a d 0x69, none⟩
  | .done => some ⟨.s, enRrr 0 0 0 0 0x6A, none⟩
  | .phase => some ⟨.s, enRrr 0 0 0 0 0x6B, none⟩
  | .trap imm => some ⟨.s, enRi imm.field 0 0x6C, imm.lit⟩
  | .sys imm => some ⟨.s, enRi imm.field 0 0x6D, imm.lit⟩
  | .vaddF d a b fin m => some ⟨.v, enRrr (enFl fin m) b a d 0x01, none⟩
  | .vsubF d a b fin m => some ⟨.v, enRrr (enFl fin m) b a d 0x02, none⟩
  | .vmulF d a b fin m => some ⟨.v, enRrr (enFl fin m) b a d 0x03, none⟩
  | .vfma d a b fin m => some ⟨.v, enRrr (enFl fin m) b a d 0x04, none⟩
  | .vfms d a b fin m => some ⟨.v, enRrr (enFl fin m) b a d 0x05, none⟩
  | .vfnma d a b fin m => some ⟨.v, enRrr (enFl fin m) b a d 0x06, none⟩
  | .vminF d a b m => some ⟨.v, enRrr (enFl false m) b a d 0x07, none⟩
  | .vmaxF d a b m => some ⟨.v, enRrr (enFl false m) b a d 0x08, none⟩
  | .vabs d a m => some ⟨.v, enRrr (enFl false m) 0 a d 0x09, none⟩
  | .vneg d a m => some ⟨.v, enRrr (enFl false m) 0 a d 0x0A, none⟩
  | .vcmpF d a b cond => some ⟨.v, enRrr (enFl false cond) b a d 0x0B, none⟩
  | .vclass d a imm => some ⟨.v, enRri imm.field a d 0x0C, imm.lit⟩
  | .vcvt d a imm => some ⟨.v, enRri imm.field a d 0x0D, imm.lit⟩
  | .vro d a imm => some ⟨.v, enRri imm.field a d 0x0E, imm.lit⟩
  | .vfin d a imm => some ⟨.v, enRri imm.field a d 0x0F, imm.lit⟩
  | .vstky d a => some ⟨.v, enRrr 0 0 a d 0x10, none⟩
  | .vclrs d a m => some ⟨.v, enRrr (enFl false m) 0 a d 0x11, none⟩
  | .vaddI d a b m => some ⟨.v, enRrr (enFl false m) b a d 0x40, none⟩
  | .vsubI d a b m => some ⟨.v, enRrr (enFl false m) b a d 0x41, none⟩
  | .vmulI d a b m => some ⟨.v, enRrr (enFl false m) b a d 0x42, none⟩
  | .vmulhI d a b m => some ⟨.v, enRrr (enFl false m) b a d 0x43, none⟩
  | .vminI d a b m => some ⟨.v, enRrr (enFl false m) b a d 0x44, none⟩
  | .vmaxI d a b m => some ⟨.v, enRrr (enFl false m) b a d 0x45, none⟩
  | .vaddsI d a b m => some ⟨.v, enRrr (enFl false m) b a d 0x46, none⟩
  | .vand d a b m => some ⟨.v, enRrr (enFl false m) b a d 0x47, none⟩
  | .vor d a b m => some ⟨.v, enRrr (enFl false m) b a d 0x48, none⟩
  | .vxor d a b m => some ⟨.v, enRrr (enFl false m) b a d 0x49, none⟩
  | .vandn d a b m => some ⟨.v, enRrr (enFl false m) b a d 0x4A, none⟩
  | .vshl d a b m => some ⟨.v, enRrr (enFl false m) b a d 0x4B, none⟩
  | .vshr d a b m => some ⟨.v, enRrr (enFl false m) b a d 0x4C, none⟩
  | .vsar d a b m => some ⟨.v, enRrr (enFl false m) b a d 0x4D, none⟩
  | .vcmpI d a b cond => some ⟨.v, enRrr (enFl false cond) b a d 0x4E, none⟩
  | .vbfx d a b m => some ⟨.v, enRrr (enFl false m) b a d 0x4F, none⟩
  | .vfshr d a imm => some ⟨.v, enRri imm.field a d 0x50, imm.lit⟩
  | .vpopc d a m => some ⟨.v, enRrr (enFl false m) 0 a d 0x51, none⟩
  | .vclz d a m => some ⟨.v, enRrr (enFl false m) 0 a d 0x52, none⟩
  | .kand d a b => some ⟨.v, enRrr 0 b a d 0x53, none⟩
  | .kor d a b => some ⟨.v, enRrr 0 b a d 0x54, none⟩
  | .knot d a => some ⟨.v, enRrr 0 0 a d 0x55, none⟩
  | .vsel d a b k => some ⟨.v, enRrr k b a d 0x80, none⟩
  | .vmov d a m => some ⟨.v, enRrr (enFl false m) 0 a d 0x81, none⟩
  | .vmovi d imm => some ⟨.v, enRi imm d 0x82, none⟩
  | .vmoviW d imm lit => some ⟨.v, enRi imm d 0x82, (some lit)⟩
  | .vbcast d a m => some ⟨.v, enRrr (enFl false m) 0 a d 0x83, none⟩
  | .vget d a imm => some ⟨.v, enRri imm.field a d 0x84, imm.lit⟩
  | .vset d a imm => some ⟨.v, enRri imm.field a d 0x85, imm.lit⟩
  | .vperm d a b m => some ⟨.v, enRrr (enFl false m) b a d 0x86, none⟩
  | .vrot d a imm => some ⟨.v, enRri imm.field a d 0x87, imm.lit⟩
  | .xgMov d a imm => some ⟨.v, enRri imm.field a d 0x88, imm.lit⟩
  | .xgBcast d a imm => some ⟨.v, enRri imm.field a d 0x89, imm.lit⟩
  | .vred d a imm => some ⟨.v, enRri imm.field a d 0x8A, imm.lit⟩
  | .vscan d a imm => some ⟨.v, enRri imm.field a d 0x8B, imm.lit⟩
  | .mredF d a b k => some ⟨.v, enRrr k b a d 0x8C, none⟩
  | .mredI d a b k => some ⟨.v, enRrr k b a d 0x8D, none⟩
  | .trdRow d a imm => some ⟨.v, enRri imm.field a d 0xA0, imm.lit⟩
  | .trdCol d a imm => some ⟨.v, enRri imm.field a d 0xA1, imm.lit⟩
  | .twrRow d a imm => some ⟨.v, enRri imm.field a d 0xA2, imm.lit⟩
  | .twrCol d a imm => some ⟨.v, enRri imm.field a d 0xA3, imm.lit⟩
  | .rcp d a fin m => some ⟨.f, enRrr (enFl fin m) 0 a d 0x01, none⟩
  | .rsq d a fin m => some ⟨.f, enRrr (enFl fin m) 0 a d 0x02, none⟩
  | .sqrt d a fin m => some ⟨.f, enRrr (enFl fin m) 0 a d 0x03, none⟩
  | .exp2 d a fin m => some ⟨.f, enRrr (enFl fin m) 0 a d 0x04, none⟩
  | .log2 d a fin m => some ⟨.f, enRrr (enFl fin m) 0 a d 0x05, none⟩
  | .tanh d a fin m => some ⟨.f, enRrr (enFl fin m) 0 a d 0x06, none⟩
  | .sin d a fin m => some ⟨.f, enRrr (enFl fin m) 0 a d 0x07, none⟩
  | .cos d a fin m => some ⟨.f, enRrr (enFl fin m) 0 a d 0x08, none⟩
  | .sigm d a fin m => some ⟨.f, enRrr (enFl fin m) 0 a d 0x09, none⟩
  | .idiv d a b => some ⟨.f, enRrr 0 b a d 0x20, none⟩
  | .idivu d a b => some ⟨.f, enRrr 0 b a d 0x21, none⟩
  | .irem d a b => some ⟨.f, enRrr 0 b a d 0x22, none⟩
  | .iremu d a b => some ⟨.f, enRrr 0 b a d 0x23, none⟩
  | .mshape d imm => some ⟨.f, enRi imm.field d 0x40, imm.lit⟩
  | .mzero d => some ⟨.f, enRrr 0 0 0 d 0x41, none⟩
  | .mma d a b => some ⟨.f, enRrr 0 b a d 0x42, none⟩
  | .mmas d a b => some ⟨.f, enRrr 0 b a d 0x43, none⟩
  | .mstore d a => some ⟨.f, enRrr 0 0 a d 0x44, none⟩
  | .mwait d => some ⟨.f, enRrr 0 0 0 d 0x45, none⟩
  | .mwaitAll => some ⟨.f, enRrr 0 0 0 0 0x46, none⟩
  | .lldB d base off => some ⟨.m, enRri off.field base d 0x01, off.lit⟩
  | .lldBU d base off => some ⟨.m, enRri off.field base d 0x02, off.lit⟩
  | .lldH d base off => some ⟨.m, enRri off.field base d 0x03, off.lit⟩
  | .lldHU d base off => some ⟨.m, enRri off.field base d 0x04, off.lit⟩
  | .lldW d base off => some ⟨.m, enRri off.field base d 0x05, off.lit⟩
  | .lldWU d base off => some ⟨.m, enRri off.field base d 0x06, off.lit⟩
  | .lldD d base off => some ⟨.m, enRri off.field base d 0x07, off.lit⟩
  | .lstB d base off => some ⟨.m, enRri off.field base d 0x08, off.lit⟩
  | .lstH d base off => some ⟨.m, enRri off.field base d 0x09, off.lit⟩
  | .lstW d base off => some ⟨.m, enRri off.field base d 0x0A, off.lit⟩
  | .lstD d base off => some ⟨.m, enRri off.field base d 0x0B, off.lit⟩
  | .gldB d base off => some ⟨.m, enRri off.field base d 0x0C, off.lit⟩
  | .gldBU d base off => some ⟨.m, enRri off.field base d 0x0D, off.lit⟩
  | .gldH d base off => some ⟨.m, enRri off.field base d 0x0E, off.lit⟩
  | .gldHU d base off => some ⟨.m, enRri off.field base d 0x0F, off.lit⟩
  | .gldW d base off => some ⟨.m, enRri off.field base d 0x10, off.lit⟩
  | .gldWU d base off => some ⟨.m, enRri off.field base d 0x11, off.lit⟩
  | .gldD d base off => some ⟨.m, enRri off.field base d 0x12, off.lit⟩
  | .gstB d base off => some ⟨.m, enRri off.field base d 0x13, off.lit⟩
  | .gstH d base off => some ⟨.m, enRri off.field base d 0x14, off.lit⟩
  | .gstW d base off => some ⟨.m, enRri off.field base d 0x15, off.lit⟩
  | .gstD d base off => some ⟨.m, enRri off.field base d 0x16, off.lit⟩
  | .gldWAcq d base off => some ⟨.m, enRri off.field base d 0x17, off.lit⟩
  | .gldDAcq d base off => some ⟨.m, enRri off.field base d 0x18, off.lit⟩
  | .gstWRel d base off => some ⟨.m, enRri off.field base d 0x19, off.lit⟩
  | .gstDRel d base off => some ⟨.m, enRri off.field base d 0x1A, off.lit⟩
  | .vldRow d base off => some ⟨.m, enRri off.field base d 0x1B, off.lit⟩
  | .vldCol d base off => some ⟨.m, enRri off.field base d 0x1C, off.lit⟩
  | .vldStr d base off => some ⟨.m, enRri off.field base d 0x1D, off.lit⟩
  | .vstRow d base off => some ⟨.m, enRri off.field base d 0x1E, off.lit⟩
  | .vstCol d base off => some ⟨.m, enRri off.field base d 0x1F, off.lit⟩
  | .vstStr d base off => some ⟨.m, enRri off.field base d 0x20, off.lit⟩
  | .vstBf16 d base off => some ⟨.m, enRri off.field base d 0x21, off.lit⟩
  | .vstF16 d base off => some ⟨.m, enRri off.field base d 0x22, off.lit⟩
  | .vstF8e4 d base off => some ⟨.m, enRri off.field base d 0x23, off.lit⟩
  | .vstF8e5 d base off => some ⟨.m, enRri off.field base d 0x24, off.lit⟩
  | .vldg d base idx m => some ⟨.m, enRrr (enFl false m) idx base d 0x25, none⟩
  | .vsts d base idx m => some ⟨.m, enRrr (enFl false m) idx base d 0x26, none⟩
  | .vspl d base off => some ⟨.m, enRri off.field base d 0x27, off.lit⟩
  | .vfil d base off => some ⟨.m, enRri off.field base d 0x28, off.lit⟩
  | .gvld d base off => some ⟨.m, enRri off.field base d 0x29, off.lit⟩
  | .gvst d base off => some ⟨.m, enRri off.field base d 0x2A, off.lit⟩
  | .aaddW d base src ord sc => some ⟨.m, enAt sc ord src base d 0x30, none⟩
  | .aaddD d base src ord sc => some ⟨.m, enAt sc ord src base d 0x31, none⟩
  | .afaddW d base src ord sc => some ⟨.m, enAt sc ord src base d 0x32, none⟩
  | .aminW d base src ord sc => some ⟨.m, enAt sc ord src base d 0x33, none⟩
  | .aminD d base src ord sc => some ⟨.m, enAt sc ord src base d 0x34, none⟩
  | .amaxW d base src ord sc => some ⟨.m, enAt sc ord src base d 0x35, none⟩
  | .amaxD d base src ord sc => some ⟨.m, enAt sc ord src base d 0x36, none⟩
  | .aminuW d base src ord sc => some ⟨.m, enAt sc ord src base d 0x37, none⟩
  | .aminuD d base src ord sc => some ⟨.m, enAt sc ord src base d 0x38, none⟩
  | .amaxuW d base src ord sc => some ⟨.m, enAt sc ord src base d 0x39, none⟩
  | .amaxuD d base src ord sc => some ⟨.m, enAt sc ord src base d 0x3A, none⟩
  | .aandW d base src ord sc => some ⟨.m, enAt sc ord src base d 0x3B, none⟩
  | .aandD d base src ord sc => some ⟨.m, enAt sc ord src base d 0x3C, none⟩
  | .aorW d base src ord sc => some ⟨.m, enAt sc ord src base d 0x3D, none⟩
  | .aorD d base src ord sc => some ⟨.m, enAt sc ord src base d 0x3E, none⟩
  | .axorW d base src ord sc => some ⟨.m, enAt sc ord src base d 0x3F, none⟩
  | .axorD d base src ord sc => some ⟨.m, enAt sc ord src base d 0x40, none⟩
  | .axchgW d base src ord sc => some ⟨.m, enAt sc ord src base d 0x41, none⟩
  | .axchgD d base src ord sc => some ⟨.m, enAt sc ord src base d 0x42, none⟩
  | .acasW d base src ord sc => some ⟨.m, enAt sc ord src base d 0x43, none⟩
  | .acasD d base src ord sc => some ⟨.m, enAt sc ord src base d 0x44, none⟩
  | .futRd d base off => some ⟨.m, enRri off.field base d 0x45, off.lit⟩
  | .futFill d base off => some ⟨.m, enRri off.field base d 0x46, off.lit⟩
  | .futReset base off => some ⟨.m, enRri off.field base 0 0x47, off.lit⟩
  | .fence ord sc => some ⟨.m, enAt sc ord 0 0 0 0x50, none⟩
  | .barArr base sc => some ⟨.m, enAt sc 0 0 base 0 0x51, none⟩
  | .barWait base sc => some ⟨.m, enAt sc 0 0 base 0 0x52, none⟩
  | .cntAdd base src ord sc => some ⟨.m, enAt sc ord src base 0 0x53, none⟩
  | .cntWait base ord sc => some ⟨.m, enAt sc ord 0 base 0 0x54, none⟩
  | .icinv base sc => some ⟨.m, enAt sc 0 0 base 0 0x55, none⟩
  | .cpy d a => some ⟨.m, enRrr 0 0 a d 0x70, none⟩
  | .cpyMc d a b => some ⟨.m, enRrr 0 b a d 0x71, none⟩
  | .cpyw d a => some ⟨.m, enRrr 0 0 a d 0x72, none⟩
  | .subOpen d a => some ⟨.m, enRrr 0 0 a d 0x73, none⟩
  | .subClose d => some ⟨.m, enRrr 0 0 0 d 0x74, none⟩
  | .qcfg d a => some ⟨.m, enRrr 0 0 a d 0x75, none⟩
  | .qstat d a => some ⟨.m, enRrr 0 0 a d 0x76, none⟩
  | .ltClass d a b => some ⟨.m, enRrr 0 b a d 0x90, none⟩
  | .ltTouch a b => some ⟨.m, enRrr 0 b a 0 0x91, none⟩
  | .ltFree a b => some ⟨.m, enRrr 0 b a 0 0x92, none⟩
  | .ltStat d a => some ⟨.m, enRrr 0 0 a d 0x93, none⟩
  | .resReg d a => some ⟨.m, enRrr 0 0 a d 0xA0, none⟩
  | .resDrop a b => some ⟨.m, enRrr 0 b a 0 0xA1, none⟩
  | .resQry d a b => some ⟨.m, enRrr 0 b a d 0xA2, none⟩
  | .tlbinv a b => some ⟨.m, enRrr 0 b a 0 0xB0, none⟩
  | .privMtc ctl a => some ⟨.m, enRri ctl.field a 0 0xB1, ctl.lit⟩
  | .goBackNRetransmission => none
  | .powerFirmwareWatchdogSignal => none
  | .powerFirmwareUpdateStart => none

end Sys2Proof
end

