-- ==== Sys2Proof/Machine/Numbers.lean ====
section
/-! DEFINITION. Numbers at rest and the two roundings between rest and flight (R53 to R73). An exact value is a
rational times a power of two; a float of format `f` is its bit pattern as a natural number, sign in the top bit. -/

namespace Sys2Proof.Machine

/-- A floating-point format of Table 3-1: its width, its fraction bits, its bias, the largest finite magnitude code
(the bits without the sign), the canonical NaN, and whether it has infinities (R53, R54). -/
structure FloatFmt where
  width : Nat
  frac : Nat
  bias : Nat
  maxFin : Nat
  nanc : Nat
  hasInf : Bool
deriving DecidableEq, Repr

/-- FP32 of Table 3-1 (R53). -/
def fp32 : FloatFmt := ⟨32, 23, 127, 0x7F7FFFFF, 0x7FC00000, true⟩
/-- FP16 of Table 3-1 (R53). -/
def fp16 : FloatFmt := ⟨16, 10, 15, 0x7BFF, 0x7E00, true⟩
/-- BF16 of Table 3-1 (R53). -/
def bf16 : FloatFmt := ⟨16, 7, 127, 0x7F7F, 0x7FC0, true⟩
/-- F8E4 of Table 3-1: no infinity, and only S.1111.111 is NaN (R53, R54). -/
def f8e4 : FloatFmt := ⟨8, 3, 7, 0x7E, 0x7F, false⟩
/-- F8E5 of Table 3-1 (R53). -/
def f8e5 : FloatFmt := ⟨8, 2, 15, 0x7B, 0x7E, true⟩

/-- An integer format: its width and whether it is signed (R56). -/
structure IntFmt where
  width : Nat
  signed : Bool
deriving DecidableEq, Repr

/-- The smallest value of an integer format, MINV of R69. -/
def IntFmt.minV (f : IntFmt) : Int := if f.signed then -(2 ^ (f.width - 1) : Nat) else 0
/-- The largest value of an integer format, MAXV of R69. -/
def IntFmt.maxV (f : IntFmt) : Int := if f.signed then (2 ^ (f.width - 1) : Nat) - 1 else (2 ^ f.width : Nat) - 1

/-- Clamps an integer into a format and says whether it clamped (R69, R72). -/
def IntFmt.clamp (f : IntFmt) (x : Int) : Int × Bool :=
  if x < f.minV then (f.minV, true) else if f.maxV < x then (f.maxV, true) else (x, false)

/-- What a 4-bit format code of Table 3-2 names (R57). -/
inductive NumFmt where
  | float (f : FloatFmt)
  | int (f : IntFmt)
  | tern
  | q4
  | ap
deriving DecidableEq, Repr

/-- Table 3-2 (R57). -/
def numFmt (code : Nat) : NumFmt :=
  match code with
  | 0 => .float fp32 | 1 => .float fp16 | 2 => .float bf16 | 3 => .float f8e4 | 4 => .float f8e5
  | 5 => .int ⟨8, true⟩ | 6 => .int ⟨8, false⟩ | 7 => .int ⟨16, true⟩ | 8 => .int ⟨16, false⟩
  | 9 => .int ⟨32, true⟩ | 10 => .int ⟨32, false⟩ | 11 => .int ⟨4, true⟩ | 12 => .int ⟨2, true⟩
  | 13 => .tern | 14 => .q4 | _ => .ap

/-- The rounding modes of Table 3-3; round-to-odd is no mode (R57). -/
inductive RMode where
  | rne | rtz | rdn | rup | rna
deriving DecidableEq, Repr

/-- Table 3-3; the codes 5 to 7 are reserved and never applied (R57). -/
def rmode (code : Nat) : Option RMode :=
  match code with
  | 0 => some .rne | 1 => some .rtz | 2 => some .rdn | 3 => some .rup | 4 => some .rna | _ => none

/-- A finite exact value: sign, then num / den times 2 to the exp. A zero keeps its sign. -/
structure Ex where
  neg : Bool
  num : Nat
  den : Nat
  exp : Int
deriving DecidableEq, Repr

/-- What a number in flight can be before it is rounded. -/
inductive FVal where
  | nan
  | inf (neg : Bool)
  | fin (x : Ex)
deriving DecidableEq, Repr

/-- A signed zero. -/
def FVal.zero (neg : Bool) : FVal := .fin ⟨neg, 0, 1, 0⟩

/-- An integer as an exact value. -/
def Ex.ofInt (x : Int) : Ex := ⟨decide (x < 0), x.natAbs, 1, 0⟩

/-- Two to a possibly negative power, as the pair (numerator, denominator). -/
def pow2 (e : Int) : Nat × Nat := (2 ^ e.toNat, 2 ^ (-e).toNat)

/-- The exact sum of two finite values: of opposite signs with a zero result, +0; two zeros of one sign keep it
(R68). -/
def Ex.add (x y : Ex) : Ex :=
  let e := min x.exp y.exp
  let nx := x.num * y.den * 2 ^ (x.exp - e).toNat
  let ny := y.num * x.den * 2 ^ (y.exp - e).toNat
  let d := x.den * y.den
  if x.neg = y.neg then ⟨x.neg, nx + ny, d, e⟩
  else if ny < nx then ⟨x.neg, nx - ny, d, e⟩
  else if nx < ny then ⟨y.neg, ny - nx, d, e⟩
  else ⟨false, 0, 1, 0⟩

/-- The exact product of two finite values. -/
def Ex.mul (x y : Ex) : Ex := ⟨x.neg != y.neg, x.num * y.num, x.den * y.den, x.exp + y.exp⟩

/-- Negation, of zeros too. -/
def Ex.negate (x : Ex) : Ex := { x with neg := !x.neg }

/-- Negation; a NaN has no sign (R55). -/
def FVal.negate : FVal → FVal
  | .nan => .nan
  | .inf n => .inf (!n)
  | .fin x => .fin x.negate

/-- The exact sum; infinities of opposite sign give NaN (R55, R68). -/
def FVal.add : FVal → FVal → FVal
  | .nan, _ => .nan
  | .inf _, .nan => .nan
  | .fin _, .nan => .nan
  | .inf a, .inf b => if a = b then .inf a else .nan
  | .inf a, .fin _ => .inf a
  | .fin _, .inf b => .inf b
  | .fin x, .fin y => .fin (x.add y)

/-- The exact product; infinity times zero gives NaN (R55). -/
def FVal.mul : FVal → FVal → FVal
  | .nan, _ => .nan
  | .inf _, .nan => .nan
  | .fin _, .nan => .nan
  | .inf a, .inf b => .inf (a != b)
  | .inf a, .fin y => if y.num = 0 then .nan else .inf (a != y.neg)
  | .fin x, .inf b => if x.num = 0 then .nan else .inf (x.neg != b)
  | .fin x, .fin y => .fin (x.mul y)

/-- The order of two finite exact values; the two zeros are equal (R55). -/
def Ex.lt (x y : Ex) : Bool :=
  let e := min x.exp y.exp
  let nx : Int := (x.num * y.den * 2 ^ (x.exp - e).toNat : Nat)
  let ny : Int := (y.num * x.den * 2 ^ (y.exp - e).toNat : Nat)
  decide ((if x.neg then -nx else nx) < (if y.neg then -ny else ny))

/-- The order of two values that are no NaN. -/
def FVal.lt : FVal → FVal → Bool
  | .nan, _ => false
  | .inf _, .nan => false
  | .fin _, .nan => false
  | .inf a, .inf b => a && !b
  | .inf a, .fin _ => a
  | .fin _, .inf b => !b
  | .fin x, .fin y => x.lt y

/-- Equality of values: no NaN equals anything, and the two zeros are equal (R55). -/
def FVal.eqv (x y : FVal) : Bool :=
  match x, y with
  | .nan, _ => false
  | _, .nan => false
  | a, b => !(FVal.lt a b) && !(FVal.lt b a)

/-- The value of the exponent of the last bit of a subnormal of `f`. -/
def FloatFmt.emin (f : FloatFmt) : Int := 1 - (f.bias : Int) - (f.frac : Int)

/-- The magnitude code of infinity; where the format has none, one past the NaN code. -/
def FloatFmt.infCode (f : FloatFmt) : Nat := if f.hasInf then f.maxFin + 1 else f.nanc + 1

/-- The sign bit's weight. -/
def FloatFmt.signBit (f : FloatFmt) : Nat := 2 ^ (f.width - 1)

/-- The finite value of a magnitude code (R54). -/
def FloatFmt.magOf (f : FloatFmt) (code : Nat) : Nat × Int :=
  let e := code / 2 ^ f.frac
  let m := code % 2 ^ f.frac
  if e = 0 then (m, f.emin) else (2 ^ f.frac + m, f.emin + (e : Int) - 1)

/-- Decodes a bit pattern (R54, R55). -/
def FloatFmt.decode (f : FloatFmt) (bits : Nat) : FVal :=
  let neg := decide (f.signBit ≤ bits % 2 ^ f.width)
  let code := bits % f.signBit
  if code ≤ f.maxFin then
    let (m, e) := f.magOf code
    .fin ⟨neg, m, 1, e⟩
  else if f.hasInf ∧ code = f.infCode then .inf neg
  else .nan

/-- How the exact value lies between the code below and the next code. -/
inductive Tail where
  | exact | low | half | high
deriving DecidableEq, Repr

/-- TRUNC on the grid of `f` with an unbounded exponent, as the magnitude code, and how far the exact value lies
above it (R68, R69). Codes of one format are consecutive values, so the next value's code is one more. -/
def FloatFmt.trunc (f : FloatFmt) (x : Ex) : Nat × Tail :=
  let a := x.exp - f.emin
  let n0 := x.num * 2 ^ a.toNat
  let d0 := x.den * 2 ^ (-a).toNat
  let k := (n0 / d0).log2 - f.frac
  let d := d0 * 2 ^ k
  let m := n0 / d
  let r := n0 % d
  let tail := if r = 0 then Tail.exact else if 2 * r < d then .low else if 2 * r = d then .half else .high
  (k * 2 ^ f.frac + m, tail)

/-- The pattern of a magnitude code with a sign. -/
def FloatFmt.withSign (f : FloatFmt) (neg : Bool) (code : Nat) : Nat := if neg then f.signBit + code else code

/-- RO of R68: round-to-odd into `f`, with the sticky bit. -/
def roundOdd (f : FloatFmt) (x : FVal) : Nat × Bool :=
  match x with
  | .nan => (f.nanc, false)
  | .inf n => if f.hasInf then (f.withSign n f.infCode, false) else (f.withSign n f.maxFin, true)
  | .fin e =>
    let (c, t) := f.trunc e
    if f.maxFin < c then (f.withSign e.neg f.maxFin, true)
    else match t with
      | .exact => (f.withSign e.neg c, false)
      | _ =>
        if c = f.maxFin then (f.withSign e.neg f.maxFin, true)
        else (f.withSign e.neg (if c % 2 = 0 then c + 1 else c), true)

/-- RO32 of R5. -/
def ro32 (x : FVal) : Nat × Bool := roundOdd fp32 x

/-- Whether a mode moves a truncated magnitude one step away from zero (Table 3-3, R57). -/
def roundsUp (mode : RMode) (neg : Bool) (c : Nat) (t : Tail) : Bool :=
  match t with
  | .exact => false
  | t =>
    match mode with
    | .rne => decide (t = .high) || (decide (t = .half) && decide (c % 2 = 1))
    | .rtz => false
    | .rdn => neg
    | .rup => !neg
    | .rna => decide (t ≠ .low)

/-- OVF of Table 3-8 (R69). -/
def overflowCode (f : FloatFmt) (mode : RMode) (neg : Bool) : Nat :=
  if !f.hasInf then f.maxFin
  else match mode with
    | .rne => f.infCode
    | .rna => f.infCode
    | .rtz => f.maxFin
    | .rdn => if neg then f.infCode else f.maxFin
    | .rup => if neg then f.maxFin else f.infCode

/-- FINROUND of R69 into a floating format. -/
def finFloat (f : FloatFmt) (mode : RMode) (x : FVal) : Nat :=
  match x with
  | .nan => f.nanc
  | .inf n => if f.hasInf then f.withSign n f.infCode else f.withSign n f.maxFin
  | .fin e =>
    let (c, t) := f.trunc e
    let c := if roundsUp mode e.neg c t then c + 1 else c
    if f.maxFin < c then f.withSign e.neg (overflowCode f mode e.neg) else f.withSign e.neg c

/-- RINT of R69: the integer a mode gives an exact finite value. -/
def rint (mode : RMode) (x : Ex) : Int :=
  let n := x.num * 2 ^ x.exp.toNat
  let d := x.den * 2 ^ (-x.exp).toNat
  let m := n / d
  let r := n % d
  let t := if r = 0 then Tail.exact else if 2 * r < d then .low else if 2 * r = d then .half else .high
  let m := if roundsUp mode x.neg m t then m + 1 else m
  if x.neg then -(m : Int) else (m : Int)

/-- Whether a finite exact value is an integer. -/
def Ex.isInt (x : Ex) : Bool :=
  decide ((x.num * 2 ^ x.exp.toNat) % (x.den * 2 ^ (-x.exp).toNat) = 0)

/-- FINROUND of R69 into an integer format: the integer, and whether it clamped. -/
def finInt (f : IntFmt) (mode : RMode) (x : FVal) : Int × Bool :=
  match x with
  | .nan => (0, false)
  | .inf n => (if n then f.minV else f.maxV, true)
  | .fin e => f.clamp (rint mode e)

/-- The 32 low bits of an integer, as a register holds an integer element (R67). -/
def intBits (w : Nat) (x : Int) : Nat := (x % (2 ^ w : Nat)).toNat

/-- The value of the `w` low bits of `n` as two's complement (`signed`) or unsigned (R56). -/
def intVal (f : IntFmt) (n : Nat) : Int :=
  let n := n % 2 ^ f.width
  if f.signed ∧ 2 ^ (f.width - 1) ≤ n then (n : Int) - (2 ^ f.width : Nat) else (n : Int)

/-- The Q4 level table, Table 3-4 (R60). -/
def q4Level (code : Nat) : Int :=
  [(-127 : Int), -89, -67, -50, -36, -24, -12, 0, 10, 21, 32, 45, 59, 76, 98, 127].getD (code % 16) 0

/-- The exact value of a Q4 element: level times s64 times S256 over 127 (R61); a NaN S256 gives NaN, and an infinite
one an infinity or, where the level times s64 is zero, NaN. -/
def q4Value (level : Int) (s64 : Nat) (s256 : FVal) : FVal :=
  let w := Ex.ofInt (level * (s64 : Int))
  match s256 with
  | .nan => .nan
  | .inf n => if w.num = 0 then .nan else .inf (n != w.neg)
  | .fin x => .fin { (w.mul x) with den := 127 * x.den }

/-- Digit `i` of a TERN byte as −1, 0 or +1; a reserved byte gives zeros (R58, R59). -/
def ternDigit (byte i : Nat) : Int :=
  if 243 ≤ byte then 0
  else match (byte / 3 ^ i) % 3 with
    | 1 => 1
    | 2 => -1
    | _ => 0

/-- The floor of the base-2 logarithm of a non-zero finite magnitude (R64). -/
def Ex.ilog2 (x : Ex) : Int :=
  let n := x.num * 2 ^ x.exp.toNat
  let d := x.den * 2 ^ (-x.exp).toNat
  if d ≤ n then ((n / d).log2 : Int)
  else
    (-((((d - 1) / n).log2 + 1 : Nat) : Int))

end Sys2Proof.Machine
end

