-- ==== Sys2Proof/Config.lean ====
section
/-! DEFINITION. What an implementation fixes, and the free values: opaque constants with no body, so that nothing proved
of the model rests on a value the manual leaves open. -/

namespace Sys2Proof.Config

/-- The value a special-function unit returns for operation `op` (its F-class opcode) on the FP32 bits `x`, where the
manual bounds the result without fixing its bits (R252, R253). -/
opaque sfu (op : Nat) (x : BitVec 32) : BitVec 33

/-- A byte of device memory that reads under a memory key it was not written under (R437, R439): the key's generation
and the byte's place. -/
opaque rekeyedByte (gen key : Nat) : BitVec 8

/-- A byte of device memory read under a PKID that does not decrypt what is stored (R439): the key's generation, the place
with the PKID, and the granule's stored bytes as a number. -/
opaque wrongKeyByte (gen key granule : Nat) : BitVec 8

/-- Whether a signature verifies under the device's roots of trust (R441, R442, R447): the signed bytes and the
signature. -/
opaque signatureOk (msg sig : Nat) : Bool

/-- Bytes an SPDM responder answers with, of which the manual gives only the meaning (R441): the kind of answer, the
function, and a fresh counter. -/
opaque spdmBytes (kind vf n : Nat) : List (BitVec 8)

/-- A word the manual leaves open, indexed by a fresh counter. -/
opaque freeWord (n : Nat) : BitVec 64

/-- The highest reading of a die's temperature sensors at a tick, in °C (R141). -/
opaque temperature (die tick : Nat) : Nat

/-- The power of a die over the tick before a tick boundary, in W (R411). -/
opaque power (die tick : Nat) : Nat

/-- The flits of a fabric frame that carries no plain data (R445): what it says. -/
opaque flits (m : FabricMsg) : List (BitVec 8)

/-- A frame as MACsec seals it (R443): the key and the plain frame. -/
opaque sealed (key : Nat) (frame : List (BitVec 8)) : List (BitVec 8)

/-- What the measured parts of the module hold (R441): block 1 to 4 of Table 24-6, and the fuses of block 5. -/
opaque firmware (block : Nat) : Nat

/-- SHA-384 (R441). -/
opaque sha384 (x : Nat) : BitVec 384

end Sys2Proof.Config
end

