-- ==== Sys2Proof/Machine/Maps.lean ====
section
/-! DEFINITION. Sparse tables: lists of (key, value) pairs with keys strictly rising. A table whose unlisted keys read
as a value `d` is canonical when no entry holds `d`. -/

namespace Sys2Proof.Machine

/-- The value of a key; an unlisted key reads as `d`. -/
def mapGet {α : Type} (d : α) : Table α → Nat → α
  | [], _ => d
  | (a, x) :: t, k => if a = k then x else if a < k then mapGet d t k else d

/-- The entry of a key, if it is listed. -/
def mapFind {α : Type} : Table α → Nat → Option α
  | [], _ => none
  | (a, x) :: t, k => if a = k then some x else if a < k then mapFind t k else none

/-- Lists a key with a value, in place of what it held. -/
def mapPut {α : Type} : Table α → Nat → α → Table α
  | [], k, v => [(k, v)]
  | (a, x) :: t, k, v =>
    if k < a then (k, v) :: (a, x) :: t
    else if k = a then (k, v) :: t
    else (a, x) :: mapPut t k v

/-- Takes a key out. -/
def mapDel {α : Type} : Table α → Nat → Table α
  | [], _ => []
  | (a, x) :: t, k => if a = k then t else if a < k then (a, x) :: mapDel t k else (a, x) :: t

/-- Writes a value: the default removes the entry, so that equal contents are equal tables. -/
def mapSet {α : Type} [DecidableEq α] (d : α) (t : Table α) (k : Nat) (v : α) : Table α :=
  if v = d then mapDel t k else mapPut t k v

/-- Keys strictly rise, and all lie above `lo`. -/
def mapAbove {α : Type} (lo : Nat) : Table α → Bool
  | [] => true
  | (a, _) :: t => decide (lo ≤ a) && mapAbove (a + 1) t

/-- Keys strictly rise. -/
def mapSorted {α : Type} (t : Table α) : Bool := mapAbove 0 t

/-- The canonical form: keys strictly rise, and no entry holds the default. -/
def mapWf {α : Type} [DecidableEq α] (d : α) (t : Table α) : Bool :=
  mapSorted t && t.all (fun e => decide (e.2 ≠ d))

/-- The entries of a table whose keys meet a test. -/
def mapFilter {α : Type} (p : Nat → α → Bool) (t : Table α) : Table α := t.filter (fun e => p e.1 e.2)

/-- Applies a function to the value of a key, listed or not. -/
def mapMod {α : Type} (d : α) (t : Table α) (k : Nat) (f : α → α) : Table α := mapPut t k (f (mapGet d t k))

end Sys2Proof.Machine
end

