-- ==== Sys2Proof/Machine/State.lean ====
section
/-! DEFINITION. The state of the AGM-6480 as plain data (INVENTORY.md, State). Storage, register files and per-unit
records are sparse tables keyed by number; a key a table does not list is at its reset value. -/

namespace Sys2Proof.Machine

/-- A register element: 32 bits of value and the sticky bit S (R67). -/
structure Elem where
  val : W32
  s : Bool
deriving DecidableEq, Repr

/-- An element of zero with S clear (R177). -/
def Elem.zero : Elem := ⟨0, false⟩

/-- A predicate lane: the value bit and the doubt bit (R178). -/
structure PBit where
  value : Bool
  doubt : Bool
deriving DecidableEq, Repr

/-- A predicate lane of zero (R177). -/
def PBit.zero : PBit := ⟨false, false⟩

/-- What a stop records (R375, R377): the code, the DETAIL, the slot, and, for an address fault, the address and the
TFINFO word (R101). -/
structure Stop where
  code : Nat
  detail : Nat
  slot : Nat
  addr : Option (W64 × Nat)
deriving DecidableEq, Repr

/-- What a pending write carries to its landing (R183, Table 9-3): a value, a reference to a copy packet (R115), a reply still
to come, the state word of a future still to come, the value of a future by its continuation record (R338), or the fault it
lands as; `vec` says that the destination is a vector register, and `cls` gives its class, if it has one. -/
inductive Payload where
  | scalar (x : W64)
  | lanes (l : Table Elem)
  | pred (l : Table PBit)
  | fmt (x : W64)
  | cpyw (e ref : Nat)
  | await (vec : Bool)
  | state
  | fut (record : Nat)
  | fault (st : Stop) (cls : Option Nat)
deriving DecidableEq, Repr

/-- A pending write (R180): its landing cycle in the context's CYCLES, its issue order, the slot, the register number,
the address of the producing bundle, what it carries, and whether that has arrived (R182). -/
structure Pend where
  land : Nat
  seq : Nat
  slot : Nat
  reg : Nat
  pc : Nat
  payload : Payload
  arrived : Bool
deriving DecidableEq, Repr

/-- An entry of the loop stack (R288, Table 15-2): START is an address. -/
structure LoopEntry where
  last : Nat
  start : Nat
  count : Nat
  index : Nat
deriving DecidableEq, Repr

/-- A stream attached to a queue register (R83): the descriptor's fields, the next slot to load or store, whether it is
suspended at a translation fault, the time of its last try (R88), and the numbers of the accesses that its fork follows
(R349). -/
structure Stream where
  va : Nat
  stride : Int
  rowLen : Nat
  nRows : Nat
  outbound : Bool
  cen : Bool
  cnt : Nat
  die : Nat
  core : Nat
  next : Nat
  suspended : Bool
  lastTry : Nat
  error : Nat
  behind : List Nat
deriving DecidableEq, Repr

/-- A queue register's binding and ring (R169 to R176): the QCFG operand, HEAD, COUNT, whether the ring is closed, its
CODE, its stream, and the slots its last stream has moved. -/
structure Queue where
  cfg : W64
  head : Nat
  count : Nat
  closed : Bool
  code : Nat
  stream : Option Stream
  slots : Nat
deriving DecidableEq, Repr

/-- A queue register that is off (R169). -/
def Queue.reset : Queue := ⟨0, 0, 0, false, 0, none, 0⟩

/-- Where a context slot stands (R335, R375): free; resident and ready; stopped with its save still to do; taken by
a restore; resident and waiting for a time, a counter or a barrier; ended by DONE with replies outstanding. -/
inductive CtxPhase where
  | free
  | ready
  | stopping
  | restoring
  | waitTime (t : Nat)
  | waitCounter (die n : Nat)
  | waitBarrier (key gen : Nat)
  | waitRefetch
  | done
deriving DecidableEq, Repr

/-- What an operation of class After asks of a context that a lower slot of its bundle has stopped already (R375, R379): a stop
with its code and DETAIL, a wait, or the end of the task. -/
inductive AfterKind where
  | stop (code detail : Nat)
  | wait (ph : CtxPhase)
  | done
deriving DecidableEq, Repr

/-- An operation of class After still to come: its slot, its bundle, and what it asks. -/
structure AfterOp where
  slot : Nat
  pc : Nat
  kind : AfterKind
deriving DecidableEq, Repr

/-- A recorded asynchronous trap (Table 20-1): its code and DETAIL (R381). -/
structure AsyncTrap where
  code : Nat
  detail : Nat
deriving DecidableEq, Repr

/-- The snapshot of a phase (R396): the sequencer record but CYCLES, g1 to g7 and FMT. -/
structure Snap where
  pc : Nat
  cycles : Nat
  wdc : Nat
  clkreq : Nat
  loops : List LoopEntry
  g : List W64
  fmt : W64
deriving DecidableEq, Repr

/-- A context slot of a core (R14, R288): its registers, sequencer record, landing queue, queue records, controls by
number, what the Cupola holds of its task, the depth of the loop stack at the bundle it issued last, if it has issued one
since it was placed (R422, R425), the operations of class After still to come, and the numbers of its accesses that later
bundles with an access wait for (R347, R348), of its SO accesses (R342), and of those that every later bundle waits for after
a TLBINV or an ICINV, with that one's slot (R104, R424). -/
structure Ctx where
  g : Table W64
  v : Table Elem
  k : Table PBit
  fmt : W64
  pc : Nat
  cycles : Nat
  wdc : Nat
  clkreq : Nat
  loops : List LoopEntry
  ctl : Table W64
  queues : Table Queue
  pend : List Pend
  arrivals : Table Nat
  phase : CtxPhase
  priv : Bool
  tid : Nat
  doneMask : Nat
  traps : List AsyncTrap
  preempt : Bool
  runSince : Nat
  resident : Nat
  snap : Option Snap
  resRecords : Bool
  spawnLand : Nat
  sliceOver : Bool
  futStop : Option (Nat × Nat)
  lastDepth : Option Nat
  later : List AfterOp
  order : List Nat
  so : List Nat
  stall : Option (Nat × List Nat)
deriving DecidableEq, Repr

/-- A context slot that holds no context (R177, R446). -/
def Ctx.reset : Ctx :=
  { g := [], v := [], k := [], fmt := 0, pc := 0, cycles := 0, wdc := 0, clkreq := 0x0606, loops := [], ctl := [],
    queues := [], pend := [], arrivals := [], phase := .free, priv := false, tid := 0, doneMask := 0, traps := [],
    preempt := false, runSince := 0, resident := 0, snap := none, resRecords := false, spawnLand := 0, sliceOver := false,
    futStop := none, lastDepth := none, later := [], order := [], so := [], stall := none }

/-- A tile register's data (R270): R, C, DIRTY, and the elements, element (r, c) at key r × C + c. -/
structure Tile where
  rows : Nat
  cols : Nat
  dirty : Bool
  elems : Table Elem
deriving DecidableEq, Repr

/-- An operation the plane engine has accepted (R275, R286): opcode 0x40 to 0x44, tile, FMT, operands, the imm16 of an
MSHAPE, the next block to accumulate, a number of its own, whether a deferred fault holds it (R284), and the accesses of
earlier bundles that it follows (R282). -/
structure MatOp where
  id : Nat
  opcode : Nat
  tile : Nat
  fmt : W64
  a : W64
  b : W64
  imm : Nat
  kb : Nat
  held : Bool
  behind : List Nat
deriving DecidableEq, Repr

/-- A tile element write of TWR on its way (R251). -/
structure TileWrite where
  id : Nat
  tile : Nat
  elems : Table Elem
deriving DecidableEq, Repr

/-- The plane engine of a core (R275, R285): the tile owner's task, the configured tiles, the accepted
operations in issue order, and the tile writes on their way. -/
structure Engine where
  owner : Option Nat
  tiles : Table Tile
  ops : List MatOp
  writes : List TileWrite
deriving DecidableEq, Repr

/-- A direct-path request of a core (R77): the tag it holds, the pending write it answers, and what it asks. -/
structure DirectReq where
  core : Nat
  tag : Nat
  ctx : Nat
  seq : Nat
  pa : List Nat
  store : Option (List Byte)
  size : Nat
  signed : Bool
  vec : Bool
  served : Option (List Byte)
  bad : Bool
deriving DecidableEq, Repr

/-- A cached translation (R98): the page's base address and size (log2), the physical base, and the leaf's low bits. -/
structure TlbEntry where
  va : Nat
  lg : Nat
  pa : Nat
  leaf : Nat
  dirty : Bool
deriving DecidableEq, Repr

/-- The bundle that a core issued last, as a sample names it (R427): its context, its address and CYCLES, when its issue cycle
began and ended and when the frozen cycles that followed did, the slot of the item those were for, and LAUNCHID of its task. -/
structure Issued where
  ctx : Nat
  pc : Nat
  cycles : Nat
  start : Nat
  cycle : Nat
  stop : Nat
  slot : Nat
  lid : Nat
deriving DecidableEq, Repr

/-- A core's own state: the running slot, the divisors in force (R307), the time of its next issue, its controls by
number, the engine, direct-path tags, its TLB (R99), its instruction cache (R424), refreshes (R144), retention (R416), the
ticks of the wait for the next issue that no clock times and the time until which the matrix clock times it (R285, R307,
R416), the frozen cycles of the bundle in hand, the bundles that droop still halves (R415), the slot that holds a bundle (8 in an empty
cycle), the bundle issued last (R427), and the task that ran last (R335). -/
structure Core where
  running : Option Nat
  cdiv : Nat
  vdiv : Nat
  mdiv : Nat
  next : Nat
  pausing : Bool
  pause : Nat
  matrixWait : Nat
  ctl : Table W64
  engine : Engine
  tags : Table Nat
  tlb : List TlbEntry
  icache : Table (List Byte)
  refreshing : Option Nat
  refreshQ : List (Nat × Option Nat)
  retention : Bool
  idleSince : Nat
  last : Nat
  frozen : Nat
  droop : Nat
  held : Option Nat
  issued : Issued
  lastTid : Option Nat
deriving DecidableEq, Repr

/-- A core at reset: no running context, divisors 6 (R307, R446). -/
def Core.reset : Core :=
  { running := none, cdiv := 6, vdiv := 6, mdiv := 6, next := 0, pausing := false, pause := 0, matrixWait := 0, ctl := [],
    engine := ⟨none, [], [], []⟩, tags := [], tlb := [], icache := [], refreshing := none, refreshQ := [],
    retention := false, idleSince := 0, last := 3, frozen := 0, droop := 0, held := none,
    issued := ⟨0, 0, 0, 0, 0, 0, 0, 0⟩, lastTid := none }

/-- A row group's state (R133, R137): V, age, class, whether a refresh is requested, and whether it is poisoned. -/
structure RowGroup where
  valid : Bool
  age : Nat
  cls : Nat
  rfq : Bool
  poison : Bool
deriving DecidableEq, Repr

/-- A row group at reset: invalid, class 0 (R137). -/
def RowGroup.reset : RowGroup := ⟨false, 0, 0, false, false⟩

/-- Where a copy packet stands (R105, R106, R124). -/
inductive PktPhase where
  | intake
  | running
  | waitSlot
  | suspended (slot : Nat)
deriving DecidableEq, Repr

/-- A copy packet held by an engine (R105 to R126): its eight words, the task that issued it or its queue and slot, its
priority and what is donated to it, its progress and status, the units written, the receivers landed, and the context
whose phase snapshot it refetches (R397), the launch of its issuer, whether a CPYW waits for its status (R113), and
the accesses of earlier bundles that it follows (R114); `turn` is one more than the unit whose accesses have taken their turns at
the atomic engines (R353), or 0. -/
structure Packet where
  ref : Nat
  words : List W64
  tid : Option Nat
  queue : Option (Nat × Nat)
  prio : Nat
  donated : Nat
  phase : PktPhase
  tfk : Nat
  tfa : Nat
  tfva : Nat
  bcv : Bool
  noreg : Bool
  rsv : Bool
  inex : Bool
  units : List Nat
  rcvs : List Nat
  code : Nat
  refetch : Option Nat
  launch : Option Nat
  lid : Nat
  wait : Bool
  behind : List Nat
  turn : Nat
deriving DecidableEq, Repr

/-- A copy engine: its packets in order of arrival, the statuses of completed CPYW packets by reference (R115), and what is
held at a full intake: a context, its task and the bundle (R105). -/
structure CopyEngine where
  packets : List Packet
  statuses : Table W64
  waiting : List (Nat × Nat × Nat)
deriving DecidableEq, Repr

/-- A Lexicon entry (R315): HANDLE, TILE, key (core, or 64), local address, BYTES, class. -/
structure LexEntry where
  handle : Nat
  tile : Nat
  key : Nat
  laddr : Nat
  bytes : Nat
  cls : Nat
deriving DecidableEq, Repr

/-- A read-tile entry of a task (R309). -/
structure ReadTile where
  handle : Nat
  tile : Nat
  count : Nat
  bytes : Nat
deriving DecidableEq, Repr

/-- Where a task stands in its Cupola (R322, R302, R329). -/
inductive TaskPhase where
  | gated (n : Nat)
  | waiting
  | placed (ctx : Nat)
  | saved (image : Nat)
  | held (image : Nat)
  | futureWait (image : Nat) (record : Nat)
  | debugHeld (image : Nat)
  | gone
deriving DecidableEq, Repr

/-- What started a task (R309, R313, R120, R383, R404): a descriptor, a tile step of an operator, a handler descriptor, a
copy's handler with the engine, queue and slot of a queue packet, a trap handler with the image it serves, an audit
replay. -/
inductive TaskKind where
  | code
  | step (op : Nat)
  | handler
  | copyHandler (e : Nat) (q : Option (Nat × Nat))
  | trapHandler (of : Nat) (image : Nat)
  | replay (record : Nat)
deriving DecidableEq, Repr

/-- A write of a signed step, in issue order (R403): its local address and bytes, with its slot. A queue push or an MSTORE
stands here from its issue on, under its number, and has no bytes until it is performed. -/
structure Fold where
  id : Nat
  slot : Nat
  addr : Nat
  bytes : List Byte
deriving DecidableEq, Repr

/-- A task as its Cupola holds it (R309 to R314, R322, R334): what its descriptor or its start gave, its priority and
what is donated to it, the cores an outstanding arrival ties it to (R358), where it stands, the context whose pre-emption it
has asked for (R336), the ticks it has waited while no core of the die had a free slot (R325), whether a migration brought it
here (R326), and what it keeps while it is saved. -/
structure Task where
  tid : Nat
  kind : TaskKind
  desc : Nat
  entry : Nat
  args : List W64
  prio : Nat
  donated : Nat
  pin : Option Nat
  anchor : Option (Nat × Nat)
  spr : Nat
  cen : Bool
  cnt : Nat
  home : Nat
  launch : Option Nat
  launchId : Nat
  didx : Nat
  reads : List ReadTile
  phase : TaskPhase
  readyAt : Nat
  readySeq : Nat
  patience : Option (Nat × Nat)
  patienceOver : Bool
  restarts : Nat
  lastCore : Nat
  lastSlot : Nat
  priv : Bool
  readInputs : Bool
  asked : Option Nat
  starved : Nat
  migrated : Bool
  sig : Option Nat
  folds : List Fold
  traps : List AsyncTrap
  spawnLand : Nat
  streams : Table Stream
  arrivals : Table Nat
  late : List Pend
  later : List AfterOp
  stopCode : Nat
deriving DecidableEq, Repr

/-- A template of an operator (Table 16-5): BASE, HANDLE, BYTES and the strides. -/
structure Template where
  base : Nat
  handle : Nat
  bytes : Nat
  strides : List Int
deriving DecidableEq, Repr

/-- An operator task and its walker (R312, R313): the block's fields, the counter that gates it, and the next index
vector. -/
structure Operator where
  id : Nat
  block : Nat
  step : Nat
  spr : Nat
  scen : Bool
  scnt : Nat
  counts : List Nat
  templates : List Template
  prio : Nat
  donated : Nat
  cen : Bool
  cnt : Nat
  gate : Option Nat
  launch : Option Nat
  launchId : Nat
  didx : Nat
  next : Option (List Nat)
deriving DecidableEq, Repr

/-- A launch in progress (R327, R386): its queue and slot, its counter, its tasks, and the first failure. -/
structure Launch where
  id : Nat
  queue : Nat
  slot : Nat
  launchId : Nat
  cen : Bool
  cnt : Nat
  desc : Nat
  ndesc : Nat
  enqueued : Nat
  failed : Option W64
deriving DecidableEq, Repr

/-- A queue the device serves (R129 to R132): the slot it has reached, the slots done past RDIDX, and its next poll. -/
structure QueueState where
  taken : Nat
  done : List Nat
  polled : Nat
deriving DecidableEq, Repr

/-- Who asks an atomic engine for an operation (R352, R432, R445): a pending write of a context, a function of the host, a
module, by partition, port, number and traffic class, or an access that takes its turn at the line. -/
inductive Asker where
  | write (ctx seq : Nat)
  | function (n : Nat)
  | frame (part port dst cls : Nat)
  | access
deriving DecidableEq, Repr

/-- An atomic-engine request (R352, R353): its number, who asks, the operation, its size, the place of its first byte, its
operands, its source number, and the copy-clock cycle of its arrival. The operations are those of Table 18-4 in its order, 0 to
10; FUT.RD, FUT.FILL and FUT.RESET, 11 to 13, whose `cmp` is the future's VA; and 14, the turn of another access. -/
structure AtomicReq where
  id : Nat
  asker : Asker
  op : Nat
  size : Nat
  key : Nat
  x : W64
  cmp : W64
  src : Nat
  cycle : Nat
deriving DecidableEq, Repr

/-- A continuation record of a future (R337 to R339, Table 17-5): the next record of the list, as die × 2^14 + index, the VA
of the saved image, LAUNCHID, the priority, the slot of the FUT.RD, its destination register and REM; with the task that
waits and the pending write that takes the value. VA and REM are 0 until the image is saved. -/
structure ContRec where
  tid : Nat
  seq : Nat
  next : Option Nat
  image : Nat
  launchId : Nat
  prio : Nat
  slot : Nat
  reg : Nat
  rem : Nat
deriving DecidableEq, Repr

/-- A vertex of a collective (R362, R372, R373): a logical die at PKG scope, a module at POD scope; whether it has
acknowledged the epoch, and whether it is treated as lost. -/
structure CollMember where
  vertex : Nat
  acked : Bool
  lost : Bool
deriving DecidableEq, Repr

/-- An edge of a tree (R363): the link, the child and its parent. -/
structure TreeEdge where
  link : Nat
  child : Nat
  parent : Nat
deriving DecidableEq, Repr

/-- A collective operation in progress at its root (R365 to R374): its queue and slot, its packet, the logical die of its
root and the root vertex, its vertices, the trees in use, the chunks begun and not DONE and the partials their vertices have
formed (key chunk × 1024 + vertex), whether its root has changed since it began, and how it stands; at POD scope also the number
that a root in another module gives it, the bytes of each chunk's output that have come from there, the modules that have their
output of a chunk, or, in a member module, the chunks of its epoch that have begun (chunk × 1024 + module), and the epoch (R372). -/
structure Collective where
  id : Nat
  queue : Nat
  slot : Nat
  words : List W64
  rootDie : Nat
  root : Nat
  members : List CollMember
  trees : List (List TreeEdge)
  chunks : List Nat
  partials : Table (List Elem)
  rootNew : Bool
  recomp : Nat
  inex : Bool
  ending : Option Nat
  stopped : Bool
  remote : Option Nat
  incoming : Table (List Byte)
  outputs : List Nat
  epoch : Nat
deriving DecidableEq, Repr

/-- A capture window (R428, R429): the launch queue that armed it, TSTAMP at CAPSTART, the counts, the launches it counts
and those of them still to write a status, PRE and DBG, and each CAPSTOP that waits (its queue, slot and record). -/
structure Capture where
  queue : Nat
  start : Nat
  cycles : Nat
  frozen : Nat
  filled : Nat
  nops : Nat
  launches : List Nat
  live : List Nat
  pre : Bool
  dbg : Bool
  stops : List (Nat × Nat × Nat)
deriving DecidableEq, Repr

/-- A barrier of one scope instance and number (R356): the arrival tally, the generation's COUNT, and how many generations
have completed. -/
structure Barrier where
  arrived : Nat
  gcount : Nat
  gen : Nat
deriving DecidableEq, Repr

/-- An event the device raises to its management core, for the driver or the logs (R120, R146, R392, R405, R421). -/
structure Report where
  kind : Nat
  die : Nat
  info : List Nat
deriving DecidableEq, Repr

/-- A slice-store row group cached by its home die (R150): its age, whether it is dirty, and whether its write-back is queued
at the port, as 1, or ahead of its class, as 2. -/
structure SliceLine where
  age : Nat
  dirty : Bool
  queued : Nat
deriving DecidableEq, Repr

/-- A copy clock as its atomic engine counts it (R353, R417): the number of the cycle that begins at a time, and how many cycles
from then on a droop trip stretches (R415). -/
structure CopyClock where
  count : Nat
  since : Nat
  slow : Nat
deriving DecidableEq, Repr

/-- A die's own state: controls by number, the engines, the Cupola, the counters, the atomic engine's clock, the port's direct-path
requests, cached fills (a context and its pending write), fills and write-backs that nothing waits for, and class granted last
(R76), the lifetime unit, and the power and boot state. -/
structure Die where
  ctl : Table W64
  lctl : Table W64
  copy : Table CopyEngine
  tlb : List TlbEntry
  counters : Table (BitVec 32)
  lexicon : List LexEntry
  tasks : List Task
  operators : List Operator
  launches : List Launch
  queues : Table QueueState
  images : List Nat
  tfree : Table Nat
  team : List (Nat × List Task)
  records : Table ContRec
  atomics : List AtomicReq
  entries : List Nat
  clock : CopyClock
  ports : List DirectReq
  fills : List (Nat × Nat)
  misses : Nat
  grant : Nat
  refreshing : List Nat
  refreshQ : List (Nat × Option Nat)
  bandTicks : Nat
  slice : Table SliceLine
  collectives : List Collective
  captures : Table Capture
  pcapTicks : Nat
  droopStretch : Nat
  droopFreeze : Nat
  ready : Bool
  failCode : Nat
  failStep : Nat
  keyGen : Nat
  part : Option Nat
  level : Nat
  fwSignal : Nat
  online : Bool
deriving DecidableEq, Repr

/-- A die at reset, outside every partition (R446). -/
def Die.reset : Die :=
  { ctl := [], lctl := [], copy := [], tlb := [], counters := [], lexicon := [], tasks := [], operators := [],
    launches := [], queues := [], images := [], tfree := [], team := [], records := [], atomics := [], entries := [], clock := ⟨0, 0, 0⟩,
    ports := [], fills := [], misses := 0, grant := 0, refreshing := [], refreshQ := [], bandTicks := 0, slice := [], collectives := [],
    captures := [], pcapTicks := 0, droopStretch := 0, droopFreeze := 0, ready := false, failCode := 0, failStep := 0, keyGen := 0,
    part := none, level := 0, fwSignal := 0, online := true }

/-- The TDISP states of a virtual function (R440). -/
inductive TdispState where
  | unlocked
  | locked
  | run
  | error
deriving DecidableEq, Repr

/-- What a mailbox or a completion last answered (R432, R438, R442, R447, R449). -/
inductive HostStatus where
  | idle
  | success
  | unsupportedRequest
  | accepted
  | refused
  | rejected
  | unsupported
  | locked
  | waiting
  | bootFailed (die : Nat) (code : BitVec 8)
deriving DecidableEq, Repr

/-- A virtual function (R430 to R442): its partition, its TDISP state, its SPDM session and the tenant key, the key of its
selective IDE stream once that is set up, and the last answer of its mailboxes. Keys 64 and 65 of the functions are the physical
functions of ports 0 and 1. -/
structure Vf where
  part : Option Nat
  tdisp : TdispState
  session : Option (BitVec 256)
  tenantKey : Option (BitVec 768)
  ide : Option (BitVec 256)
  answer : List Byte
  status : HostStatus
deriving DecidableEq, Repr

/-- A virtual function bound to nothing (R446). -/
def Vf.reset : Vf := ⟨none, .unlocked, none, none, none, [], .idle⟩

/-- A partition (R435 to R438): its dies in logical order, its PTAG, its epoch, the function bound to it, its controls by
number, the checkpoint pages still to stream (VA, size, and PKID × 2^41 + PA), how far the stream has come and device memory as
it stood at the cut (R407, R408), the records of audits (R403), the queues bound, in binding order (R432), the policy in force
(R442), the key of its frames (R443), and, by the VA of a mark, the root that wrote REDUCED there (R372). -/
structure Partition where
  dies : List Nat
  ptag : Nat
  epoch : Nat
  vf : Nat
  ctl : Table W64
  pages : List (Nat × Nat × Nat)
  stream : Nat
  atCut : List Host.Cell
  auditing : List (List Nat)
  bound : List QueueRef
  policy : Option (BitVec 896)
  macKey : Option (BitVec 256)
  marks : Table Nat
deriving DecidableEq, Repr

/-- What stands for a partition before any exists (R74): the whole module, logical and physical die numbers agreeing. -/
def Partition.reset : Partition := ⟨List.range 64, 0, 0, 0, [], [], 0, [], [], [], none, none, []⟩

/-- A scale-out port (R443, R445): the next sequence number to send and to accept, the frames not acknowledged with their
partitions, the attempts, the drops, the frames accepted, whether the link is lost, and what has left the port, each frame as MACsec
sealed it. -/
structure PodPort where
  sendSeq : Nat
  recvSeq : Nat
  unacked : List (Nat × Frame)
  attempts : Nat
  dropped : Nat
  received : List Frame
  down : Bool
  wire : List (List Byte)
deriving DecidableEq, Repr

/-- A scale-out port at reset (R445). -/
def PodPort.reset : PodPort := ⟨0, 0, [], 0, 0, [], false, []⟩

/-- The bundle being issued: the slot whose operation runs, the cycle, the address, the head values the slots have
popped or peeked (key slot × 8 + queue), whether a control-flow operation was taken, and whether a pre-emption point was
reached, the most units that an access of the bundle touches in one bank, and the queue records that the bundle's pops have
changed as they stood before (R21, R159, R171, R290, R298); while a replay reads local memory, the bytes it may read, as
addresses and lengths (R404); the number at which the bundle's own writes begin; and the heads that were uncorrectable data
(key slot × 8 + queue, R375). -/
structure Issue where
  ctx : Nat
  slot : Nat
  cycle : Nat
  pc : Nat
  heads : Table (Table Elem)
  taken : Bool
  point : Bool
  bank : Nat
  rings : Table Queue
  seen : Option (List (Nat × Nat))
  base : Nat
  spoilt : List Nat
deriving DecidableEq, Repr

/-- An event that is due, with its operands. -/
structure Due where
  ev : Instr
  arg : EvArg
deriving DecidableEq, Repr

/-- What an operation that has issued does once the accesses it follows have been performed (R332, R341, R342, R347, R352): a
cached load or store, a direct-path request that goes to its port, an operation that goes to its atomic engine, an addition to a
counter, an arrival at a barrier (its key, record and COUNT, and its number where the pod is told), a SPAWN (its descriptor and
gate), a line that leaves the instruction caches of some cores (R424), or an event of another unit. -/
inductive LateAct where
  | load (keys : List Nat) (size : Nat) (signed vec : Bool)
  | store (keys : List Nat) (bytes : List Byte)
  | direct (r : DirectReq)
  | atomic (r : AtomicReq)
  | count (die n : Nat) (v : BitVec 32)
  | arrive (key idx count : Nat) (pod : Option Nat)
  | spawn (desc gate : W64)
  | codeLine (line : Nat) (cores : List Nat)
  | event (x : Due)
deriving DecidableEq, Repr

/-- An operation that has issued and is not performed yet: its number, its context, or 16,384 for another unit's and 16,385 on for
the ways by which writes come from outside the device, the numbers of the accesses that it follows, and what it does. -/
structure LateOp where
  id : Nat
  ctx : Nat
  behind : List Nat
  act : LateAct
deriving DecidableEq, Repr

/-- The machine (INVENTORY.md, State). `ev` holds the operands of the event being performed. `agenda` is what is due: the events of
the device and of its environment, in order; `timers` are the events that fall at a time, the earliest first; `now` is the
reference-tick count (R15); `seq` numbers issued writes, tasks and packets; `free` indexes the free values the manual leaves open.
`trained` holds the link bits that training set (R359), and `features` says whether a function has been locked, `hostHeld` holds the
host's requests that wait for a checkpoint's stream, in posted order (R408, R432), `early` holds the frames, each with its
partition, that concern a collective operation not begun here yet (R368), `requests` holds the negotiations that wait for READY
(R449), and `lateOps` the operations that have issued and follow accesses that are not performed yet, in issue order (R347). `pkids`
is the PKID under which each 32-byte granule of device memory was written last, 0 where none is listed (R439). -/
structure State where
  now : Nat
  seq : Nat
  free : Nat
  agenda : List Due
  timers : List (Nat × Due)
  ev : EvArg
  mem : List Host.Cell
  pkids : Table Nat
  poison : Table Bool
  loc : List Host.Cell
  rgs : Table RowGroup
  ctxs : Table Ctx
  cores : Table Core
  dies : Table Die
  mctl : Table W64
  trained : Table W64
  parts : Table Partition
  assigns : Nat
  vfs : Table Vf
  hostMem : List Host.Cell
  pod : Table PodPort
  hostHeld : List Due
  early : List (Nat × Frame)
  barriers : Table Barrier
  features : Bool
  requests : List (BitVec 896)
  lateOps : List LateOp
  reports : List Report
  trace : List Nat
  iss : Issue
deriving DecidableEq, Repr

/-- Why the machine stops with a fault. -/
inductive Fault where
  /-- No meaning raises it: the manual gives every instruction and event an effect; safe, since nothing would follow. -/
  | unspecified (mnemonic : String)
deriving DecidableEq, Repr

/-- Why an instruction has no meaning. -/
inductive Refusal where
  /-- For the dispatch arm of an instruction without a meaning, of which none is left; safe, since nothing would follow. -/
  | notModelled (mnemonic : String)
deriving DecidableEq, Repr

/-- The latch of the issue stage with nothing in it. -/
def Issue.reset : Issue := ⟨0, 0, 0, 0, [], false, false, 0, [], none, 0, []⟩

/-- The machine right after power-on reset (R446): every control at its reset value, every row group invalid, every
counter zero, every die outside any partition. -/
def State.reset : State :=
  { now := 0, seq := 0, free := 0, agenda := [], timers := [], ev := .none, mem := [], pkids := [], poison := [], loc := [], rgs := [], ctxs := [], cores := [],
    dies := [], mctl := [], trained := [], parts := [], assigns := 0, vfs := [], hostMem := [], pod := [], hostHeld := [], early := [], barriers := [],
    features := false, requests := [], lateOps := [], reports := [], trace := [], iss := Issue.reset }

end Sys2Proof.Machine
end

