-- ==== Sys2Proof/Machine/Ctl.lean ====
section
/-! DEFINITION. The control registers (R2, R306): which numbers are assigned, whose register a number names, the fields
of each with access code and lock, and the reset values. -/

namespace Sys2Proof.Machine

/-- Whose register a control number names. -/
inductive CtlScope where
  | ctx | core | die | part | module
deriving DecidableEq, Repr

/-- The access codes of Table 0-1, an RWL with who opens its lock (R2, R461). -/
inductive Access where
  | rw
  | w1c
  | rwl (by_ : Writer)
deriving DecidableEq, Repr

/-- Bits hi down to lo under an access code; bits of no field are RO or reserved and ignore writes (R2, R3). -/
structure CtlField where
  hi : Nat
  lo : Nat
  acc : Access
deriving DecidableEq, Repr

/-- Whether a lock open to `lock` is open to `w`: a lock open only to PRIV.MTC in privileged state is closed to a management
core, and one open only to the management core is closed to every other writer (R103, R138, R161, R306, R401, R406,
R461). -/
def lockOpen (lock w : Writer) : Bool :=
  match lock, w with
  | .user, _ => true
  | .priv, .priv => true
  | .management, .management => true
  | _, _ => false

/-- A number in a closed range. -/
def inRange (n lo hi : Nat) : Bool := decide (lo ≤ n) && decide (n ≤ hi)

/-- Whose register each assigned control number names; none where no chapter assigns it (R306). -/
def ctlScope (n : Nat) : Option CtlScope :=
  if n = 0x040 then some .core                                 -- DPSTAT, R82
  else if inRange n 0x048 0x049 then some .ctx                 -- TFADDR, TFINFO, R101
  else if inRange n 0x050 0x053 then some .core                -- MCBUF, R121
  else if n = 0x058 then some .ctx                             -- EXPINFO, R146
  else if n = 0x059 then some .core                            -- RFQSTAT, R146
  else if inRange n 0x060 0x063 then some .core                -- LAYOUT, R160
  else if n = 0x068 then some .ctx                             -- CHKCTL, R189
  else if inRange n 0x070 0x078 then some .ctx                 -- TSHAPE, R271; MXSTAT, R284
  else if inRange n 0x080 0x083 then some .ctx                 -- CTXSTAT, STOPINFO, CAUSEPC, TRAPVEC, R376 to R383
  else if n = 0x088 then some .ctx                             -- PHCTL, R395
  else if n = 0x090 then some .ctx                             -- PWRGRANT, R412
  else if n = 0x0A0 then some .ctx                             -- DBGCTL, R421
  else if n = 0x100 then some .die                             -- TRROOT, R103
  else if inRange n 0x110 0x14F then some .die                 -- CEQDESC, R128
  else if inRange n 0x160 0x163 then some .die                 -- CERESUME, R125
  else if inRange n 0x170 0x181 then some .die                 -- LCLASS, TEMPTAB, TEMPSTAT, SSCARVE
  else if inRange n 0x190 0x191 then some .die                 -- CUPCTL, CUPSTAT, R323
  else if inRange n 0x1A0 0x1AF then some .die                 -- LQDESC, R327
  else if inRange n 0x1B0 0x1B4 then some .module              -- LINKLIVE, DIELIVE, LINKEPOCH, PODTAB, R359, R360
  else if inRange n 0x1C0 0x1CF then some .die                 -- BFQDESC, R364
  else if inRange n 0x1D0 0x1D1 then some .die                 -- CTXPOOL, SYSVEC, R383, R387
  else if inRange n 0x1D5 0x1D6 then some .part                -- PRCTL, PRSTAT, R401
  else if inRange n 0x1D8 0x1D9 then some .part                -- CKCTL, CKSTAT, R406
  else if inRange n 0x1E0 0x1FF then some .die                 -- CEFLT, R392
  else if inRange n 0x200 0x204 then some .die                 -- BUCKET, DROOPTH, PWRSTAT, RETCTL, CPYCLK
  else if inRange n 0x210 0x211 then some .die                 -- SAMPCTL, WRCNT, R426
  else if n = 0x212 then some .part                            -- DBGLOCK, R420
  else if n = 0x213 then some .die                             -- DBGREL, R423
  else if inRange n 0x220 0x227 then some .die                 -- HOSTWIN, R433
  else if n = 0x228 then some .module                          -- MODID, R444
  else if n = 0x229 then some .die                             -- PARTINFO, R435
  else if inRange n 0x230 0x233 then some .module              -- FEATCAP, FEATURES, R448
  else if inRange n 0x300 0x358 ∧ n % 16 < 9 then some .ctx    -- loop counters, R425
  else none

/-- The writable fields of a control register (the Access columns of the register maps). -/
def ctlFields (n : Nat) : List CtlField :=
  let p : Access := .rwl .priv
  let m : Access := .rwl .management
  if n = 0x040 then [⟨17, 17, .w1c⟩, ⟨16, 16, .w1c⟩]
  else if inRange n 0x050 0x053 then [⟨63, 63, .w1c⟩, ⟨62, 62, .rw⟩, ⟨61, 60, .rw⟩, ⟨45, 32, .rw⟩, ⟨12, 0, .rw⟩]
  else if n = 0x058 then [⟨63, 63, .w1c⟩]
  else if n = 0x059 then [⟨16, 16, .w1c⟩]
  else if inRange n 0x060 0x063 then [⟨63, 63, .rw⟩, ⟨45, 32, .rw⟩, ⟨12, 0, .rw⟩]
  else if n = 0x068 then [⟨1, 0, .rw⟩]
  else if n = 0x078 then [⟨63, 63, .w1c⟩]
  else if n = 0x080 then [⟨7, 0, .w1c⟩]
  else if n = 0x083 then [⟨63, 63, .rw⟩, ⟨55, 5, .rw⟩]
  else if n = 0x088 then [⟨63, 63, .rw⟩, ⟨31, 0, .rw⟩]
  else if n = 0x090 then [⟨6, 4, .rw⟩, ⟨2, 0, .rw⟩]
  else if n = 0x0A0 then [⟨1, 1, .rw⟩, ⟨0, 0, .rw⟩]
  else if n = 0x100 then [⟨40, 11, p⟩, ⟨4, 4, p⟩, ⟨3, 0, p⟩]
  else if inRange n 0x110 0x14F then [⟨63, 63, p⟩, ⟨62, 60, p⟩, ⟨55, 6, p⟩]
  else if inRange n 0x170 0x177 then [⟨13, 12, p⟩, ⟨9, 0, p⟩]
  else if inRange n 0x178 0x17E then [⟨25, 16, m⟩, ⟨7, 0, m⟩]
  else if n = 0x180 then [⟨16, 16, .w1c⟩]
  else if n = 0x181 then [⟨6, 0, p⟩]
  else if n = 0x190 then [⟨32, 32, p⟩, ⟨31, 16, p⟩, ⟨15, 0, p⟩]
  else if n = 0x191 then [⟨48, 48, .w1c⟩]
  else if inRange n 0x1A0 0x1AF then [⟨63, 63, p⟩, ⟨55, 6, p⟩]
  else if n = 0x1B4 then [⟨63, 63, p⟩, ⟨55, 6, p⟩]
  else if inRange n 0x1C0 0x1CF then [⟨63, 63, p⟩, ⟨62, 60, p⟩, ⟨55, 6, p⟩]
  else if n = 0x1D0 then [⟨63, 63, p⟩, ⟨55, 21, p⟩, ⟨15, 0, p⟩]
  else if n = 0x1D1 then [⟨63, 63, p⟩, ⟨55, 5, p⟩]
  else if n = 0x1D5 then [⟨63, 63, p⟩, ⟨62, 59, p⟩, ⟨55, 22, p⟩, ⟨15, 0, p⟩]
  else if n = 0x1D6 then [⟨63, 63, .w1c⟩]
  else if n = 0x1D8 then [⟨55, 12, p⟩, ⟨5, 0, p⟩]
  else if n = 0x200 then [⟨31, 22, m⟩, ⟨21, 12, m⟩, ⟨11, 0, m⟩]
  else if n = 0x201 then [⟨63, 63, m⟩, ⟨9, 0, m⟩]
  else if n = 0x202 then [⟨16, 16, .w1c⟩]
  else if n = 0x203 then [⟨63, 63, p⟩, ⟨62, 62, .w1c⟩, ⟨15, 0, p⟩]
  else if n = 0x204 then [⟨3, 0, p⟩]
  else if n = 0x210 then [⟨63, 63, p⟩, ⟨62, 62, p⟩, ⟨55, 12, p⟩, ⟨11, 6, p⟩, ⟨5, 0, p⟩]
  else if inRange n 0x220 0x227 ∧ n % 2 = 0 then
    [⟨63, 63, p⟩, ⟨62, 62, p⟩, ⟨61, 61, p⟩, ⟨60, 60, p⟩, ⟨55, 30, p⟩, ⟨5, 0, p⟩]
  else if inRange n 0x220 0x227 then [⟨63, 30, p⟩]
  else if n = 0x228 then [⟨8, 0, m⟩]
  else []

/-- The reset value of a control register as its register map gives it. -/
def ctlReset (n : Nat) : W64 :=
  if inRange n 0x178 0x17F then
    BitVec.ofNat 64 (([900, 700, 520, 380, 270, 190, 130, 0].getD (n - 0x178) 0) * 2 ^ 16 +
      [45, 55, 65, 75, 85, 95, 105, 0xFF].getD (n - 0x178) 0)
  else if n = 0x090 then 0x74#64
  else if n = 0x200 then BitVec.ofNat 64 (400 * 2 ^ 22 + 270 * 2 ^ 12 + 2000)
  else if n = 0x201 then BitVec.ofNat 64 (2 ^ 63 + 40)
  else if n = 0x202 then BitVec.ofNat 64 (4 * 2 ^ 56 + 4 * 2 ^ 48)
  else if n = 0x203 then BitVec.ofNat 64 (2 ^ 63 + 20000)
  else if n = 0x204 then 6#64
  else if n = 0x210 then BitVec.ofNat 64 (8 * 2 ^ 6 + 4)
  else if inRange n 0x220 0x227 ∧ n % 2 = 0 then 30#64
  else if n = 0x230 then 1#64
  else 0#64

/-- The bits hi down to lo of a word, as a number. -/
def bits (x : W64) (hi lo : Nat) : Nat := (x.toNat / 2 ^ lo) % 2 ^ (hi + 1 - lo)

/-- A word with bits hi down to lo replaced. -/
def setBits (x : W64) (hi lo : Nat) (v : Nat) : W64 :=
  let mask : W64 := BitVec.ofNat 64 ((2 ^ (hi + 1 - lo) - 1) * 2 ^ lo)
  (x &&& ~~~mask) ||| (BitVec.ofNat 64 (v % 2 ^ (hi + 1 - lo) * 2 ^ lo) &&& mask)

/-- One bit of a word. -/
def bit (x : W64) (i : Nat) : Bool := x.getLsbD i

/-- A write under the access codes of Table 0-1 (R2, R3): each field by its code, every other bit unchanged. -/
def ctlApply (fs : List CtlField) (w : Writer) (old v : W64) : W64 :=
  fs.foldl (fun x f =>
    match f.acc with
    | .rw => setBits x f.hi f.lo (bits v f.hi f.lo)
    | .w1c => setBits x f.hi f.lo (bits (x &&& ~~~v) f.hi f.lo)
    | .rwl lock => if lockOpen lock w then setBits x f.hi f.lo (bits v f.hi f.lo) else x) old

end Sys2Proof.Machine
end

