-- ==== Sys2Proof/Machine/Ops.lean ====
section
/-! DEFINITION. The named operations over the state: units, registers, pending writes, local and device memory,
translation, and taking a stop. -/

namespace Sys2Proof.Machine

/-- A meaning that always answers a next state. -/
abbrev Result := Host.Outcome State Fault Refusal

/-! Units. A context is (die × 64 + core) × 4 + slot, a core die × 64 + core. -/

/-- The core of a context. -/
def coreOf (c : Nat) : Nat := c / 4
/-- The die of a context. -/
def dieOf (c : Nat) : Nat := c / 256
/-- The die of a core. -/
def dieOfCore (k : Nat) : Nat := k / 64

/-- The record of a context slot. -/
def State.ctx (s : State) (c : Nat) : Ctx := mapGet Ctx.reset s.ctxs c
/-- Replaces the record of a context slot. -/
def State.setCtx (s : State) (c : Nat) (x : Ctx) : State := { s with ctxs := mapPut s.ctxs c x }
/-- Changes the record of a context slot. -/
def State.modCtx (s : State) (c : Nat) (f : Ctx → Ctx) : State := s.setCtx c (f (s.ctx c))
/-- The record of a core. -/
def State.core (s : State) (k : Nat) : Core := mapGet Core.reset s.cores k
/-- Replaces the record of a core. -/
def State.setCore (s : State) (k : Nat) (x : Core) : State := { s with cores := mapPut s.cores k x }
/-- Changes the record of a core. -/
def State.modCore (s : State) (k : Nat) (f : Core → Core) : State := s.setCore k (f (s.core k))
/-- The record of a die. -/
def State.die (s : State) (d : Nat) : Die := mapGet Die.reset s.dies d
/-- Replaces the record of a die. -/
def State.setDie (s : State) (d : Nat) (x : Die) : State := { s with dies := mapPut s.dies d x }
/-- Changes the record of a die. -/
def State.modDie (s : State) (d : Nat) (f : Die → Die) : State := s.setDie d (f (s.die d))
/-- The number of the partition a die belongs to; 64 stands for none (R435, R446). -/
def State.partOf (s : State) (d : Nat) : Nat := (s.die d).part.getD 64
/-- Every die of the module. -/
def allDies : List Nat := List.range 64
/-- The record of a partition. -/
def State.part (s : State) (p : Nat) : Partition := mapGet Partition.reset s.parts p
/-- Changes the record of a partition. -/
def State.modPart (s : State) (p : Nat) (f : Partition → Partition) : State :=
  { s with parts := mapPut s.parts p (f (s.part p)) }

/-- Makes an event due (INVENTORY.md, Agents). -/
def State.due (s : State) (i : Instr) (o : EvArg) : State := { s with agenda := s.agenda ++ [⟨i, o⟩] }

/-- Makes an event due unless it is due already. -/
def State.dueOnce (s : State) (i : Instr) (o : EvArg) : State := if (⟨i, o⟩ : Due) ∈ s.agenda then s else s.due i o

/-- Makes an event of one unit due. -/
def State.dueN (s : State) (i : Instr) (a : Nat) : State := s.due i (.n a 0 0)

/-- Puts a timed event among the others, after those of its time. -/
def timerInsert (at_ : Nat) (x : Due) : List (Nat × Due) → List (Nat × Due)
  | [] => [(at_, x)]
  | (t, y) :: rest => if at_ < t then (at_, x) :: (t, y) :: rest else (t, y) :: timerInsert at_ x rest

/-- Makes an event fall at a time in reference ticks. -/
def State.at_ (s : State) (t : Nat) (i : Instr) (o : EvArg) : State :=
  { s with timers := timerInsert t ⟨i, o⟩ s.timers }

/-- Makes an event fall some reference ticks from now. -/
def State.after (s : State) (dt : Nat) (i : Instr) (o : EvArg) : State := s.at_ (s.now + dt) i o

/-- Calls off what is due of an event of two units, whatever its third operand. -/
def State.callOff (s : State) (i : Instr) (a b : Nat) : State :=
  let stays (x : Due) : Bool := decide (x.ev ≠ i) || (match x.arg with
    | .n p q _ => !(decide (p = a) && decide (q = b))
    | _ => true)
  { s with agenda := s.agenda.filter stays, timers := s.timers.filter (fun t => stays t.2) }

/-- Of the six cycles, of period v, that a droop trip of a die stretches to twice that, how many are still to come (R415). -/
def State.stretchLeft (s : State) (d v : Nat) : Nat :=
  match (s.die d).droopStretch with
  | 0 => 0
  | t + 1 => 6 - (s.now - t + 2 * v - 1) / max (2 * v) 1

/-- The reference ticks that the next n cycles of a clock domain of a die take, whose divisor is v (R16, R415). -/
def State.ticksOf (s : State) (d v n : Nat) : Nat := v * (n + min n (s.stretchLeft d v))

/-- The cycles of a clock domain of a die, of divisor v, that r reference ticks hold, the last of them begun (R16, R415). -/
def State.cyclesLeft (s : State) (d v r : Nat) : Nat :=
  let left := s.stretchLeft d v
  if r ≤ 2 * v * left then (r + 2 * v - 1) / max (2 * v) 1 else left + (r - 2 * v * left + v - 1) / max v 1

/-- When the rest of an activity, which was to end at t under one divisor, ends under another (R144, R410). -/
def State.rescale (s : State) (d old new t : Nat) : Nat :=
  if t ≤ s.now then t else s.now + s.ticksOf d new (s.cyclesLeft d old (t - s.now))

/-- Changes the times at which events fall. -/
def State.retimeTimers (s : State) (f : Nat → Due → Nat) : State :=
  { s with timers := s.timers.foldl (fun l p => timerInsert (f p.1 p.2) p.2 l) [] }

/-- Makes an event fall some cycles of a clock domain of a die from now (R16, R415). -/
def State.afterCycles (s : State) (d v n : Nat) (i : Instr) (o : EvArg) : State := s.after (s.ticksOf d v n) i o

/-- A request that reaches a slot of a core in retention brings the core out of it (R416). -/
def State.rouse (s : State) (k : Nat) : State :=
  if (s.core k).retention then s.dueOnce .retentionExit (.n k 0 0) else s

/-- Records an asynchronous trap for the context of a slot (R381, R416). -/
def State.trapCtx (s : State) (c : Nat) (f : List AsyncTrap → List AsyncTrap) : State :=
  (s.modCtx c (fun x => { x with traps := f x.traps })).rouse (coreOf c)

/-- The next number of the issue order, and the state that has used it. -/
def State.fresh (s : State) : State := { s with seq := s.seq + 1 }

/-- The next free-value index (Config). -/
def State.spend (s : State) : State := { s with free := s.free + 1 }

/-- The module's 1 GHz timebase (R305): one count per nanosecond, six reference ticks (R15). -/
def State.tstamp (s : State) : Nat := (s.now / 6) % 2 ^ 64

/-- An event of the device raised to a management core and its logs. -/
def State.report (s : State) (kind die : Nat) (info : List Nat) : State :=
  { s with reports := s.reports ++ [⟨kind, die, info⟩] }

/-- Operations that follow accesses which are not performed yet are looked at again: such an access has been performed, or is
waited for no more. -/
def State.stirLate (s : State) : State := if s.lateOps.isEmpty then s else s.dueOnce .lateItemArrival (.n 0 0 1)

/-! Control registers as they stand (R306). -/

/-- A control register of a die. -/
def State.dieCtl (s : State) (d n : Nat) : W64 := mapGet (ctlReset n) (s.die d).ctl n
/-- Sets a control register of a die. -/
def State.setDieCtl (s : State) (d n : Nat) (v : W64) : State :=
  s.modDie d (fun x => { x with ctl := mapPut x.ctl n v })
/-- A control register of a core. -/
def State.coreCtl (s : State) (k n : Nat) : W64 := mapGet (ctlReset n) (s.core k).ctl n
/-- Sets a control register of a core. -/
def State.setCoreCtl (s : State) (k n : Nat) (v : W64) : State :=
  s.modCore k (fun x => { x with ctl := mapPut x.ctl n v })
/-- A control register of a context. -/
def State.ctxCtl (s : State) (c n : Nat) : W64 := mapGet (ctlReset n) (s.ctx c).ctl n
/-- Sets a control register of a context. -/
def State.setCtxCtl (s : State) (c n : Nat) (v : W64) : State :=
  s.modCtx c (fun x => { x with ctl := mapPut x.ctl n v })
/-- A control register of the module. -/
def State.modCtl (s : State) (n : Nat) : W64 := mapGet (ctlReset n) s.mctl n
/-- Sets a control register of the module. -/
def State.setModCtl (s : State) (n : Nat) (v : W64) : State := { s with mctl := mapPut s.mctl n v }
/-- A control register of a partition. -/
def State.partCtl (s : State) (p n : Nat) : W64 := mapGet (ctlReset n) (s.part p).ctl n
/-- Sets a control register of a partition. -/
def State.setPartCtl (s : State) (p n : Nat) (v : W64) : State :=
  s.modPart p (fun x => { x with ctl := mapPut x.ctl n v })

/-- Whether a write of n bytes at a VA of a die's partition waits for a checkpoint: for the page of its set that it meets to be
streamed (R408), or for a cut that has been asked for (R407). DESIGN CHOICE: the manual has each write wholly before or after the
cut; a write that would begin between the request and the cut waits for the cut, which waits for those that have begun. -/
def State.cutHolds (s : State) (d va n : Nat) : Bool :=
  bit (s.partCtl (s.partOf d) 0x1D8) 63 ||
  (s.part (s.partOf d)).pages.any (fun x => decide (x.1 < va + n) && decide (va < x.1 + 2 ^ x.2.1))

/-- The divisor floor of a die (R307, R410): PWRSTAT.FLOOR holds the divisor less 2. -/
def State.floorOf (s : State) (d : Nat) : Nat := bits (s.dieCtl d 0x202) 58 56 + 2

/-- The copy divisor in force on a die (R417). -/
def State.copyDiv (s : State) (d : Nat) : Nat := max (bits (s.dieCtl d 0x204) 3 0) (s.floorOf d)

/-- Sets sticky bits of CTXSTAT (R376). -/
def State.setStat (s : State) (c : Nat) (mask : Nat) : State :=
  if mask = 0 then s else s.setCtxCtl c 0x080 (s.ctxCtl c 0x080 ||| BitVec.ofNat 64 mask)

/-- The final rounding mode FMT holds (R218, R273); its reserved codes never stand in FMT. -/
def fmtRmode (fmt : W64) : Nat := bits fmt 20 18

/-! Scalar, vector and predicate registers (R177). -/

/-- A scalar register; g0 reads zero (Table 9-1). -/
def Ctx.rg (x : Ctx) (r : Nat) : W64 := if r = 0 then 0 else mapGet 0 x.g r
/-- Writes a scalar register at its landing; a write to g0 is discarded (Table 9-1). -/
def Ctx.wg (x : Ctx) (r : Nat) (v : W64) : Ctx := if r = 0 then x else { x with g := mapPut x.g r v }
/-- A lane of a vector register. -/
def Ctx.rv (x : Ctx) (r i : Nat) : Elem := mapGet Elem.zero x.v (r * 128 + i)
/-- Writes a lane of a vector register. -/
def Ctx.wv (x : Ctx) (r i : Nat) (e : Elem) : Ctx := { x with v := mapPut x.v (r * 128 + i) e }
/-- A lane of a predicate register. -/
def Ctx.rk (x : Ctx) (r i : Nat) : PBit := mapGet PBit.zero x.k (r * 128 + i)
/-- Writes a lane of a predicate register. -/
def Ctx.wk (x : Ctx) (r i : Nat) (b : PBit) : Ctx := { x with k := mapPut x.k (r * 128 + i) b }

/-- The lanes of a vector register. -/
def lanes : List Nat := List.range 128

/-- The queue record of queue register n (R169). -/
def Ctx.queue (x : Ctx) (n : Nat) : Queue := mapGet Queue.reset x.queues n
/-- Replaces a queue record. -/
def Ctx.setQueue (x : Ctx) (n : Nat) (q : Queue) : Ctx := { x with queues := mapPut x.queues n q }

/-! The issue latch: what a slot operation reads and writes while its bundle issues (R21). -/

/-- The context whose bundle issues. -/
def State.cx (s : State) : Ctx := s.ctx s.iss.ctx
/-- The core that issues. -/
def State.ck (s : State) : Nat := coreOf s.iss.ctx
/-- The die that issues. -/
def State.cd (s : State) : Nat := dieOf s.iss.ctx

/-- A scalar source of the issuing bundle (R191). -/
def State.g (s : State) (r : Reg) : W64 := s.cx.rg r.toNat

/-- A vector source of the issuing bundle: a register's lane, or the lane of the slot that a queue gave this
instruction, with S = 0 (R170, R171). -/
def State.v (s : State) (r : Reg) (i : Nat) : Elem :=
  if r.toNat < 56 then s.cx.rv r.toNat i
  else mapGet Elem.zero (mapGet [] s.iss.heads (s.iss.slot * 8 + (r.toNat - 56))) i

/-- A predicate source of the issuing bundle. -/
def State.k (s : State) (r : Reg) (i : Nat) : PBit := s.cx.rk r.toNat i

/-- Whether merge mask m selects lane i: m = 0 selects every lane, m = 1 to 7 the value bits of km (R31, R179). -/
def State.sel (s : State) (m : BitVec 3) (i : Nat) : Bool :=
  if m = 0 then true else (s.cx.rk m.toNat i).value

/-! Pending writes (R180, R183). -/

/-- The class of the register a pending write will change: 0 scalar, 1 vector, 2 predicate; FMT has none (R190). -/
def Payload.cls : Payload → Option Nat
  | .scalar _ => some 0
  | .lanes _ => some 1
  | .pred _ => some 2
  | .fmt _ => none
  | .cpyw _ _ => some 0
  | .await vec => some (if vec then 1 else 0)
  | .state => some 0
  | .fut _ => some 0
  | .fault _ cls => cls

/-- Whether a pending write will change a vector register. -/
def Payload.isVec (p : Payload) : Bool := decide (p.cls = some 1)

/-- Whether a pending write is a push of a queue register (R170). -/
def Pend.isPush (w : Pend) : Bool := decide (56 ≤ w.reg) && w.payload.isVec

/-- Adds a pending write of the issuing slot, landing `lat` issue cycles later. -/
def State.pendRaw (s : State) (reg lat : Nat) (p : Payload) (arrived : Bool) : State :=
  let w : Pend := ⟨s.iss.cycle + lat, s.seq, s.iss.slot, reg, s.iss.pc, p, arrived⟩
  (s.modCtx s.iss.ctx (fun x => { x with pend := x.pend ++ [w] })).fresh

/-- A scalar result (R180); a result for g0 is discarded. -/
def State.pendG (s : State) (d : Reg) (lat : Nat) (v : W64) : State :=
  if d = 0 then s else s.pendRaw d.toNat lat (.scalar v) true

/-- The lanes of a result that a test selects, as a table. -/
def laneTable (sel : Nat → Bool) (f : Nat → Elem) : Table Elem :=
  (lanes.filter sel).map (fun i => (i, f i))

/-- A vector result under a merge mask: the selected lanes, value and S together (R179). -/
def State.pendV (s : State) (d : Reg) (lat : Nat) (m : BitVec 3) (f : Nat → Elem) : State :=
  s.pendRaw d.toNat lat (.lanes (laneTable (s.sel m) f)) true

/-- A predicate result. -/
def State.pendK (s : State) (d : Reg) (lat : Nat) (f : Nat → PBit) : State :=
  s.pendRaw d.toNat lat (.pred (lanes.map (fun i => (i, f i)))) true

/-! Bytes and words. -/

/-- The little-endian value of some bytes. -/
def leNat : List Byte → Nat
  | [] => 0
  | b :: t => b.toNat + 256 * leNat t

/-- The `n` little-endian bytes of a number. -/
def leBytes : Nat → Nat → List Byte
  | 0, _ => []
  | n + 1, x => BitVec.ofNat 8 x :: leBytes n (x / 256)

/-- Sign-extends an n-bit number to 64 bits (SEXT of R5). -/
def sext64 (n x : Nat) : W64 :=
  let y := x % 2 ^ n
  BitVec.ofInt 64 (if 2 * y < 2 ^ n then (y : Int) else (y : Int) - (2 ^ n : Nat))

/-! Local memory: a byte at die × 2^32 + local address (R92). -/

/-- What a byte of local memory reads as where nothing has been written: its row group is invalid until a full write,
so no instruction sees it. -/
def unlistedLocal : Byte := 0

/-- A byte of local memory. -/
def State.lb (s : State) (d a : Nat) : Byte := mapGet unlistedLocal s.loc (d * 2 ^ 32 + a)
/-- Writes a byte of local memory, keeping the canonical form. -/
def State.setLb (s : State) (d a : Nat) (b : Byte) : State :=
  { s with loc := mapSet unlistedLocal s.loc (d * 2 ^ 32 + a) b }
/-- The `n` bytes of local memory from `a`. -/
def State.lbytes (s : State) (d a n : Nat) : List Byte := (List.range n).map (fun i => s.lb d (a + i))
/-- Writes bytes of local memory from `a` upward. -/
def State.setLbytes (s : State) (d : Nat) : Nat → List Byte → State
  | _, [] => s
  | a, b :: t => (s.setLb d a b).setLbytes d (a + 1) t

/-- The row group at a local row-group number (R133). -/
def State.rg (s : State) (d g : Nat) : RowGroup := mapGet RowGroup.reset s.rgs (d * 2 ^ 23 + g)
/-- Replaces a row group's state. -/
def State.setRg (s : State) (d g : Nat) (x : RowGroup) : State :=
  { s with rgs := mapSet RowGroup.reset s.rgs (d * 2 ^ 23 + g) x }

/-- Bytes of slice scratch carved on a die (R161). -/
def State.carved (s : State) (d : Nat) : Nat := bits (s.dieCtl d 0x181) 6 0 * 2 ^ 20

/-- R92 alone: every one of the `n` bytes at `a` lies in a scratchpad of the die or in the carved slice scratch. -/
def State.localMapped (s : State) (d a n : Nat) : Bool :=
  if a / 2 ^ 29 ≠ 0 then false
  else if a / 2 ^ 28 = 0 then decide (a + n ≤ 2 ^ 28 + s.carved d)
  else decide (a - 2 ^ 28 + n ≤ s.carved d)

/-- R92 and step 2 of R162: the `n` bytes at `a` lie in one scratchpad, or in the carved slice scratch. -/
def State.localOk (s : State) (d a n : Nat) : Bool :=
  if a / 2 ^ 29 ≠ 0 then false
  else if a / 2 ^ 28 = 0 then decide (a % 2 ^ 22 + n ≤ 2 ^ 22)
  else decide (a / 2 ^ 27 % 2 = 0) && decide (a % 2 ^ 27 + n ≤ s.carved d)

/-- The row groups that hold the bytes `a` to `a + n - 1`. -/
def rgsOf (a n : Nat) : List Nat :=
  if n = 0 then [] else (List.range ((a + n - 1) / 512 - a / 512 + 1)).map (fun i => a / 512 + i)

/-- Whether a replay may read some bytes: each lies where its log has bytes; any other access may (R404). -/
def State.seenBytes (s : State) (a n : Nat) : Bool :=
  match s.iss.seen with
  | none => true
  | some l => (List.range n).all (fun i => l.any (fun r => decide (r.1 ≤ a + i) && decide (a + i < r.1 + r.2)))

/-- Whether every row group of some bytes is valid (R147). -/
def State.validRange (s : State) (d a n : Nat) : Bool := (rgsOf a n).all (fun g => (s.rg d g).valid) && s.seenBytes a n
/-- Whether some row group of some bytes is poisoned (R144). -/
def State.poisonedRange (s : State) (d a n : Nat) : Bool := (rgsOf a n).any (fun g => (s.rg d g).poison)

/-- The core of a row group of a scratchpad, within its die; none for slice scratch. -/
def rgCore (g : Nat) : Option Nat := if g / 2 ^ 19 % 2 = 1 then none else some (g / 8192)

/-- Whether a row group's refresh is in progress (R144). -/
def State.inRefresh (s : State) (d g : Nat) : Bool :=
  match rgCore g with
  | some k => decide ((s.core (d * 64 + k)).refreshing = some g)
  | none => decide (g ∈ (s.die d).refreshing)

/-- Cancels the requests of a row group that wait; a refresh in progress goes on (R149). -/
def State.cancelRefresh (s : State) (d g : Nat) : State :=
  if !(s.rg d g).rfq || s.inRefresh d g then s
  else
    match rgCore g with
    | some k => s.modCore (d * 64 + k) (fun x => { x with refreshQ := x.refreshQ.filter (fun e => decide (e.1 ≠ g)) })
    | none => s.modDie d (fun x => { x with refreshQ := x.refreshQ.filter (fun e => decide (e.1 ≠ g)) })

/-- A full write of a row group: V := 1, age 0, and no refresh request (R135, R149); its class stays. -/
def State.fullWrite (s : State) (d g : Nat) : State :=
  let x := s.rg d g
  (s.cancelRefresh d g).setRg d g { x with valid := true, age := 0, rfq := false, poison := false }

/-- Writes bytes to local memory: a row group covered from its first byte to its last in one burst is written full
(R135), and any other keeps its age and its validity (R136). -/
def State.localWrite (s : State) (d a : Nat) (bs : List Byte) (burst : Bool) : State :=
  let s1 := s.setLbytes d a bs
  if burst then
    (rgsOf a bs.length).foldl (fun t g =>
      if a ≤ g * 512 ∧ g * 512 + 512 ≤ a + bs.length then t.fullWrite d g else t) s1
  else s1

/-! Device memory: a byte at PKID × 2^41 + die × 2^35 + offset behind the port of that die (R74, R439). -/

/-- What an unlisted byte reads as under a memory key: zero until the die's memory has been rekeyed, and then a value
the manual leaves open (R437, R439). -/
def unlistedByte (gen key : Nat) : Byte := if gen = 0 then 0 else Config.rekeyedByte gen key

/-- Places from here on are the host's: port × 2^64 + host address (R434). -/
def hostBase : Nat := 2 ^ 80

/-- The place of a byte whatever PKID an access names. -/
def placeOf (key : Nat) : Nat := if hostBase ≤ key then key else key % 2 ^ 41

/-- The PKID that an access to device memory names. -/
def pkidOf (key : Nat) : Nat := key / 2 ^ 41

/-- What a place holds, decrypted under the key it was written under. -/
def State.cell (s : State) (p : Nat) : Byte :=
  match mapFind s.mem p with
  | some b => b
  | none => unlistedByte (s.die (p / 2 ^ 35)).keyGen p

/-- A byte of device memory at its place, or of host memory behind a window (R434). A granule last written under another
PKID yields a value the manual leaves open (R439). -/
def State.mb (s : State) (key : Nat) : Byte :=
  if hostBase ≤ key then mapGet 0 s.hostMem (key - hostBase)
  else if mapGet 0 s.pkids (placeOf key / 32) = pkidOf key then s.cell (placeOf key)
  else Config.wrongKeyByte (s.die (placeOf key / 2 ^ 35)).keyGen key
    (leNat ((List.range 32).map (fun i => s.cell (placeOf key / 32 * 32 + i))))

/-- Stores a byte at a place, keeping the canonical form: no entry equals what its unlisted byte reads as. -/
def State.cellPut (s : State) (m : List Host.Cell) (p : Nat) (b : Byte) : List Host.Cell :=
  mapSet (unlistedByte (s.die (p / 2 ^ 35)).keyGen p) m p b

/-- Device memory with one byte written under the PKID of the access: the rest of its granule is decrypted, merged and
encrypted again under that key (R439). -/
def State.memPut (s : State) (key : Nat) (b : Byte) : List Host.Cell :=
  let g := placeOf key / 32 * 32
  let base := pkidOf key * 2 ^ 41 + g
  let m := if mapGet 0 s.pkids (placeOf key / 32) = pkidOf key then s.mem
    else (List.range 32).foldl (fun m i => s.cellPut m (g + i) (s.mb (base + i))) s.mem
  s.cellPut m (placeOf key) b

/-- Writes a byte of device memory, or of host memory behind a window. -/
def State.setMb (s : State) (key : Nat) (b : Byte) : State :=
  if hostBase ≤ key then { s with hostMem := mapSet 0 s.hostMem (key - hostBase) b }
  else { s with mem := s.memPut key b, pkids := mapSet 0 s.pkids (placeOf key / 32) (pkidOf key) }

/-- Whether two accesses meet in one granule under different PKIDs, so that a write of one changes what the other reads
(R439). -/
def otherKey (a b : Nat) : Bool :=
  decide (a < hostBase) && decide (b < hostBase) && decide (placeOf a / 32 = placeOf b / 32) && decide (pkidOf a ≠ pkidOf b)

/-- THE CANONICAL FORM: addresses strictly rise, and no entry equals what its unlisted byte reads as, in device memory, host
memory and local memory; no listed granule is at PKID 0, and no listed row group is at its reset state. -/
def Memory.wf (s : State) : Bool :=
  mapSorted s.mem && s.mem.all (fun e => decide (e.2 ≠ unlistedByte (s.die (e.1 / 2 ^ 35)).keyGen e.1)) &&
  mapWf 0 s.hostMem && mapWf unlistedLocal s.loc && mapWf RowGroup.reset s.rgs && mapWf 0 s.pkids

/-- The logarithm of the number of a partition's dies (R74). -/
def State.lgDies (s : State) (d : Nat) : Nat := (s.part (s.partOf d)).dies.length.log2

/-- The bytes of device memory of a die's partition: n × 32 GiB (R74). -/
def State.memBytes (s : State) (d : Nat) : Nat := (s.part (s.partOf d)).dies.length * 2 ^ 35

/-- The place of a physical address of the partition of die `d`, under a PKID; its port is always one of the partition's
(R74, R436). -/
def State.paUnder (s : State) (d pkid pa : Nat) : Nat :=
  let m := s.lgDies d
  let p := pa / 2 ^ 12 % 2 ^ m
  let off := pa / 2 ^ (12 + m) * 2 ^ 12 + pa % 2 ^ 12
  pkid * 2 ^ 41 + (s.part (s.partOf d)).dies.getD p 0 * 2 ^ 35 + off % 2 ^ 35

/-- The place of a physical address under the PKID of the die's TRROOT, as its walks and the checkpoint stream reach it
(R95, R439). -/
def State.paKey (s : State) (d pa : Nat) : Nat := s.paUnder d (bits (s.dieCtl d 0x100) 3 0) pa

/-- The die whose port serves a place. -/
def homeOf (key : Nat) : Nat := placeOf key / 2 ^ 35

/-! Links (R9, R359). -/

/-- The two ends of a link number (R9). -/
def linkEnds (l : Nat) : Nat × Nat :=
  if l < 64 then (l, 8 * (l / 8) + (l % 8 + 1) % 8) else (l - 64, (l - 64 + 8) % 64)

/-- The links of a physical die. -/
def linksOf (p : Nat) : List Nat :=
  (List.range 128).filter (fun l => decide ((linkEnds l).1 = p ∨ (linkEnds l).2 = p))

/-- Whether a physical die is live. -/
def State.dieLive (s : State) (p : Nat) : Bool := bit (s.modCtl 0x1B2) p
/-- Whether a physical link is live. -/
def State.linkLive (s : State) (l : Nat) : Bool :=
  if l < 64 then bit (s.modCtl 0x1B0) l else bit (s.modCtl 0x1B1) (l - 64)

/-- Whether the cores of a die may issue and its queues are served: the die is live and a partition holds it (R435, R446). -/
def State.dieRuns (s : State) (d : Nat) : Bool := s.dieLive d && (s.die d).part.isSome

/-- Whether a die, or a link, is lost: training set its bit, which has fallen since (R359). -/
def State.dieLost (s : State) (p : Nat) : Bool := !s.dieLive p && bit (mapGet 0 s.trained 0x1B2) p
/-- Whether a link is lost. -/
def State.linkLost (s : State) (l : Nat) : Bool :=
  !s.linkLive l && bit (mapGet 0 s.trained (if l < 64 then 0x1B0 else 0x1B1)) (l % 64)

/-- Whether a unit of die `d` has lost the home of a place: the home die is lost, or, seen from another die, its links are
(R88). DESIGN CHOICE: R88 does not say how many links `its links` are; all four of the home die's must be lost. -/
def State.homeLost (s : State) (d key : Nat) : Bool :=
  let h := homeOf key
  decide (key < hostBase) && (s.dieLost h || (decide (h ≠ d) && (linksOf h).all s.linkLost))

/-- The bytes at some places. -/
def State.mbytes (s : State) (keys : List Nat) : List Byte := keys.map s.mb
/-- Writes bytes at some places, in order. -/
def State.setMbytes (s : State) : List Nat → List Byte → State
  | k :: ks, b :: bs => (s.setMb k b).setMbytes ks bs
  | _, _ => s

/-- Whether a granule that holds one of some places is marked uncorrectable (R79, R80). -/
def State.uncorr (s : State) (keys : List Nat) : Bool := keys.any (fun k => mapGet false s.poison (placeOf k / 32))

/-- The slice-store row groups of some places of device memory, each once. -/
def sliceKeys (keys : List Nat) : List Nat :=
  ((keys.filter (fun k => decide (k < hostBase))).map (fun k => placeOf k / 512)).eraseDups

/-- Marks the row groups of some places that their home slice store holds as dirty (R75). -/
def State.dirtyLines (s : State) (keys : List Nat) : State :=
  (sliceKeys keys).foldl (fun u l =>
    match mapFind (u.die (l / 2 ^ 26)).slice (l % 2 ^ 26) with
    | some y =>
      if y.dirty then u
      else u.modDie (l / 2 ^ 26) (fun x => { x with slice := mapPut x.slice (l % 2 ^ 26) { y with dirty := true } })
    | none => u) s

/-- Writes bytes as the base die does (R79): granules wholly covered are written afresh, and a granule covered in part
stays uncorrectable if it was. A line present in the home slice store is updated there and becomes dirty (R75). Answers
whether a part write met an uncorrectable granule. -/
def State.portWrite (s : State) (keys : List Nat) (bs : List Byte) : State × Bool :=
  let s1 := (s.dirtyLines keys).setMbytes keys bs
  let places := keys.map placeOf
  let grans := (places.map (· / 32)).eraseDups
  let whole (g : Nat) : Bool := (List.range 32).all (fun i => (g * 32 + i) ∈ places)
  let bad := grans.any (fun g => !whole g && mapGet false s.poison g)
  ({ s1 with poison := (grans.filter whole).foldl (fun t g => mapDel t g) s1.poison }, bad)

/-- The row groups that a die's slice store can cache: 262,144 less those carved as slice scratch (R15, R133, R161). -/
def State.sliceRoom (s : State) (d : Nat) : Nat := 262144 - s.carved d / 512

/-- The line that leaves a full slice store. DESIGN CHOICE: the manual names no replacement rule, and no program result
depends on it (R150); the line of the greatest age leaves, the first of them. -/
def oldestLine (t : Table SliceLine) : Option Nat :=
  (t.foldl (fun (m : Option (Nat × Nat)) e =>
    match m with
    | some (_, a) => if a < e.2.age then some (e.1, e.2.age) else m
    | none => some (e.1, e.2.age)) none).map (fun p => p.1)

/-- Puts a line into a slice store that holds at most `room`. -/
def slicePut (room : Nat) (t : Table SliceLine) (l : Nat) (y : SliceLine) : Table SliceLine :=
  if (mapFind t l).isSome || decide (t.length < room) then mapPut t l y
  else
    match oldestLine t with
    | some v => mapPut (mapDel t v) l y
    | none => t

/-- Whether the line that leaves for another is dirty. -/
def victimDirty (room : Nat) (t : Table SliceLine) (l : Nat) : Bool :=
  if (mapFind t l).isSome || decide (t.length < room) then false
  else
    match oldestLine t with
    | some v => (mapGet ⟨0, false, 0⟩ t v).dirty
    | none => false

/-- Adds a cached fill or a write-back that nothing waits for to a port's cached class (R75, R76). -/
def State.cachedWork (s : State) (d : Nat) : State :=
  (s.modDie d (fun x => { x with misses := x.misses + 1 })).dueOnce .portRequestService (.n d 0 0)

/-- Marks the row groups of some places as cached by their home die: a miss fills the line with age 0, and a write
makes it dirty; a dirty line that leaves is written back (R76). -/
def State.cacheLines (s : State) (keys : List Nat) (dirty : Bool) : State :=
  (sliceKeys keys).foldl (fun u l =>
    let d := l / 2 ^ 26
    let u1 := if victimDirty (u.sliceRoom d) (u.die d).slice (l % 2 ^ 26) then u.cachedWork d else u
    u1.modDie d (fun x =>
      let y := mapGet ⟨0, false, 0⟩ x.slice (l % 2 ^ 26)
      { x with slice := slicePut (u.sliceRoom d) x.slice (l % 2 ^ 26) { y with dirty := y.dirty || dirty } })) s

/-- A cached access that no load waits for: its lines are cached, and each that missed is a fill of the cached class of its home
port (R75, R76). -/
def State.cacheFill (s : State) (keys : List Nat) (dirty : Bool) : State :=
  ((sliceKeys keys).filter (fun l => (mapFind (s.die (l / 2 ^ 26)).slice (l % 2 ^ 26)).isNone)).foldl (fun u l =>
    u.cachedWork (l / 2 ^ 26)) (s.cacheLines keys dirty)

/-! Translation (R91 to R101). -/

/-- What an access does with the bytes it names (R96, TFINFO.ACC): a read, a write, a fetch, an atomic, FUT.RD, the link
that FUT.RD writes into an empty future, and FUT.FILL or FUT.RESET. -/
inductive Acc where
  | read | write | fetch | atomic | futRead | futLink | futWrite
deriving DecidableEq, Repr

/-- TFINFO.ACC (Table 5-5). DESIGN CHOICE: the manual does not class the FUT operations; the atomic engine performs them, and
they report 3. -/
def Acc.code : Acc → Nat
  | .read => 0 | .write => 1 | .fetch => 2 | .atomic => 3 | .futRead => 3 | .futLink => 3 | .futWrite => 3

/-- A translation, or the kind and level of the fault (Table 5-5). -/
inductive Xl where
  | ok (pa : Nat) (leaf : Nat) (lg : Nat)
  | bad (kind lvl : Nat)
deriving DecidableEq, Repr

/-- The levels of Table 5-3: low index bit, number of index bits, whether a leaf may stand there, and the size of the
next table. -/
def ptLevels : List (Nat × Nat × Bool × Nat) :=
  [(48, 8, false, 12), (39, 9, false, 12), (30, 9, true, 12), (21, 9, true, 8), (16, 5, true, 0)]

/-- The eight bytes of a page-table entry as a number. DESIGN CHOICE: the manual does not say what a walk makes of an entry in
an uncorrectable granule; its bytes are read as if the mark were clear. -/
def State.pte (s : State) (d pa : Nat) : Nat := leNat ((List.range 8).map (fun i => s.mb (s.paKey d (pa + i))))

/-- Check 2 of R95: a malformed entry at level `lvl`. -/
def pteMalformed (memBytes lvl e lg nextLg : Nat) (leafOk : Bool) : Bool :=
  let leaf := decide (e / 2 % 2 = 1)
  let addr := e / 2 ^ 24 % 2 ^ 33 * 256
  decide (e / 2 ^ 57 ≠ 0) || decide (e / 2 ^ 18 % 2 ^ 6 ≠ 0) || decide (e / 2 ^ 10 % 2 ^ 4 ≠ 0) ||
  (leaf && !leafOk) || (!leaf && decide (lvl = 4)) ||
  (!leaf && (decide (e / 2 ^ 14 % 16 ≠ 0) || decide (e / 4 % 2 ^ 6 ≠ 0))) ||
  (if leaf then decide (addr % 2 ^ lg ≠ 0) || decide (memBytes < addr + 2 ^ lg)
   else decide (addr % 2 ^ nextLg ≠ 0) || decide (memBytes < addr + 2 ^ nextLg)) ||
  (leaf && decide (e / 32 % 4 = 3))

/-- A walk from the root of TRROOT (R93, R95): the translation with the address of its leaf, or a fault. DESIGN CHOICE: check 2
of R95 bounds the ADDR of entries alone; a ROOT whose table lies at or beyond the partition's device memory ends the walk
with MALFORMED at level 0 in the same way, so that no walk leaves the partition (R74, R436). -/
def State.walkFrom (s : State) (d va pkid : Nat) : Nat → Nat → List (Nat × Nat × Bool × Nat) → Xl × Nat
  | _, lvl, [] => (.bad 4 lvl, 0)
  | base, lvl, (lo, n, leafOk, nextLg) :: rest =>
    let at_ := base + 8 * (va / 2 ^ lo % 2 ^ n)
    let e := s.pte d at_
    if s.memBytes d < base + 8 * 2 ^ n then (.bad 4 lvl, 0)
    else if e % 2 = 0 then (.bad 3 lvl, 0)
    else if pteMalformed (s.memBytes d) lvl e lo nextLg leafOk then (.bad 4 lvl, 0)
    else
      let addr := e / 2 ^ 24 % 2 ^ 33 * 256
      if e / 2 % 2 = 1 then
        if e / 2 ^ 14 % 16 ≠ pkid then (.bad 6 lvl, 0)
        else (.ok (addr + va % 2 ^ lo) e lo, at_)
      else s.walkFrom d va pkid addr (lvl + 1) rest

/-- The page-table level of a page size (Table 5-3). -/
def lvlOf (lg : Nat) : Nat := if lg = 30 then 2 else if lg = 21 then 3 else 4

/-- Whether a leaf permits an access (R96). -/
def permits (leaf : Nat) (a : Acc) : Bool :=
  let r := decide (leaf / 4 % 2 = 1)
  let w := decide (leaf / 8 % 2 = 1)
  let x := decide (leaf / 16 % 2 = 1)
  match a with
  | .read => r
  | .write => w
  | .fetch => x
  | .atomic => r && w
  | .futRead => r
  | .futLink => r
  | .futWrite => w

/-- Whether an access writes (R97). -/
def Acc.writes : Acc → Bool
  | .read => false | .fetch => false | .write => true | .atomic => true | .futRead => false | .futLink => true
  | .futWrite => true

/-- Sets bits of a page-table entry by an atomic OR (R97). -/
def State.orPte (s : State) (d pa : Nat) (m : Nat) : State :=
  let e := s.pte d pa
  s.setMbytes ((List.range 8).map (fun i => s.paKey d (pa + i))) (leBytes 8 (e ||| m))

/-- Puts a translation into a TLB of a given size, the oldest leaving (R98, R99). -/
def tlbFill (n : Nat) (t : List TlbEntry) (e : TlbEntry) : List TlbEntry :=
  (e :: t.filter (fun x => decide (x.va ≠ e.va ∨ x.lg ≠ e.lg))).take n

/-- The entry of a TLB that covers an address. -/
def tlbFind (t : List TlbEntry) (va : Nat) : Option TlbEntry :=
  t.find? (fun e => decide (va / 2 ^ e.lg = e.va / 2 ^ e.lg))

/-- A walk for an access (R95, R97): sets A, and D for a permitted write, and fills the TLBs. -/
def State.walk (s : State) (d : Nat) (core : Option Nat) (va : Nat) (a : Acc) : State × Xl :=
  let root := s.dieCtl d 0x100
  if !bit root 4 then (s, .bad 1 0)
  else
    match s.walkFrom d va (bits root 3 0) (bits root 40 11 * 2 ^ 11) 0 ptLevels with
    | (.bad k l, _) => (s, .bad k l)
    | (.ok pa leaf lg, at_) =>
      let dirty := a.writes && permits leaf a
      let leaf' := leaf ||| 0x100 ||| (if dirty then 0x200 else 0)
      let s1 := s.orPte d at_ (if dirty then 0x300 else 0x100)
      let e : TlbEntry := ⟨va / 2 ^ lg * 2 ^ lg, lg, pa / 2 ^ lg * 2 ^ lg, leaf', decide (leaf' / 2 ^ 9 % 2 = 1)⟩
      let s2 := s1.modDie d (fun x => { x with tlb := tlbFill 4096 x.tlb e })
      let s3 := match core with
        | some k => s2.modCore k (fun x => { x with tlb := tlbFill 64 x.tlb e })
        | none => s2
      (s3, .ok pa leaf' lg)

/-- A walk for an access, and the permissions of its leaf (R96, R97). -/
def State.walkFor (s : State) (d : Nat) (core : Option Nat) (va : Nat) (a : Acc) : State × Xl :=
  match s.walk d core va a with
  | (s1, .ok pa leaf lg) => if permits leaf a then (s1, .ok pa leaf lg) else (s1, .bad 5 (lvlOf lg))
  | (s1, .bad k l) => (s1, .bad k l)

/-- Translates one address for an access: a TLB entry that permits it, or a walk (R97, R98, R99). -/
def State.translate (s : State) (d : Nat) (core : Option Nat) (va : Nat) (a : Acc) : State × Xl :=
  if !bit (s.dieCtl d 0x100) 4 then (s, .bad 1 0)
  else
    let hit := match core with
      | some k => (tlbFind (s.core k).tlb va).or (tlbFind (s.die d).tlb va)
      | none => tlbFind (s.die d).tlb va
    match hit with
    | some e =>
      if !permits e.leaf a then (s, .bad 5 (lvlOf e.lg))
      else if a.writes && !e.dirty then s.walkFor d core va a
      else (s, .ok (e.pa + va % 2 ^ e.lg) e.leaf e.lg)
    | none => s.walkFor d core va a

/-- The TFINFO word of a fault (Table 5-5). -/
def tfInfo (src : Bool) (a : Acc) (lvl kind : Nat) : Nat :=
  (if src then 512 else 0) + a.code * 128 + lvl * 16 + kind

/-- The lowest enabled window that covers an address: its register number and the host place (R433, R434). -/
def State.window (s : State) (d va : Nat) : Option (Nat × Nat) :=
  [0x220, 0x222, 0x224, 0x226].findSome? (fun n =>
    let lo := s.dieCtl d n
    let base := bits lo 55 30 * 2 ^ 30
    if bit lo 63 ∧ base ≤ va ∧ va < base + 2 ^ bits lo 5 0 then
      some (n, hostBase + bits lo 60 60 * 2 ^ 64 + (bits (s.dieCtl d (n + 1)) 63 30 * 2 ^ 30 + (va - base)) % 2 ^ 64)
    else none)

/-- Whether a window permits an access (Table 24-2). -/
def windowPermits (lo : W64) (a : Acc) : Bool :=
  match a with
  | .read => bit lo 62
  | .write => bit lo 61
  | _ => false

/-- What an access to device virtual memory comes to: the places of its bytes and the leaf of its first page, or the
faulting address, kind and level. -/
inductive Span where
  | ok (keys : List Nat) (leaf : Nat)
  | bad (va kind lvl : Nat)
deriving DecidableEq, Repr

/-- The places of up to `n` bytes from one address, as far as its page or window goes, under the leaf's PKID. A window raises
PERM for an agent that may not use it (R434), and VA[63:56] not zero raises NONCANON (R91). DESIGN CHOICE: where translation
is off, Table 5-6 gives NOTEN for every access; NONCANON, then a window's PERM, come before it. DESIGN CHOICE: a fault with no
walk reports level 0 (Table 5-5 gives only the level at which a walk ended). -/
def State.reach (s : State) (d : Nat) (core : Option Nat) (win : Bool) (va n : Nat) (a : Acc) : State × Span :=
  if va / 2 ^ 56 ≠ 0 then (s, .bad va 2 0)
  else
    match s.window d va with
    | some (w, key) =>
      if win && windowPermits (s.dieCtl d w) a then
        (s, .ok ((List.range (min n (2 ^ 30 - va % 2 ^ 30))).map (fun i => key + i)) 0)
      else (s, .bad va 5 0)
    | none =>
      match s.translate d core va a with
      | (s1, .bad k l) => (s1, .bad va k l)
      | (s1, .ok pa leaf lg) =>
        (s1, .ok ((List.range (min n (2 ^ lg - va % 2 ^ lg))).map (fun i => s1.paUnder d (leaf / 2 ^ 14 % 16) (pa + i))) leaf)

/-- Translates the `n` bytes at the 64-bit address `va`: every page before any byte (R100). DESIGN CHOICE: an access that
straddles a direct and a cached page takes the path of its first page's leaf for all its bytes, with one tag on the direct
path; the manual does not say how its parts travel (R77, R100). -/
def State.spanBy (s : State) (d : Nat) (core : Option Nat) (win : Bool) (va n : Nat) (a : Acc) : State × Span :=
  match s.reach d core win va n a with
  | (s1, .bad v k l) => (s1, .bad v k l)
  | (s1, .ok keys leaf) =>
    if keys.length = n then (s1, .ok keys leaf)
    else
      match s1.reach d core win ((va + keys.length) % 2 ^ 64) (n - keys.length) a with
      | (s2, .bad v k l) => (s2, .bad v k l)
      | (s2, .ok more _) => (s2, .ok (keys ++ more) leaf)

/-- A span of an instruction or of a unit that uses no window (R434). -/
def State.span (s : State) (d : Nat) (core : Option Nat) (va n : Nat) (a : Acc) : State × Span :=
  s.spanBy d core false va n a

/-- Reads bytes at a virtual address for a unit of die `d`, through windows or not: none at a fault. -/
def State.readBy (s : State) (d : Nat) (win : Bool) (va n : Nat) : State × Option (List Byte) :=
  match s.spanBy d none win va n .read with
  | (s1, .ok keys _) => (s1, if s1.uncorr keys then none else some (s1.mbytes keys))
  | (s1, .bad _ _ _) => (s1, none)

/-- Writes bytes at a virtual address for a unit of die `d`, through windows or not: false at a fault. -/
def State.writeRaw (s : State) (d : Nat) (win : Bool) (va : Nat) (bs : List Byte) : State × Bool :=
  match s.spanBy d none win va bs.length .write with
  | (s1, .ok keys _) => ((s1.portWrite keys bs).1, true)
  | (s1, .bad _ _ _) => (s1, false)

/-! The stream of a checkpoint (R408). -/

/-- CRC-64 of R403: polynomial 0x42F0_E1EB_A9EA_3693, most significant bit first. -/
def crcByte (crc : W64) (b : Byte) : W64 :=
  (List.range 8).foldl (fun c _ => if c.msb then (c <<< 1) ^^^ 0x42F0E1EBA9EA3693#64 else c <<< 1)
    (crc ^^^ (b.zeroExtend 64 <<< 56))
/-- CRC-64 of some bytes from a running value. -/
def crc64 (crc : W64) (bs : List Byte) : W64 := bs.foldl crcByte crc

/-- `n` zero bytes. -/
def zeros (n : Nat) : List Byte := List.replicate n 0

/-- Ends an epoch's stream with a CODE of Table 21-5. -/
def State.endEpoch (s : State) (p code : Nat) : State :=
  (s.setPartCtl p 0x1D9 (setBits (setBits (s.partCtl p 0x1D9) 63 63 0) 62 60 code)).modPart p (fun y => { y with
    pages := [], atCut := [] })

/-- The size code of a page in a record's header (R408). -/
def sizeCode (lg : Nat) : Nat := if lg = 30 then 2 else if lg = 21 then 1 else 0

/-- Writes a run of bytes through windows, in pieces. -/
def State.writeWin (s : State) (d : Nat) : Nat → Nat → List Byte → State × Bool
  | 0, _, _ => (s, true)
  | n + 1, va, bs =>
    if bs.isEmpty then (s, true)
    else
      match s.writeRaw d true va (bs.take 512) with
      | (s1, true) => s1.writeWin d n (va + 512) (bs.drop 512)
      | (s1, false) => (s1, false)

/-- The place of a byte of a page of a checkpoint's set, whose base stands as PKID × 2^41 + PA, under the PKID of its leaf (R95,
R408, R439). -/
def State.pageKey (s : State) (p base i : Nat) : Nat := s.paUnder ((s.part p).dies.headD 0) (base / 2 ^ 41) (base % 2 ^ 41 + i)

/-- Streams a page of a partition's checkpoint, its VA, size and physical base (R408): its record goes to DEST, or the epoch ends
with OVERFLOW or TFAULT. -/
def State.streamPage (s : State) (p : Nat) (page : Nat × Nat × Nat) : State :=
  let (va, lg, pa) := page
  let st := s.partCtl p 0x1D9
  let x := s.part p
  if 2 ^ bits (s.partCtl p 0x1D8) 5 0 < x.stream + 64 + 2 ^ lg then s.endEpoch p 2
  else
    let old : State := { s with mem := x.atCut }
    let bs := old.mbytes ((List.range (2 ^ lg)).map (fun i => s.pageKey p pa i))
    let head := leBytes 8 (va + sizeCode lg * 2 ^ 56) ++ leBytes 8 (bits st 31 0) ++ leBytes 8 (crc64 0 bs).toNat ++ zeros 40
    match s.writeWin (homeOf (s.pageKey p pa 0)) (2 ^ lg / 512 + 2) (bits (s.partCtl p 0x1D8) 55 12 * 2 ^ 12 + x.stream) (head ++ bs) with
    | (s1, false) => s1.endEpoch p 3
    | (s1, true) =>
      (s1.setPartCtl p 0x1D9 (setBits st 59 32 (min (bits st 59 32 + 1) (2 ^ 28 - 1)))).modPart p (fun y => { y with
        pages := y.pages.filter (fun q => decide (q ≠ page)), stream := x.stream + 64 + 2 ^ lg })

/-- A write of a unit of the machine to a page of the set that has not streamed waits until it has (R408). DESIGN CHOICE: the
manual gives the pages no order, and such a page streams ahead of the others, as soon as the write waits for it. -/
def State.streamFor (s : State) (d va n : Nat) : State :=
  let p := s.partOf d
  ((s.part p).pages.filter (fun x => decide (x.1 < va + n) && decide (va < x.1 + 2 ^ x.2.1))).foldl (fun u x =>
    if bit (u.partCtl p 0x1D9) 63 then u.streamPage p x else u) s

/-- Writes bytes at a virtual address for a unit of die `d`, through windows or not, once a checkpoint has streamed their page:
false at a fault. -/
def State.writeBy (s : State) (d : Nat) (win : Bool) (va : Nat) (bs : List Byte) : State × Bool :=
  (s.streamFor d va bs.length).writeRaw d win va bs

/-- Reads bytes at a virtual address for a unit that uses no window (the Cupola, the Turret, the Proofreader). -/
def State.readVa (s : State) (d va n : Nat) : State × Option (List Byte) := s.readBy d false va n

/-- Writes bytes at a virtual address for a unit that uses no window: false at a fault. -/
def State.writeVa (s : State) (d va : Nat) (bs : List Byte) : State × Bool := s.writeBy d false va bs

/-- Reads a little-endian 64-bit word at a virtual address. -/
def State.readWord (s : State) (d va : Nat) : State × Option W64 :=
  match s.readVa d va 8 with
  | (s1, some bs) => (s1, some (BitVec.ofNat 64 (leNat bs)))
  | (s1, none) => (s1, none)

/-! Queues the device serves (R128 to R131). -/

/-- The register that binds a queue, with the die it stands on. -/
def queueReg : QueueRef → Nat × Nat
  | .copy d e j => (d, 0x110 + 16 * e + j)
  | .launch d n => (d, 0x1A0 + n)
  | .coll d n => (d, 0x1C0 + n)

/-- The queue a register binds, if it binds one. -/
def queueOf (d n : Nat) : Option QueueRef :=
  if inRange n 0x110 0x14F then some (.copy d ((n - 0x110) / 16) ((n - 0x110) % 16))
  else if inRange n 0x1A0 0x1AF then some (.launch d (n - 0x1A0))
  else if inRange n 0x1C0 0x1CF then some (.coll d (n - 0x1C0))
  else none

/-- The binding of a queue. -/
def State.queueCtl (s : State) (q : QueueRef) : W64 := s.dieCtl (queueReg q).1 (queueReg q).2

/-- The VA of a queue's descriptor (R128). -/
def State.queueDesc (s : State) (q : QueueRef) : Nat := bits (s.queueCtl q) 55 6 * 64

/-- The queues bound on every die. -/
def State.boundQueues (s : State) : List QueueRef :=
  s.dies.flatMap (fun p => p.2.ctl.filterMap (fun e => if bit e.2 63 then queueOf p.1 e.1 else none))

/-- A write that reached some places prompts every queue whose DOORBELL, or, for an atomic, whose WRIDX lies there
(R131). -/
def State.prompt (s : State) (keys : List Nat) (off : Nat) : State :=
  s.boundQueues.foldl (fun u q =>
    match (s.spanBy (queueReg q).1 none true (s.queueDesc q + off) 8 .read).2 with
    | .ok ks _ => if ks.any (fun k => decide (placeOf k ∈ keys.map placeOf)) then u.dueOnce .doorbellWrite (.queue q) else u
    | .bad _ _ _ => u) s

/-! Stops (R375 to R381). -/

/-- A plain stop with a code. -/
def Stop.of (code : Nat) : Stop := ⟨code, 0, 0, none⟩

/-- A translation fault of an instruction (R101). -/
def Stop.transl (a : Acc) (va kind lvl : Nat) : Stop :=
  ⟨0x06, 0, 0, some (BitVec.ofNat 64 va, tfInfo false a lvl kind)⟩

/-- A local address fault: TFADDR receives the local address zero-extended (R101). -/
def Stop.localAddr (a : Acc) (ea : W64) : Stop :=
  ⟨0x07, 0, 0, some (ea &&& 0xFFFFFFFF#64, tfInfo false a 0 7)⟩

/-- The STOPINFO word (Table 20-3). -/
def stopWord (code detail slot done : Nat) (multi : Bool) : W64 :=
  BitVec.ofNat 64 (detail % 2 ^ 16 * 2 ^ 48 + done % 256 * 2 ^ 40 + (if multi then 2 ^ 39 else 0) +
    slot % 8 * 2 ^ 32 + code % 256)

/-- Codes 0x01 to 0x31 are faults and traps (R375). -/
def isFaultOrTrap (code : Nat) : Bool := decide (1 ≤ code ∧ code ≤ 0x31)

/-- TAKING A STOP (R375, R377, R378): the context's stop record, its fault registers, the done mask that its resumed bundle starts
with (slots done before stay done until their bundle has issued, R379), and the core it gives up. PC stays where the caller set it.
A fault or trap, a pre-emption, a debug stop or a FUT.RD must be saved next (R389); WAIT, CNT.WAIT and BAR.WAIT keep their slot, and
their caller sets the phase. -/
def State.takeStop (s : State) (c : Nat) (st : Stop) (causePc newDone : Nat) (multi : Bool) : State :=
  let done := (s.ctx c).doneMask ||| newDone
  let s1 := s.setCtxCtl c 0x081 (stopWord st.code st.detail st.slot done multi)
  let s2 := s1.setCtxCtl c 0x082 (BitVec.ofNat 64 causePc)
  let s3 := match st.addr with
    | some (va, info) => (s2.setCtxCtl c 0x048 va).setCtxCtl c 0x049 (BitVec.ofNat 64 info)
    | none => s2
  let s4 := s3.modCtx c (fun x => { x with phase := .stopping, doneMask := done })
  let s5 := s4.modCore (coreOf c) (fun k => if k.running = some (c % 4) then { k with running := none } else k)
  ((s5.stirLate).dueN .contextSave c).dueN .runningContextChange (coreOf c)

/-- A stop of the issuing slot at a check made at issue, outside a bundle's own accounting (R378). -/
def State.stopSlot (s : State) (st : Stop) : State :=
  s.takeStop s.iss.ctx { st with slot := s.iss.slot } s.iss.pc 0 false

end Sys2Proof.Machine
end

