-- ==== Sys2Proof/Machine/Slot.lean ====
section
/-! DEFINITION. What a slot operation is to the issue stage (R21, R378): what it reads and writes, the checks made at
issue, what holds its bundle before issue, and its effect; the queue registers its sources may name (R169 to
R172); and which accesses are not performed yet (R341, R347). -/

namespace Sys2Proof.Machine

/-! Accesses that have issued and are not performed yet (R341, R347). -/

/-- Whether a context is the one that its core runs. -/
def State.issuing (s : State) (c : Nat) : Bool :=
  decide ((s.core (coreOf c)).running = some (c % 4)) && decide ((s.ctx c).phase = .ready)

/-- Whether a queue push has still to take place in a context that its core runs (R172). DEDUCED: a push lands in its context's own
issue cycles, so that one of a context that does not run, or that DONE has ended, is waited for no more: what follows it, an
operation of an engine or a release, is performed regardless of its context (R115, R285, R347). -/
def State.pushOpen (s : State) (n : Nat) : Bool :=
  s.ctxs.any (fun p => p.2.pend.any (fun w => decide (w.seq = n) && w.isPush) && s.issuing p.1)

/-- Whether the access of a number has issued and is not performed yet: a queue push, a direct-path request that its port has not
served, a request that waits at an atomic engine, or one that still follows others. -/
def State.accessOpen (s : State) (n : Nat) : Bool :=
  s.lateOps.any (fun o => decide (o.id = n)) ||
  s.dies.any (fun p => p.2.atomics.any (fun r => decide (r.id = n)) ||
    p.2.ports.any (fun r => r.served.isNone && decide (r.seq = n))) || s.pushOpen n

/-- Whether one of some accesses is not performed yet. -/
def State.anyOpen (s : State) (l : List Nat) : Bool := l.any s.accessOpen

/-! Slot operations. -/

/-- A register an operation reads or writes, by class (R190). -/
inductive RegRef where
  | g (n : Nat)
  | v (n : Nat)
  | k (n : Nat)
deriving DecidableEq, Repr

/-- A slot operation. `pops` are the vector-source fields that may name a queue; `hold` says that the bundle waits
before issue (R299); `check` makes the checks at issue and may walk page tables on the way (R97). `phase` orders the
operations of a bundle: 0 those that only read, 1 those that write after every read (R21, R163, R306), 2 those performed
after the accesses of their own bundle (R157, R320), 3 control flow (R290), 4 those performed once the bundle has issued
(R379). `tags` counts the direct-path tags it needs (R77).
`rgs` are the row groups of local memory that it accesses at issue, of which one under refresh holds the bundle (R149).
`engine` marks an operation that needs its context to own the plane engine (R285), and `empty` says that empty issue
cycles pass before its bundle issues (R304, R332); `before` is a fault taken before the bundle issues (R280), and `after` are the
accesses of earlier bundles that must be performed before it issues (R341, R424). -/
structure SlotOp where
  pops : List Reg
  reads : List RegRef
  writes : List (RegRef × Nat)
  hold : State → Bool
  check : State → State × Option Stop
  phase : Nat
  tags : State → Nat
  rgs : State → List Nat
  engine : Bool
  empty : State → Bool
  before : State → Option Stop
  after : State → List Nat
  effect : State → State

/-- An operation with no checks, holds or registers. -/
def SlotOp.plain (effect : State → State) : SlotOp :=
  ⟨[], [], [], fun _ => false, fun s => (s, none), 0, fun _ => 0, fun _ => [], false, fun _ => false, fun _ => none,
    fun _ => [], effect⟩

/-- The ring's DIR (Table 8-6). -/
def Queue.dir (q : Queue) : Nat := bits q.cfg 55 54
/-- The ring's NSLOT (Table 8-6). -/
def Queue.nslot (q : Queue) : Nat := bits q.cfg 43 32
/-- The ring's BASE (Table 8-6). -/
def Queue.base (q : Queue) : Nat := bits q.cfg 31 0
/-- The local address of ring position p (R169). -/
def Queue.pos (q : Queue) (p : Nat) : Nat := q.base + 512 * (p % max q.nslot 1)

/-- What a pop, peek or push meets at a ring (Table 8-7). -/
inductive RingAnswer where
  | go
  | stall
  | bad
deriving DecidableEq, Repr

/-- A pop or peek (Table 8-7). -/
def Queue.canPop (q : Queue) : RingAnswer :=
  if q.dir = 1 then (if q.count = 0 then .bad else .go)
  else if q.dir = 2 then
    if q.count ≠ 0 then .go
    else if q.stream.isSome ∧ ¬ q.closed then .stall else .bad
  else .bad

/-- A push of the program (Table 8-7): an IN ring takes none. -/
def Queue.canPush (q : Queue) : RingAnswer :=
  if q.closed then .bad
  else if q.dir = 1 then (if q.count < q.nslot then .go else .bad)
  else if q.dir = 3 then
    if q.count < q.nslot then .go else if q.stream.isSome then .stall else .bad
  else .bad

/-- The 128 values of a slot of local memory, S clear (R170). -/
def State.slotElems (s : State) (d a : Nat) : Table Elem :=
  lanes.map (fun i => (i, ⟨BitVec.ofNat 32 (leNat (s.lbytes d (a + 4 * i) 4)), false⟩))

/-- The queue numbers among some vector-source fields, each once (R171). -/
def queueNums (rs : List Reg) : List Nat :=
  ((rs.filter (fun r => decide (56 ≤ r.toNat))).map (fun r => r.toNat - 56)).eraseDups

/-- Whether slot i peeks queue q (Table 8-6). -/
def Queue.peeks (q : Queue) (slot : Nat) : Bool := bit q.cfg (56 + slot)

/-- The values of a slot of local memory as a pop reads them: uncorrectable data are free values. -/
def State.headElems (s : State) (d a : Nat) : State × Table Elem :=
  if s.poisonedRange d a 512 then
    (s.spend, lanes.map (fun i => (i, ⟨(Config.freeWord (s.free * 4096 + i)).setWidth 32, false⟩)))
  else (s, s.slotElems d a)

/-- Serves one pop or peek of a slot: the head's values go to the slot's latch, and a pop advances HEAD (R170). -/
def State.popOne (s : State) (slot qn : Nat) : State :=
  let c := s.iss.ctx
  let q := (s.ctx c).queue qn
  let bad := s.poisonedRange (dieOf c) (q.pos q.head) 512
  let (s0, e) := s.headElems (dieOf c) (q.pos q.head)
  let s1 := { s0 with iss := { s0.iss with
    heads := mapPut s0.iss.heads (slot * 8 + qn) e,
    spoilt := if bad then s0.iss.spoilt ++ [slot * 8 + qn] else s0.iss.spoilt } }
  if q.peeks slot then s1
  else
    let s2 := ({ s1 with iss := { s1.iss with
      rings := if (mapFind s1.iss.rings qn).isSome then s1.iss.rings else mapPut s1.iss.rings qn q } } : State).modCtx c
        (fun x => x.setQueue qn { q with head := (q.head + 1) % max q.nslot 1, count := q.count - 1 })
    if q.stream.isSome then s2.dueOnce .turretSlotLoad (.n c qn 0) else s2

/-- What a pop or peek of queue `qn` meets now: its fault, if any, or a stall (R170, R171). -/
def State.popMeets (s : State) (qn : Nat) : RingAnswer × Option Stop :=
  let c := s.iss.ctx
  let q := (s.ctx c).queue qn
  match q.canPop with
  | .bad => (.bad, some ⟨0x0A, qn + 16 * q.code, 0, none⟩)
  | .stall => (.stall, none)
  | .go =>
    let a := q.pos q.head
    if !s.validRange (dieOf c) a 512 then (.bad, some (Stop.of 0x08)) else (.go, none)

/-- Serves the pops of one slot in order: the first that faults or stalls ends it (R171). -/
def State.popSlot (s : State) (slot : Nat) : List Nat → State × RingAnswer × Option Stop
  | [] => (s, .go, none)
  | qn :: rest =>
    match s.popMeets qn with
    | (.go, _) => (s.popOne slot qn).popSlot slot rest
    | (a, st) => (s, a, st)

/-- Whether a slot has popped or peeked uncorrectable data through one of its source fields. -/
def SlotOp.spoilt (o : SlotOp) (s : State) : Bool :=
  (queueNums o.pops).any (fun qn => decide (s.iss.slot * 8 + qn ∈ s.iss.spoilt))

/-- The effect of an operation; one that has read uncorrectable data from a queue lands UNCORR in place of each result it writes
(R375, R380). DESIGN CHOICE: Table 20-1 gives UNCORR the class of a landing, and the manual does not say when it falls where the
operation writes no register: it lands then in the next cycle, and what the operation stores is free. -/
def SlotOp.act (o : SlotOp) (s : State) : State :=
  let s1 := o.effect s
  if o.spoilt s then
    let st : Stop := ⟨0x09, 0, s.iss.slot, none⟩
    if s1.cx.pend.any (fun w => decide (s.seq ≤ w.seq)) then
      s1.modCtx s1.iss.ctx (fun x => { x with pend := x.pend.map (fun w =>
        if s.seq ≤ w.seq then { w with payload := .fault st w.payload.cls, arrived := true } else w) })
    else s1.pendRaw 0 1 (.fault st (some 0)) true
  else s1

/-- Whether an operation has its bundle wait: in a hold, for an empty cycle, or for accesses of earlier bundles that it follows
(R299, R341). -/
def SlotOp.waits (o : SlotOp) (s : State) : Bool := o.hold s || o.empty s || s.anyOpen (o.after s)

/-- A slot operation on its own: its pops, its checks, then its effect; a fault is taken as a stop (R375), and a bundle
that cannot issue leaves the machine as it was. -/
def SlotOp.exec (o : SlotOp) (s : State) : Result :=
  match o.before s with
  | some st => .next (s.stopSlot st)
  | none =>
  if o.waits s then .next s
  else
    match s.popSlot s.iss.slot (queueNums o.pops) with
    | (_, .stall, _) => .next s
    | (_, .bad, st) => .next (s.stopSlot (st.getD (Stop.of 0x0A)))
    | (s1, .go, _) =>
      match o.check s1 with
      | (s2, some st) => .next (s2.stopSlot st)
      | (s2, none) => .next (o.act s2)

/-- A vector register field as a register reference: a queue is checked by no window (R190). -/
def vref (r : Reg) : List RegRef := if r.toNat < 56 then [.v r.toNat] else []

/-- A scalar register field as a register reference; g0 is checked by no window (R190). -/
def gref (r : Reg) : List RegRef := if r.toNat = 0 then [] else [.g r.toNat]

/-- The reference of a merge mask (R179). -/
def mref (m : BitVec 3) : List RegRef := if m = 0 then [] else [.k m.toNat]

/-- A vector destination, queue registers with the rest. -/
def vdst (r : Reg) : List RegRef := [.v r.toNat]

/-- The written register of an operation with its latency. -/
def wr (rs : List RegRef) (lat : Nat) : List (RegRef × Nat) := rs.map (fun r => (r, lat))

/-- A scalar operation with no check: reads `srcs`, writes g[d] after `lat` cycles. -/
def scalarOp (d : Reg) (srcs : List Reg) (lat : Nat) (f : State → W64) : SlotOp :=
  { SlotOp.plain (fun s => s.pendG d lat (f s)) with reads := srcs.flatMap gref, writes := wr (gref d) lat }

/-- A vector operation with no check: reads vector fields `srcs` and other registers, writes v[d] under mask m. -/
def vectorOp (d : Reg) (srcs : List Reg) (others : List RegRef) (m : BitVec 3) (lat : Nat)
    (f : State → Nat → Elem) : SlotOp :=
  { SlotOp.plain (fun s => s.pendV d lat m (f s)) with
    pops := srcs, reads := srcs.flatMap vref ++ others ++ mref m, writes := wr (vdst d) lat }

/-- A predicate-writing operation with no check. -/
def predOp (d : Reg) (srcs : List Reg) (others : List RegRef) (lat : Nat) (f : State → Nat → PBit) : SlotOp :=
  { SlotOp.plain (fun s => s.pendK d lat (f s)) with
    pops := srcs, reads := srcs.flatMap vref ++ others, writes := [(.k d.toNat, lat)] }

/-- Adds frozen cycles to the issuing core's time (R6, R182). -/
def State.freeze (s : State) (n : Nat) : State := s.modCore s.ck (fun k => { k with frozen := k.frozen + n })

/-- A check that only reads. -/
def pureCheck (f : State → Option Stop) : State → State × Option Stop := fun s => (s, f s)

/-- The first fault of a list of checks in order. -/
def firstFault (l : List (Bool × Stop)) : Option Stop := (l.find? (fun p => p.1)).map (fun p => p.2)

end Sys2Proof.Machine
end

