-- ==== Sys2Proof/Machine/Operands.lean ====
section
/-! DEFINITION. Immediate operands as the instructions read them (R24, R27, R193). -/

namespace Sys2Proof

/-- A signed immediate as a 64-bit word (R193). -/
def Imm10.w (i : Imm10) : W64 := BitVec.ofInt 64 i.int
/-- A signed immediate as a 64-bit word (R193). -/
def Imm16.w (i : Imm16) : W64 := BitVec.ofInt 64 i.int

namespace Machine

/-- EA of R162: base plus the scaled offset, modulo 2^64; g0 as a base is 0. -/
def State.ea (s : State) (base : Reg) (off : Imm10) (scale : Nat) : W64 :=
  s.g base + BitVec.ofInt 64 (off.int * (scale : Int))

/-- The FMT an operation of the issuing bundle sees (R273, R274). -/
def State.fmtNow (s : State) : W64 := s.cx.fmt

end Machine

end Sys2Proof
end

