-- ==== Sys2Proof/Machine/Flags.lean ====
section
/-! DEFINITION. The sticky status flags of floating and saturating lanes (R219, Table 11-3), as masks of CTXSTAT
(Table 20-2). -/

namespace Sys2Proof.Machine

/-- FNV, CTXSTAT[0]. -/
def fFNV : Nat := 1
/-- FOF, CTXSTAT[1]. -/
def fFOF : Nat := 2
/-- FUF, CTXSTAT[2]. -/
def fFUF : Nat := 4
/-- FNX, CTXSTAT[3]. -/
def fFNX : Nat := 8
/-- ISAT, CTXSTAT[4]. -/
def fISAT : Nat := 16

/-- Whether a finite magnitude exceeds the largest finite value of a format. -/
def overMax (f : FloatFmt) (x : Ex) : Bool :=
  let (c, t) := f.trunc x
  decide (f.maxFin < c) || (decide (c = f.maxFin) && decide (t ≠ .exact))

/-- Whether a non-zero magnitude lies below the smallest normal of a format. -/
def belowNormal (f : FloatFmt) (x : Ex) : Bool :=
  decide (x.num ≠ 0) && decide ((f.trunc x).1 < 2 ^ f.frac)

/-- ACCRUE(x, val, f) for a floating target that is no row of Table 11-2: FOF, FUF and FNX (Table 11-3). -/
def accrueFloat (f : FloatFmt) (x : FVal) (val : Nat) : Nat :=
  match x with
  | .fin e =>
    let differs := !(FVal.eqv (f.decode val) x)
    (if overMax f e then fFOF else 0) + (if belowNormal f e && differs then fFUF else 0) +
      (if differs then fFNX else 0)
  | _ => 0

/-- ACCRUE for an integer target: FNV on a NaN or a clamp, else FNX when a fraction is lost (Table 11-3). -/
def accrueInt (x : FVal) (val : Int) (clamped : Bool) : Nat :=
  match x with
  | .nan => fFNV
  | .inf _ => fFNV
  | .fin e => if clamped then fFNV else if FVal.eqv (.fin (Ex.ofInt val)) (.fin e) then 0 else fFNX

/-- The union of the flags of some lanes. -/
def orFlags (l : List Nat) : Nat := l.foldl (fun a b => a ||| b) 0

end Sys2Proof.Machine
end

