-- ==== Sys2Proof/Machine/Vector.lean ====
section
/-! DEFINITION. Vector arithmetic and the sticky domain (R212 to R232). -/

namespace Sys2Proof.Machine

/-- A vector operation whose selected lanes accrue flags: the flags are set in the issue cycle, after every read of the
bundle (R219). -/
def flagOp (d : Reg) (srcs : List Reg) (m : BitVec 3) (lat : Nat) (f : State → Nat → Elem × Nat) : SlotOp :=
  { vectorOp d srcs [] m lat (fun s i => (f s i).1) with
    phase := 1
    effect := fun s =>
      let r := (lanes.filter (s.sel m)).map (fun i => (i, f s i))
      (s.pendRaw d.toNat lat (.lanes (r.map (fun p => (p.1, p.2.1)))) true).setStat s.iss.ctx
        (orFlags (r.map (fun p => p.2.2))) }

/-- The FP32 value of a lane (R67). -/
def fval (e : Elem) : FVal := fp32.decode e.val.toNat
/-- Whether a lane is NaN. -/
def isNan (e : Elem) : Bool := decide (fval e = .nan)
/-- An FP32 element from its bits. -/
def felem (b : Nat) (s : Bool) : Elem := ⟨BitVec.ofNat 32 b, s⟩
/-- The final rounding mode of an FMT image; its reserved codes never stand in FMT (R273). -/
def modeOf (fmt : W64) : RMode := (rmode (fmtRmode fmt)).getD .rne

/-- Whether a value is an exact zero. -/
def FVal.isZero : FVal → Bool
  | .fin x => decide (x.num = 0)
  | _ => false

/-- The sign of a value; a NaN has none. -/
def FVal.sign : FVal → Bool
  | .nan => false
  | .inf n => n
  | .fin x => x.neg

/-- An exact sum, where a zero that is no sum of two like-signed zeros is −0 under .fin with RDN and +0 otherwise
(R215). -/
def sumSigned (rdn : Bool) (x y : FVal) : FVal :=
  let z := FVal.add x y
  if z.isZero && (x.sign != y.sign) then FVal.zero rdn else z

/-- The result of a floating arithmetic lane: the rounding, S, and the flags; `special` marks the rows of Table 11-2
other than the first that give NaN (R215 to R219). -/
def finish (fin : Bool) (mode : RMode) (x : FVal) (srcNan : Bool) : Elem × Nat :=
  let inv := decide (x = .nan) && !srcNan
  if fin then
    let v := finFloat fp32 mode x
    (felem v false, if inv then fFNV else accrueFloat fp32 x v)
  else
    let (v, st) := ro32 x
    (felem v st, if inv then fFNV else accrueFloat fp32 x v)

/-- VADD.F, VSUB.F and VMUL.F (R215). -/
def fArith2 (d a b : Reg) (fin : Bool) (m : BitVec 3) (f : Bool → FVal → FVal → FVal) : SlotOp :=
  flagOp d [a, b] m 4 (fun s i =>
    let mode := modeOf s.fmtNow
    let x := s.v a i
    let y := s.v b i
    finish fin mode (f (fin && decide (mode = .rdn)) (fval x) (fval y)) (isNan x || isNan y))

/-- The FMA family: the product exact, one rounding (R215). -/
def fArith3 (d a b : Reg) (fin : Bool) (m : BitVec 3) (np nc : Bool) : SlotOp :=
  flagOp d [a, b, d] m 4 (fun s i =>
    let mode := modeOf s.fmtNow
    let x := s.v a i
    let y := s.v b i
    let z := s.v d i
    let p := FVal.mul (fval x) (fval y)
    let p := if np then p.negate else p
    let c := if nc then (fval z).negate else fval z
    finish fin mode (sumSigned (fin && decide (mode = .rdn)) p c) (isNan x || isNan y || isNan z))

/-- VADD.F (R215). -/
def opVaddF (d a b : Reg) (fin : Bool) (m : BitVec 3) : SlotOp := fArith2 d a b fin m sumSigned
/-- VADD.F at issue (R215). -/
def execVaddF (d a b : Reg) (fin : Bool) (m : BitVec 3) (s : State) : Result := (opVaddF d a b fin m).exec s

/-- VSUB.F (R215). -/
def opVsubF (d a b : Reg) (fin : Bool) (m : BitVec 3) : SlotOp :=
  fArith2 d a b fin m (fun rdn x y => sumSigned rdn x y.negate)
/-- VSUB.F at issue (R215). -/
def execVsubF (d a b : Reg) (fin : Bool) (m : BitVec 3) (s : State) : Result := (opVsubF d a b fin m).exec s

/-- VMUL.F (R215). -/
def opVmulF (d a b : Reg) (fin : Bool) (m : BitVec 3) : SlotOp := fArith2 d a b fin m (fun _ x y => FVal.mul x y)
/-- VMUL.F at issue (R215). -/
def execVmulF (d a b : Reg) (fin : Bool) (m : BitVec 3) (s : State) : Result := (opVmulF d a b fin m).exec s

/-- VFMA: a × b + c (R215). -/
def opVfma (d a b : Reg) (fin : Bool) (m : BitVec 3) : SlotOp := fArith3 d a b fin m false false
/-- VFMA at issue (R215). -/
def execVfma (d a b : Reg) (fin : Bool) (m : BitVec 3) (s : State) : Result := (opVfma d a b fin m).exec s

/-- VFMS: a × b − c (R215). -/
def opVfms (d a b : Reg) (fin : Bool) (m : BitVec 3) : SlotOp := fArith3 d a b fin m false true
/-- VFMS at issue (R215). -/
def execVfms (d a b : Reg) (fin : Bool) (m : BitVec 3) (s : State) : Result := (opVfms d a b fin m).exec s

/-- VFNMA: −(a × b) + c (R215). -/
def opVfnma (d a b : Reg) (fin : Bool) (m : BitVec 3) : SlotOp := fArith3 d a b fin m true false
/-- VFNMA at issue (R215). -/
def execVfnma (d a b : Reg) (fin : Bool) (m : BitVec 3) (s : State) : Result := (opVfnma d a b fin m).exec s

/-- The order of R220: −∞ < negative < −0 < +0 < positive < +∞, as a rank of the bits. -/
def frank (b : W32) : Int :=
  let mag : Nat := b.toNat % 2 ^ 31
  if b.toNat < 2 ^ 31 then (mag : Int) else -(mag : Int) - 1

/-- VMIN.F or VMAX.F of two lanes (R220). -/
def fpick (less : Bool) (x y : Elem) : Elem :=
  match isNan x, isNan y with
  | true, true => felem fp32.nanc false
  | true, false => y
  | false, true => x
  | false, false =>
    if x.val = y.val then ⟨x.val, x.s || y.s⟩
    else if decide (frank x.val < frank y.val) = less then x else y

/-- VMIN.F (R220). -/
def opVminF (d a b : Reg) (m : BitVec 3) : SlotOp := vectorOp d [a, b] [] m 2 (fun s i => fpick true (s.v a i) (s.v b i))
/-- VMIN.F at issue (R220). -/
def execVminF (d a b : Reg) (m : BitVec 3) (s : State) : Result := (opVminF d a b m).exec s

/-- VMAX.F (R220). -/
def opVmaxF (d a b : Reg) (m : BitVec 3) : SlotOp := vectorOp d [a, b] [] m 2 (fun s i => fpick false (s.v a i) (s.v b i))
/-- VMAX.F at issue (R220). -/
def execVmaxF (d a b : Reg) (m : BitVec 3) (s : State) : Result := (opVmaxF d a b m).exec s

/-- VABS keeps S; a NaN gives the canonical NaN, exact (R220). -/
def opVabs (d a : Reg) (m : BitVec 3) : SlotOp :=
  vectorOp d [a] [] m 2 (fun s i =>
    let x := s.v a i
    if isNan x then felem fp32.nanc false else ⟨x.val &&& 0x7FFFFFFF#32, x.s⟩)
/-- VABS at issue (R220). -/
def execVabs (d a : Reg) (m : BitVec 3) (s : State) : Result := (opVabs d a m).exec s

/-- VNEG keeps S; a NaN gives the canonical NaN, exact (R220). -/
def opVneg (d a : Reg) (m : BitVec 3) : SlotOp :=
  vectorOp d [a] [] m 2 (fun s i =>
    let x := s.v a i
    if isNan x then felem fp32.nanc false else ⟨x.val ^^^ 0x80000000#32, x.s⟩)
/-- VNEG at issue (R220). -/
def execVneg (d a : Reg) (m : BitVec 3) (s : State) : Result := (opVneg d a m).exec s

/-- REL of VCMP.F (R221, Table 2-5). -/
def relF (cond : Nat) (x y : FVal) : Bool :=
  let un := decide (x = .nan) || decide (y = .nan)
  match cond with
  | 0 => FVal.eqv x y
  | 1 => !(FVal.eqv x y)
  | 2 => FVal.lt x y
  | 3 => !un && !(FVal.lt y x)
  | 4 => FVal.lt y x
  | 5 => !un && !(FVal.lt x y)
  | 6 => un
  | _ => !un

/-- REL of VCMP.I (R221, Table 2-5). -/
def relI (cond : Nat) (x y : W32) : Bool :=
  match cond with
  | 0 => x == y
  | 1 => x != y
  | 2 => x.slt y
  | 3 => !(y.slt x)
  | 4 => y.slt x
  | 5 => !(x.slt y)
  | 6 => x.ult y
  | _ => !(x.ult y)

/-- VCMP.F (R221). -/
def opVcmpF (d a b : Reg) (cond : BitVec 3) : SlotOp :=
  predOp d [a, b] [] 2 (fun s i =>
    ⟨relF cond.toNat (fval (s.v a i)) (fval (s.v b i)), (s.v a i).s || (s.v b i).s⟩)
/-- VCMP.F at issue (R221). -/
def execVcmpF (d a b : Reg) (cond : BitVec 3) (s : State) : Result := (opVcmpF d a b cond).exec s

/-- VCMP.I (R221). -/
def opVcmpI (d a b : Reg) (cond : BitVec 3) : SlotOp :=
  predOp d [a, b] [] 2 (fun s i => ⟨relI cond.toNat (s.v a i).val (s.v b i).val, (s.v a i).s || (s.v b i).s⟩)
/-- VCMP.I at issue (R221). -/
def execVcmpI (d a b : Reg) (cond : BitVec 3) (s : State) : Result := (opVcmpI d a b cond).exec s

/-- The class of a lane, Table 11-5 bits 0 to 8 (R222). -/
def fclass (b : W32) : Nat :=
  let neg := decide (2 ^ 31 ≤ b.toNat)
  let c := b.toNat % 2 ^ 31
  if c = 0 then (if neg then 3 else 4)
  else if c < 2 ^ 23 then (if neg then 2 else 5)
  else if c ≤ fp32.maxFin then (if neg then 1 else 6)
  else if c = fp32.infCode then (if neg then 0 else 7)
  else 8

/-- VCLASS (R222). -/
def opVclass (d a : Reg) (imm : Imm10) : SlotOp :=
  predOp d [a] [] 2 (fun s i =>
    let x := s.v a i
    ⟨imm.raw.testBit (fclass x.val) || (imm.raw.testBit 9 && x.s), x.s⟩)
/-- VCLASS at issue (R222). -/
def execVclass (d a : Reg) (imm : Imm10) (s : State) : Result := (opVclass d a imm).exec s

/-- VSTKY (R223). -/
def opVstky (d a : Reg) : SlotOp := predOp d [a] [] 2 (fun s i => ⟨(s.v a i).s, false⟩)
/-- VSTKY at issue (R223). -/
def execVstky (d a : Reg) (s : State) : Result := (opVstky d a).exec s

/-- A 32-bit integer or logical operation: S = 0 (R224). -/
def vint (d a b : Reg) (m : BitVec 3) (f : W32 → W32 → W32) : SlotOp :=
  vectorOp d [a, b] [] m 2 (fun s i => ⟨f (s.v a i).val (s.v b i).val, false⟩)

/-- VADD.I (R224). -/
def opVaddI (d a b : Reg) (m : BitVec 3) : SlotOp := vint d a b m (· + ·)
/-- VADD.I at issue (R224). -/
def execVaddI (d a b : Reg) (m : BitVec 3) (s : State) : Result := (opVaddI d a b m).exec s

/-- VSUB.I (R224). -/
def opVsubI (d a b : Reg) (m : BitVec 3) : SlotOp := vint d a b m (· - ·)
/-- VSUB.I at issue (R224). -/
def execVsubI (d a b : Reg) (m : BitVec 3) (s : State) : Result := (opVsubI d a b m).exec s

/-- VMUL.I (R224). -/
def opVmulI (d a b : Reg) (m : BitVec 3) : SlotOp := vint d a b m (· * ·)
/-- VMUL.I at issue (R224). -/
def execVmulI (d a b : Reg) (m : BitVec 3) (s : State) : Result := (opVmulI d a b m).exec s

/-- VMULH.I (R224). -/
def opVmulhI (d a b : Reg) (m : BitVec 3) : SlotOp :=
  vint d a b m (fun x y => BitVec.ofInt 32 (x.toInt * y.toInt / (2 ^ 32 : Nat)))
/-- VMULH.I at issue (R224). -/
def execVmulhI (d a b : Reg) (m : BitVec 3) (s : State) : Result := (opVmulhI d a b m).exec s

/-- VMIN.I (R224). -/
def opVminI (d a b : Reg) (m : BitVec 3) : SlotOp := vint d a b m (fun x y => if x.slt y then x else y)
/-- VMIN.I at issue (R224). -/
def execVminI (d a b : Reg) (m : BitVec 3) (s : State) : Result := (opVminI d a b m).exec s

/-- VMAX.I (R224). -/
def opVmaxI (d a b : Reg) (m : BitVec 3) : SlotOp := vint d a b m (fun x y => if x.slt y then y else x)
/-- VMAX.I at issue (R224). -/
def execVmaxI (d a b : Reg) (m : BitVec 3) (s : State) : Result := (opVmaxI d a b m).exec s

/-- VADDS.I clamps to INT32, with S = 1 and ISAT where it clamps (R224). -/
def opVaddsI (d a b : Reg) (m : BitVec 3) : SlotOp :=
  flagOp d [a, b] m 2 (fun s i =>
    let (v, c) := (⟨32, true⟩ : IntFmt).clamp ((s.v a i).val.toInt + (s.v b i).val.toInt)
    (⟨BitVec.ofInt 32 v, c⟩, if c then fISAT else 0))
/-- VADDS.I at issue (R224). -/
def execVaddsI (d a b : Reg) (m : BitVec 3) (s : State) : Result := (opVaddsI d a b m).exec s

/-- VAND (R224). -/
def opVand (d a b : Reg) (m : BitVec 3) : SlotOp := vint d a b m (· &&& ·)
/-- VAND at issue (R224). -/
def execVand (d a b : Reg) (m : BitVec 3) (s : State) : Result := (opVand d a b m).exec s

/-- VOR (R224). -/
def opVor (d a b : Reg) (m : BitVec 3) : SlotOp := vint d a b m (· ||| ·)
/-- VOR at issue (R224). -/
def execVor (d a b : Reg) (m : BitVec 3) (s : State) : Result := (opVor d a b m).exec s

/-- VXOR (R224). -/
def opVxor (d a b : Reg) (m : BitVec 3) : SlotOp := vint d a b m (· ^^^ ·)
/-- VXOR at issue (R224). -/
def execVxor (d a b : Reg) (m : BitVec 3) (s : State) : Result := (opVxor d a b m).exec s

/-- VANDN (R224). -/
def opVandn (d a b : Reg) (m : BitVec 3) : SlotOp := vint d a b m (fun x y => x &&& ~~~y)
/-- VANDN at issue (R224). -/
def execVandn (d a b : Reg) (m : BitVec 3) (s : State) : Result := (opVandn d a b m).exec s

/-- VSHL by an unreduced count (R224). -/
def opVshl (d a b : Reg) (m : BitVec 3) : SlotOp := vint d a b m (fun x n => if n.toNat < 32 then x <<< n.toNat else 0)
/-- VSHL at issue (R224). -/
def execVshl (d a b : Reg) (m : BitVec 3) (s : State) : Result := (opVshl d a b m).exec s

/-- VSHR by an unreduced count (R224). -/
def opVshr (d a b : Reg) (m : BitVec 3) : SlotOp := vint d a b m (fun x n => if n.toNat < 32 then x >>> n.toNat else 0)
/-- VSHR at issue (R224). -/
def execVshr (d a b : Reg) (m : BitVec 3) (s : State) : Result := (opVshr d a b m).exec s

/-- VSAR by an unreduced count (R224). -/
def opVsar (d a b : Reg) (m : BitVec 3) : SlotOp := vint d a b m (fun x n => x.sshiftRight (min n.toNat 31))
/-- VSAR at issue (R224). -/
def execVsar (d a b : Reg) (m : BitVec 3) (s : State) : Result := (opVsar d a b m).exec s

/-- The predicate register a 4-bit field names. -/
def kreg (k : BitVec 4) : Reg := k.zeroExtend 6

/-- VSEL: value and S of lane a or b by the value bit of k (R225). -/
def opVsel (d a b : Reg) (k : BitVec 4) : SlotOp :=
  vectorOp d [a, b] [.k k.toNat] 0 2 (fun s i => if (s.k (kreg k) i).value then s.v a i else s.v b i)
/-- VSEL at issue (R225). -/
def execVsel (d a b : Reg) (k : BitVec 4) (s : State) : Result := (opVsel d a b k).exec s

/-- VMOV (R226). -/
def opVmov (d a : Reg) (m : BitVec 3) : SlotOp := vectorOp d [a] [] m 2 (fun s i => s.v a i)
/-- VMOV at issue (R226). -/
def execVmov (d a : Reg) (m : BitVec 3) (s : State) : Result := (opVmov d a m).exec s

/-- VMOVI without a literal: imm16 in the top half (R227). -/
def opVmovi (d : Reg) (imm : BitVec 16) : SlotOp :=
  vectorOp d [] [] 0 2 (fun _ _ => ⟨BitVec.ofNat 32 (imm.toNat * 2 ^ 16), false⟩)
/-- VMOVI at issue (R227). -/
def execVmovi (d : Reg) (imm : BitVec 16) (s : State) : Result := (opVmovi d imm).exec s

/-- VMOVI with a literal: the low 32 bits of the extended value (R227). -/
def opVmoviW (d : Reg) (imm : BitVec 16) (lit : BitVec 30) : SlotOp :=
  vectorOp d [] [] 0 2 (fun _ _ => ⟨BitVec.ofInt 32 (litInt 16 imm.toNat (some lit)), false⟩)
/-- VMOVI.W at issue (R227). -/
def execVmoviW (d : Reg) (imm : BitVec 16) (lit : BitVec 30) (s : State) : Result := (opVmoviW d imm lit).exec s

/-- The FP32 element that a narrower pattern widens to, exactly (R55). -/
def widen (f : FloatFmt) (b : Nat) : W32 := BitVec.ofNat 32 (ro32 (f.decode b)).1

/-- One lane of VCVT (R228, Table 11-7). -/
def vcvtLane (op sel : Nat) (x : Elem) : Elem × Nat :=
  let fromInt (f : IntFmt) : Elem × Nat :=
    let e : FVal := .fin (Ex.ofInt (intVal f x.val.toNat))
    let (v, st) := ro32 e
    (felem v (x.s || st), accrueFloat fp32 e v)
  let toInt (f : IntFmt) : Elem × Nat :=
    let e := fval x
    let (v, c) := finInt f .rtz e
    let same := match e with
      | .fin _ => FVal.eqv (.fin (Ex.ofInt v)) e
      | _ => false
    (⟨BitVec.ofInt 32 v, x.s || !same⟩, accrueInt e v c)
  let half (f : FloatFmt) (w : Nat) : Elem × Nat := (⟨widen f (x.val.toNat / 2 ^ (w * sel) % 2 ^ w), x.s⟩, 0)
  match op with
  | 0 => fromInt ⟨32, true⟩
  | 1 => fromInt ⟨32, false⟩
  | 2 => toInt ⟨32, true⟩
  | 3 => toInt ⟨32, false⟩
  | 4 => half fp16 16
  | 5 => half bf16 16
  | 6 => half f8e4 8
  | _ => half f8e5 8

/-- VCVT (R228). -/
def opVcvt (d a : Reg) (imm : Imm10) : SlotOp :=
  flagOp d [a] 0 4 (fun s i => vcvtLane (imm.raw % 8) (imm.raw / 16 % 4) (s.v a i))
/-- VCVT at issue (R228). -/
def execVcvt (d a : Reg) (imm : Imm10) (s : State) : Result := (opVcvt d a imm).exec s

/-- One lane of VRO (R229). -/
def vroLane (f : FloatFmt) (x : Elem) : Elem × Nat :=
  let (t, st) := roundOdd f (fval x)
  (⟨widen f t, x.s || st⟩, accrueFloat f (fval x) t)

/-- VRO (R229). -/
def opVro (d a : Reg) (imm : Imm10) : SlotOp :=
  flagOp d [a] 0 4 (fun s i =>
    match numFmt imm.raw with
    | .float f => vroLane f (s.v a i)
    | _ => (s.v a i, 0))
/-- VRO at issue (R229). -/
def execVro (d a : Reg) (imm : Imm10) (s : State) : Result := (opVro d a imm).exec s

/-- One lane of VFIN (R230). -/
def vfinLane (fmt : Nat) (mode : RMode) (x : Elem) : Elem × Nat :=
  match numFmt fmt with
  | .float f =>
    let y := finFloat f mode (fval x)
    (⟨widen f y, false⟩, accrueFloat f (fval x) y)
  | .int f =>
    let (y, c) := finInt f mode (fval x)
    (⟨BitVec.ofInt 32 y, false⟩, accrueInt (fval x) y c)
  | _ => (x, 0)

/-- The mode a 3-bit mode field names: 7 is the mode of FMT at issue (R230, R279). -/
def modeField (c : Nat) (fmt : W64) : RMode := if c = 7 then modeOf fmt else (rmode c).getD .rne

/-- VFIN (R230). -/
def opVfin (d a : Reg) (imm : Imm10) : SlotOp :=
  flagOp d [a] 0 4 (fun s i => vfinLane (imm.raw % 16) (modeField (imm.raw / 16 % 8) s.fmtNow) (s.v a i))
/-- VFIN at issue (R230). -/
def execVfin (d a : Reg) (imm : Imm10) (s : State) : Result := (opVfin d a imm).exec s

/-- VCLRS (R231). -/
def opVclrs (d a : Reg) (m : BitVec 3) : SlotOp := vectorOp d [a] [] m 2 (fun s i => ⟨(s.v a i).val, false⟩)
/-- VCLRS at issue (R231). -/
def execVclrs (d a : Reg) (m : BitVec 3) (s : State) : Result := (opVclrs d a m).exec s

end Sys2Proof.Machine
end

