-- ==== Sys2Proof/Machine/Movement.lean ====
section
/-! DEFINITION. Lane groups, data movement, reductions and bit operations (R233 to R249). -/

namespace Sys2Proof.Machine

/-- VPERM permutes within each group by the low four bits of the index lane (R235). -/
def opVperm (d a b : Reg) (m : BitVec 3) : SlotOp :=
  vectorOp d [a, b] [] m 2 (fun s i => s.v a (i / 16 * 16 + (s.v b i).val.toNat % 16))
/-- VPERM at issue (R235). -/
def execVperm (d a b : Reg) (m : BitVec 3) (s : State) : Result := (opVperm d a b m).exec s

/-- VROT rotates each group (R236). -/
def opVrot (d a : Reg) (imm : Imm10) : SlotOp :=
  vectorOp d [a] [] 0 2 (fun s i => s.v a (i / 16 * 16 + (i % 16 + imm.int.toNat) % 16))
/-- VROT at issue (R236). -/
def execVrot (d a : Reg) (imm : Imm10) (s : State) : Result := (opVrot d a imm).exec s

/-- The source group of group G under XG.MOV (R237, Table 12-1). -/
def xgGroup (kind k g : Nat) : Nat :=
  match kind with
  | 0 => (g + k) % 8
  | 1 => (g ^^^ k) % 8
  | _ => k
/-- XG.MOV (R237). -/
def opXgMov (d a : Reg) (imm : Imm10) : SlotOp :=
  vectorOp d [a] [] 0 6 (fun s i => s.v a (xgGroup (imm.raw / 256 % 4) (imm.raw % 8) (i / 16) * 16 + i % 16))
/-- XG.MOV at issue (R237). -/
def execXgMov (d a : Reg) (imm : Imm10) (s : State) : Result := (opXgMov d a imm).exec s

/-- XG.BCAST (R238). -/
def opXgBcast (d a : Reg) (imm : Imm10) : SlotOp := vectorOp d [a] [] 0 6 (fun s _ => s.v a imm.int.toNat)
/-- XG.BCAST at issue (R238). -/
def execXgBcast (d a : Reg) (imm : Imm10) (s : State) : Result := (opXgBcast d a imm).exec s

/-- VBCAST (R239). -/
def opVbcast (d a : Reg) (m : BitVec 3) : SlotOp :=
  vectorOp d [] (gref a) m 2 (fun s _ => ⟨(s.g a).setWidth 32, false⟩)
/-- VBCAST at issue (R239). -/
def execVbcast (d a : Reg) (m : BitVec 3) (s : State) : Result := (opVbcast d a m).exec s

/-- VGET: value and S into a scalar register (R240). -/
def opVget (d a : Reg) (imm : Imm10) : SlotOp :=
  { scalarOp d [] 6 (fun s =>
      let e := s.v a imm.int.toNat
      BitVec.ofNat 64 (e.val.toNat + (if e.s then 2 ^ 32 else 0))) with
    pops := [a], reads := vref a }
/-- VGET at issue (R240). -/
def execVget (d a : Reg) (imm : Imm10) (s : State) : Result := (opVget d a imm).exec s

/-- VSET writes one lane at its landing, leaving the others as they stand then (R241). -/
def opVset (d a : Reg) (imm : Imm10) : SlotOp :=
  { SlotOp.plain (fun s =>
      s.pendRaw d.toNat 6 (.lanes [(imm.int.toNat, ⟨(s.g a).setWidth 32, bit (s.g a) 32⟩)]) true) with
    reads := gref a, writes := wr (vdst d) 6 }
/-- VSET at issue (R241). -/
def execVset (d a : Reg) (imm : Imm10) (s : State) : Result := (opVset d a imm).exec s

/-- The exact sum of some lanes, rounded once, with its flags (R242): NaN when a lane is NaN, or both infinities are
present, the second with FNV. -/
def sumLanes (l : List Elem) : Elem × Nat :=
  if l.any isNan then (felem fp32.nanc false, 0)
  else
    match l.map fval with
    | [] => (felem 0 false, 0)
    | x :: t => finish false .rne (t.foldl FVal.add x) false

/-- The largest or smallest value among the lanes that are no NaN, with the OR of the S bits of the lanes that hold it
(R242). -/
def extremeLanes (less : Bool) (l : List Elem) : Elem :=
  match l.filter (fun e => !isNan e) with
  | [] => felem fp32.nanc false
  | x :: t =>
    let best := t.foldl (fun b e => if decide (frank e.val < frank b.val) = less ∧ e.val ≠ b.val then e else b) x
    ⟨best.val, (x :: t).any (fun e => decide (e.val = best.val) && e.s)⟩

/-- Combines lanes by an operator of Table 12-2; an empty set gives the identity (R242, R244). -/
def reduceLanes (op : Nat) (l : List Elem) : Elem × Nat :=
  match op with
  | 0 => sumLanes l
  | 1 => (if l.isEmpty then felem 0xFF800000 false else extremeLanes false l, 0)
  | 2 => (if l.isEmpty then felem 0x7F800000 false else extremeLanes true l, 0)
  | 3 => (⟨l.foldl (fun a e => a + e.val) 0, false⟩, 0)
  | 4 => (⟨l.foldl (fun a e => if a.slt e.val then e.val else a) 0x80000000#32, false⟩, 0)
  | 5 => (⟨l.foldl (fun a e => if e.val.slt a then e.val else a) 0x7FFFFFFF#32, false⟩, 0)
  | 6 => (⟨l.foldl (fun a e => a &&& e.val) 0xFFFFFFFF#32, false⟩, 0)
  | _ => (⟨l.foldl (fun a e => a ||| e.val) 0, false⟩, 0)

/-- VRED: the whole register or each group (R243). -/
def opVred (d a : Reg) (imm : Imm10) : SlotOp :=
  flagOp d [a] 0 8 (fun s i =>
    let ls := if imm.raw / 8 % 2 = 1 then (List.range 16).map (fun p => i / 16 * 16 + p) else lanes
    reduceLanes (imm.raw % 8) (ls.map (s.v a)))
/-- VRED at issue (R243). -/
def execVred (d a : Reg) (imm : Imm10) (s : State) : Result := (opVred d a imm).exec s

/-- VSCAN: each lane its own prefix, rounded once (R244). -/
def opVscan (d a : Reg) (imm : Imm10) : SlotOp :=
  flagOp d [a] 0 8 (fun s i =>
    let first := if imm.raw / 8 % 2 = 1 then i / 16 * 16 else 0
    let n := i - first + (if imm.raw / 16 % 2 = 1 then 0 else 1)
    reduceLanes (imm.raw % 8) ((List.range n).map (fun p => s.v a (first + p))))
/-- VSCAN at issue (R244). -/
def execVscan (d a : Reg) (imm : Imm10) (s : State) : Result := (opVscan d a imm).exec s

/-- One lane of MRED: whether it leads its key, and its value with flags (R245). -/
def mredLane (op : Nat) (s : State) (a b : Reg) (i : Nat) : Bool × Elem × Nat :=
  let key := (s.v a i).val
  let set := lanes.filter (fun j => (s.v a j).val == key)
  if key = 0xFFFFFFFF#32 ∨ set.head? ≠ some i then (false, s.v b i, 0)
  else
    let (e, fl) := reduceLanes op (set.map (s.v b))
    (true, e, fl)

/-- MRED: the leaders of each key take the combined value, and k receives the leader mask (R245). -/
def mredOp (op : Nat) (d a b : Reg) (k : BitVec 4) : SlotOp :=
  { SlotOp.plain (fun s =>
      let r := lanes.map (fun i => (i, mredLane op s a b i))
      let s1 := s.pendRaw d.toNat 12 (.lanes (r.map (fun p => (p.1, p.2.2.1)))) true
      let s2 := s1.pendRaw k.toNat 12 (.pred (r.map (fun p => (p.1, ⟨p.2.1, p.2.1 && p.2.2.1.s⟩)))) true
      s2.setStat s.iss.ctx (orFlags (r.map (fun p => p.2.2.2)))) with
    phase := 1, pops := [a, b], reads := vref a ++ vref b, writes := wr (vdst d ++ [.k k.toNat]) 12 }
/-- MRED.F (R245). -/
def opMredF (d a b : Reg) (k : BitVec 4) : SlotOp := mredOp 0 d a b k
/-- MRED.F at issue (R245). -/
def execMredF (d a b : Reg) (k : BitVec 4) (s : State) : Result := (opMredF d a b k).exec s

/-- MRED.I (R245). -/
def opMredI (d a b : Reg) (k : BitVec 4) : SlotOp := mredOp 3 d a b k
/-- MRED.I at issue (R245). -/
def execMredI (d a b : Reg) (k : BitVec 4) (s : State) : Result := (opMredI d a b k).exec s

/-- A bit field of a 32-bit lane under its control lane (R246, Table 12-3). -/
def vbfxLane (x c : W32) : W32 :=
  let ctl := c.toNat
  let n := min (ctl / 2 ^ 8 % 2 ^ 6) 32
  let sgn := decide (ctl / 2 ^ 15 % 2 = 1)
  if n = 0 then 0
  else
    let v : Int := if sgn then x.toInt else (x.toNat : Int)
    let f := (v / (2 ^ (ctl % 32) : Nat)) % (2 ^ n : Nat)
    if sgn then (sext64 n f.toNat).setWidth 32 else BitVec.ofInt 32 f
/-- VBFX (R246). -/
def opVbfx (d a b : Reg) (m : BitVec 3) : SlotOp := vint d a b m vbfxLane
/-- VBFX at issue (R246). -/
def execVbfx (d a b : Reg) (m : BitVec 3) (s : State) : Result := (opVbfx d a b m).exec s

/-- VFSHR: the pair v[a+1] : v[a] shifted right (R247). -/
def opVfshr (d a : Reg) (imm : Imm10) : SlotOp :=
  vectorOp d [a, a + 1] [] 0 2 (fun s i =>
    ⟨BitVec.ofNat 32 (((s.v (a + 1) i).val.toNat * 2 ^ 32 + (s.v a i).val.toNat) / 2 ^ imm.int.toNat), false⟩)
/-- VFSHR at issue (R247). -/
def execVfshr (d a : Reg) (imm : Imm10) (s : State) : Result := (opVfshr d a imm).exec s

/-- VPOPC (R248). -/
def opVpopc (d a : Reg) (m : BitVec 3) : SlotOp :=
  vectorOp d [a] [] m 2 (fun s i => ⟨BitVec.ofNat 32 ((List.range 32).countP (fun j => (s.v a i).val.getLsbD j)), false⟩)
/-- VPOPC at issue (R248). -/
def execVpopc (d a : Reg) (m : BitVec 3) (s : State) : Result := (opVpopc d a m).exec s

/-- VCLZ; of zero 32 (R248). -/
def opVclz (d a : Reg) (m : BitVec 3) : SlotOp :=
  vectorOp d [a] [] m 2 (fun s i =>
    let x := (s.v a i).val
    ⟨BitVec.ofNat 32 (if x = 0 then 32 else 31 - x.toNat.log2), false⟩)
/-- VCLZ at issue (R248). -/
def execVclz (d a : Reg) (m : BitVec 3) (s : State) : Result := (opVclz d a m).exec s

/-- KAND: doubt is the OR (R178, R249). -/
def opKand (d a b : Reg) : SlotOp :=
  predOp d [] [.k a.toNat, .k b.toNat] 2 (fun s i =>
    ⟨(s.k a i).value && (s.k b i).value, (s.k a i).doubt || (s.k b i).doubt⟩)
/-- KAND at issue (R249). -/
def execKand (d a b : Reg) (s : State) : Result := (opKand d a b).exec s

/-- KOR: doubt is the OR (R178, R249). -/
def opKor (d a b : Reg) : SlotOp :=
  predOp d [] [.k a.toNat, .k b.toNat] 2 (fun s i =>
    ⟨(s.k a i).value || (s.k b i).value, (s.k a i).doubt || (s.k b i).doubt⟩)
/-- KOR at issue (R249). -/
def execKor (d a b : Reg) (s : State) : Result := (opKor d a b).exec s

/-- KNOT keeps doubt (R249). -/
def opKnot (d a : Reg) : SlotOp := predOp d [] [.k a.toNat] 2 (fun s i => ⟨!(s.k a i).value, (s.k a i).doubt⟩)
/-- KNOT at issue (R249). -/
def execKnot (d a : Reg) (s : State) : Result := (opKnot d a).exec s

end Sys2Proof.Machine
end

