-- ==== Sys2Proof/Machine/Fabric.lean ====
section
/-! DEFINITION. The functions that the host ports present and which of their requests are taken (R430, R440), the pod table
(R360), and the scale-out ports: what a frame holds, how it leaves, and how frames are acknowledged (R443, R445). -/

namespace Sys2Proof.Machine

/-! Functions (R430, R440). -/

/-- A function of the device; 64 and 65 are the physical functions of ports 0 and 1. -/
def State.vf (s : State) (n : Nat) : Vf := mapGet Vf.reset s.vfs n
/-- Changes a function. -/
def State.modVf (s : State) (n : Nat) (f : Vf → Vf) : State := { s with vfs := mapPut s.vfs n (f (s.vf n)) }
/-- Physical function 0, whose mailbox answers the driver (R438, R447, R449). -/
def pf0 : Nat := 64
/-- The host port that presents a function: virtual function n on port n >> 5 (R430). -/
def portOfFunction (n : Nat) : Nat := if n < 64 then n / 32 else n - 64
/-- Answers a request in a function's mailbox. -/
def State.answer (s : State) (n : Nat) (st : HostStatus) (bs : List Byte) : State :=
  s.modVf n (fun x => { x with status := st, answer := bs })

/-- Whether a request to a BAR of a function is turned away by its TDISP state (R440): in RUN every request but one on its
selective IDE stream, once that is set up, with the TEE bit; and in ERROR every one. -/
def Vf.closed (v : Vf) (tee : Bool) : Bool :=
  decide (v.tdisp = .error) || (decide (v.tdisp = .run) && !(tee && v.ide.isSome))

/-! The pod table (R360). -/

/-- This module's number in the pod (R444). -/
def State.ownModule (s : State) : Nat := bits (s.modCtl 0x228) 8 0

/-- The VA of the pod table. -/
def State.podVa (s : State) : Nat := bits (s.modCtl 0x1B4) 55 6 * 64

/-- The pod link at a port of a module, as die d reads the table: its number, the peer, and the peer's port. -/
def State.podPeer (s : State) (d m p : Nat) : State × Option (Nat × Nat × Nat) :=
  match s.readVa d (s.podVa + 4 * (16 * m + p)) 4 with
  | (s1, none) => (s1, none)
  | (s1, some bs) =>
    let e := leNat bs
    let peer := e / 2 ^ 22 % 512
    let port := e / 2 ^ 18 % 16
    if e / 2 ^ 31 % 2 = 0 then (s1, none) else (s1, some (if m < peer then 16 * m + p else 16 * peer + port, peer, port))

/-- The pod link at a port of a module: its number and the peer. -/
def State.podEntry (s : State) (d m p : Nat) : State × Option (Nat × Nat) :=
  match s.podPeer d m p with
  | (s1, x) => (s1, x.map (fun y => (y.1, y.2.1)))

/-- The die whose translation the agents use for the pod table: the lowest that is live. -/
def State.podDie (s : State) : Nat := (allDies.find? s.dieLive).getD 0

/-- The port of this module that a pod link leaves by, as die b reads the table. -/
def State.portOf (s : State) (b j : Nat) : Option Nat :=
  (List.range 16).find? (fun p => decide (((s.podEntry b s.ownModule p).2.map (fun e => e.1)) = some j))

/-- Whether the live bitmap shows a pod link up. -/
def State.podLive (s : State) (d j : Nat) : State × Bool :=
  match s.readVa d (s.podVa + 32768 + j / 8) 1 with
  | (s1, some (b :: _)) => (s1, b.getLsbD (j % 8))
  | (s1, _) => (s1, false)

/-- The links of a module: number, peer, and whether it is live. -/
def State.podLinks (s : State) (d m : Nat) : State × List (Nat × Nat × Bool) :=
  (List.range 16).foldl (fun u p =>
    match u.1.podEntry d m p with
    | (s1, none) => (s1, u.2)
    | (s1, some (j, peer)) =>
      let r := s1.podLive d j
      (r.1, u.2 ++ [(j, peer, r.2)])) (s, [])

/-- The first link of the path from the root of a tree to a vertex. -/
def firstHop (tree : List TreeEdge) (root : Nat) : Nat → Nat → Option Nat
  | 0, _ => none
  | n + 1, m =>
    match tree.find? (fun e => decide (e.child = m)) with
    | none => none
    | some e => if e.parent = root then some e.link else firstHop tree root n e.parent

/-- The tree by which this module reaches others over live pod links, as die d reads the table: `todo` are the modules whose
links are still to be followed, `seen` those it holds. -/
def State.spread (s : State) (d : Nat) : Nat → List Nat → List Nat → List TreeEdge → State × List TreeEdge
  | 0, _, _, tree => (s, tree)
  | _ + 1, [], _, tree => (s, tree)
  | n + 1, m :: todo, seen, tree =>
    let (s1, ls) := s.podLinks d m
    let new := ls.foldl (fun acc l =>
      if l.2.2 && decide (l.2.1 ∉ seen) && acc.all (fun e => decide (e.child ≠ l.2.1)) then acc ++ [⟨l.1, l.2.1, m⟩] else acc)
      ([] : List TreeEdge)
    s1.spread d n (todo ++ new.map (fun e => e.child)) (seen ++ new.map (fun e => e.child)) (tree ++ new)

/-- The tree that this module's messages to the pod travel by. DESIGN CHOICE: the shortest paths over the live links, the lower
ports first; the manual names no route. -/
def State.podRoutes (s : State) : State × List TreeEdge := s.spread s.podDie 512 [s.ownModule] [s.ownModule] []

/-! Frames (R443, R445). -/

/-- KIND of Table 24-9. -/
def msgKind : FabricMsg → Nat
  | .write _ _ => 0
  | .partials _ _ _ _ _ _ => 0
  | .output _ _ _ _ _ => 0
  | .ack => 1
  | .atomic _ _ => 2
  | .reply _ => 2
  | _ => 3

/-- The flits of a message, 1 to 64 of 64 bytes: plain data as it is, and bytes that the manual does not lay out for the
rest. -/
def msgFlits (m : FabricMsg) : List Byte :=
  let bs := (match m with
    | .write _ x => x
    | .output _ _ _ _ x => x
    | _ => Config.flits m).take 4096
  let n := max 1 ((bs.length + 63) / 64)
  bs ++ List.replicate (64 * n - bs.length) 0

/-- The 16-byte fabric header of Table 24-9. -/
def fabricHeader (dst src cls seq ptag kind nflit : Nat) : List Byte :=
  leBytes 4 (dst % 512 + src % 512 * 2 ^ 9 + cls % 8 * 2 ^ 18) ++ leBytes 4 seq ++ leBytes 2 ptag ++ leBytes 1 kind ++
    leBytes 1 (nflit - 1) ++ leBytes 4 0

/-- The payload of a frame: its header and its flits. -/
def framePayload (f : Frame) : List Byte :=
  let fl := msgFlits f.msg
  fabricHeader f.dst f.src f.cls f.seq f.ptag.toNat (msgKind f.msg) (fl.length / 64) ++ fl

/-- The MAC address of port p of module m (R443): 02:57:59, then the 24 bits (m << 15) | (p << 11). -/
def portMac (m p : Nat) : Nat := 0x025759 * 2 ^ 24 + (m % 512 * 2 ^ 15 ||| p % 16 * 2 ^ 11)

/-- The Ethernet II frame, with EtherType 0x88B5 (R445); the address fields stand with their first byte first. -/
def frameBytes (f : Frame) (dstMac srcMac : Nat) : List Byte :=
  (leBytes 6 dstMac).reverse ++ (leBytes 6 srcMac).reverse ++ [0x88#8, 0xB5#8] ++ framePayload f

/-- The partition that a tag names (R445): a non-zero PTAG it matches. -/
def State.partOfTag (s : State) (t : Nat) : Option Nat :=
  if t = 0 then none else (s.parts.find? (fun p => decide (p.2.ptag = t))).map (fun p => p.1)

/-- Whether a partition accepts a tag (R445). -/
def State.acceptsPtag (s : State) (t : Nat) : Bool := decide (t ≠ 0) && s.parts.any (fun p => decide (p.2.ptag = t))

/-- A port. -/
def State.port (s : State) (p : Nat) : PodPort := mapGet PodPort.reset s.pod p

/-- Puts some frames, each with its partition, on a port's link, sealed under that partition's key (R443): no frame of a partition
leaves without. DESIGN CHOICE: where the pod table names no peer, the destination address is the broadcast address. -/
def State.putWire (s : State) (p : Nat) (fs : List (Nat × Frame)) : State :=
  let peer := (s.podPeer s.podDie s.ownModule p).2
  let mac := match peer with
    | some (_, m, q) => portMac m q
    | none => 2 ^ 48 - 1
  let sealedOf (f : Nat × Frame) : Option (List Byte) :=
    (s.part f.1).macKey.map (fun k => Config.sealed k.toNat (frameBytes f.2 mac (portMac s.ownModule p)))
  { s with pod := mapMod PodPort.reset s.pod p (fun x => { x with wire := x.wire ++ fs.filterMap sealedOf }) }

/-- Sends a message of a module out of a port: it takes the port's next sequence number and stays until it is acknowledged
(R445). -/
def State.sendFrom (s : State) (part p dst src cls : Nat) (m : FabricMsg) : State :=
  let x := s.port p
  if x.down then s
  else
    let f : Frame := ⟨dst, src, cls, x.sendSeq, BitVec.ofNat 16 (s.part part).ptag, m⟩
    ({ s with pod := mapPut s.pod p { x with
      sendSeq := (x.sendSeq + 1) % 2 ^ 32, unacked := x.unacked ++ [(part, f)] } } : State).putWire p [(part, f)]

/-- Sends a message of this module out of a port. -/
def State.sendMsg (s : State) (part p dst cls : Nat) (m : FabricMsg) : State := s.sendFrom part p dst s.ownModule cls m

/-- Sends some bytes in frames of at most 64 flits, in order. -/
def State.sendBytes (s : State) (part p dst cls : Nat) (msg : List Byte → FabricMsg) : Nat → List Byte → State
  | 0, _ => s
  | n + 1, bs =>
    if bs.isEmpty then s
    else (s.sendMsg part p dst cls (msg (bs.take 4096))).sendBytes part p dst cls msg n (bs.drop 4096)

/-- Acknowledges every frame of a port up to a sequence number (R445). -/
def State.acknowledge (s : State) (part p seq : Nat) (f : Frame) : State :=
  s.putWire p [(part, ⟨f.src, s.ownModule, f.cls, seq, f.ptag, .ack⟩)]

/-- Sends a message of a partition to the peer at every port but one, where the pod table names one (R360). -/
def State.tellPeers (s : State) (part but : Nat) (m : FabricMsg) : State :=
  (List.range 16).foldl (fun u p =>
    if p = but then u
    else
      match (u.podEntry u.podDie u.ownModule p).2 with
      | none => u
      | some (_, peer) => u.sendMsg part p peer 0 m) s

/-- Sends a frame on towards the module it is for, over the pod's live links. -/
def State.passOn (s : State) (part : Nat) (f : Frame) : State :=
  let (s1, tree) := s.podRoutes
  match (firstHop tree s1.ownModule 512 f.dst).bind (s1.portOf s1.podDie) with
  | some p => s1.sendFrom part p f.dst f.src f.cls f.msg
  | none => s1

/-- Sends a message of a partition to every module that the pod's live links reach (R12). -/
def State.tellPod (s : State) (part : Nat) (m : FabricMsg) : State :=
  let (s1, tree) := s.podRoutes
  tree.foldl (fun u e =>
    match (firstHop tree u.ownModule 512 e.child).bind (u.portOf u.podDie) with
    | some p => u.sendMsg part p e.child 0 m
    | none => u) s1

end Sys2Proof.Machine
end

