-- ==== Sys2Proof/Machine/Atomic.lean ====
section
/-! DEFINITION. Scopes (R13, R344, R345), the atomic engines (R352 to R355, R417): the clock of an engine, the requests that
wait for it, and what an operation does; and the accesses that have issued and are not performed yet (R341, R347). -/

namespace Sys2Proof.Machine

/-- Applies a function some number of times. -/
def iter (f : State → State) : Nat → State → State
  | 0, s => s
  | n + 1, s => iter f n (f s)

/-! Scopes. -/

/-- Whether a location homed on die `home` lies in a scope of the issuing die. -/
def inScope (sc home d : Nat) : Bool := decide (4 ≤ sc) || decide (home = d)

/-- Sets SCOPEMISS where a location lies outside its operation's scope (R345). -/
def State.scopeCheck (s : State) (sc home : Nat) : State :=
  if inScope sc home s.cd then s else s.setStat s.iss.ctx 64

/-! The copy clock, as an engine counts its cycles (R353, R415, R417). -/

/-- The reference ticks that the cycles of a clock of divisor v take from its count's time on: `n` of them. -/
def CopyClock.ticks (c : CopyClock) (v n : Nat) : Nat := v * (n + min n c.slow)

/-- The whole cycles of divisor v that have passed since the count's time. -/
def CopyClock.passed (c : CopyClock) (v now : Nat) : Nat :=
  let e := now - c.since
  if e < 2 * v * c.slow then e / max (2 * v) 1 else c.slow + (e - 2 * v * c.slow) / max v 1

/-- The number of the cycle that runs now. -/
def CopyClock.cycle (c : CopyClock) (v now : Nat) : Nat := if now < c.since then c.count - 1 else c.count + c.passed v now

/-- When the next cycle begins. -/
def CopyClock.next (c : CopyClock) (v now : Nat) : Nat :=
  if now < c.since then c.since else c.since + c.ticks v (c.passed v now + 1)

/-- The count taken up anew at a boundary between two cycles, as a change of divisor takes effect there (R417); a droop trip
stretches the six cycles that follow (R415). -/
def CopyClock.rebase (c : CopyClock) (v now : Nat) (trip : Bool) : CopyClock :=
  let here := decide (c.since ≤ now) && decide (c.since + c.ticks v (c.passed v now) = now)
  let n := if here then c.cycle v now else c.cycle v now + 1
  ⟨n, if here then now else c.next v now, if trip then 6 else c.slow - (n - c.count)⟩

/-- A die's copy-clock cycle. -/
def State.copyCycle (s : State) (d : Nat) : Nat := (s.die d).clock.cycle (s.copyDiv d) s.now

/-- The copy divisor of a die may have changed, from `old`: the engine counts on with the new one from the end of its cycle
(R417), and the refreshes under way in slice scratch take the rest of their cycles at it (R144). -/
def State.recopy (s : State) (d old : Nat) : State :=
  if s.copyDiv d = old then s
  else
    (s.modDie d (fun x => { x with clock := x.clock.rebase old s.now false })).retimeTimers (fun t e =>
      match e.ev, e.arg with
      | .refreshComplete, .n k _ _ => if k = 4096 + d then s.rescale d old (s.copyDiv d) t else t
      | _, _ => t)

/-! Operations (Table 18-4). -/

/-- The new value of an operation, none where it writes nothing (Table 18-4). The operations are numbered in the table's
order: AADD, AFADD, AMIN, AMAX, AMINU, AMAXU, AAND, AOR, AXOR, AXCHG, ACAS. -/
def atomicNew (op size : Nat) (old x cmp : W64) : Option W64 :=
  let sx (v : W64) : Int := (sext64 (8 * size) v.toNat).toInt
  match op with
  | 0 => some (old + x)
  | 1 => some (BitVec.ofNat 64 (finFloat fp32 .rne
      (sumSigned false (fp32.decode (old.toNat % 2 ^ 32)) (fp32.decode (x.toNat % 2 ^ 32)))))
  | 2 => some (if sx x < sx old then x else old)
  | 3 => some (if sx old < sx x then x else old)
  | 4 => some (if x < old then x else old)
  | 5 => some (if old < x then x else old)
  | 6 => some (old &&& x)
  | 7 => some (old ||| x)
  | 8 => some (old ^^^ x)
  | 9 => some x
  | _ => if old = cmp then some x else none

/-- The low bytes of a word. -/
def lowBytes (size : Nat) (x : W64) : W64 := BitVec.ofNat 64 (x.toNat % 2 ^ (8 * size))

/-- Moves a line to the front of an engine's 64 entries; an entry that leaves, the least recently used, is written back to
the home slice store, where its line is dirty (R75, R352). -/
def State.useEntry (s : State) (home line : Nat) : State :=
  let l := line :: (s.die home).entries.filter (fun y => decide (y ≠ line))
  (s.modDie home (fun x => { x with entries := l.take 64 })).cacheLines ((l.drop 64).map (fun y => y * 64)) true

/-- Performs one operation at a place: the old value, and none where the granule is uncorrectable (R354). -/
def State.atomicAt (s : State) (key size op : Nat) (x cmp : W64) : State × Option W64 :=
  let keys := (List.range size).map (fun i => key + i)
  let s0 := s.useEntry (homeOf key) (placeOf key / 64)
  if s0.uncorr keys then (s0, none)
  else
    let old : W64 := BitVec.ofNat 64 (leNat (s0.mbytes keys))
    match atomicNew op size old (lowBytes size x) (lowBytes size cmp) with
    | none => (s0, some old)
    | some v => (((s0.setMbytes keys (leBytes size v.toNat)).prompt keys 0).prompt keys 24, some old)

/-- Marks a pending write of a context as arrived with its payload (R182). -/
def State.arrive (s : State) (c seq : Nat) (p : Payload) : State :=
  s.modCtx c (fun x => { x with pend := x.pend.map (fun w =>
    if w.seq = seq then { w with payload := p, arrived := true } else w) })

/-- Gives an operation's old value to who asked for it: zero-extended, or, where the granule was uncorrectable, a fault at the
landing (R354). The manual gives no old value to a host or a module that meets such a granule, and it is left open. -/
def State.atomicReply (s : State) (r : AtomicReq) (old : Option W64) : State :=
  let (s1, v) := match old with
    | some v => (s, v)
    | none => (s.spend, Config.freeWord s.free)
  match r.asker with
  | .write c seq => s.arrive c seq (match old with | some v => .scalar v | none => .fault (Stop.of 0x09) (some 0))
  | .function n => s1.answer n .success (leBytes r.size v.toNat)
  | .frame part p dst cls => s1.sendMsg part p dst cls (.reply v)
  | .access => s1

/-- Performs a request: its old value is the result (R354). -/
def State.doAtomic (s : State) (r : AtomicReq) : State :=
  match s.atomicAt r.key r.size r.op r.x r.cmp with
  | (s1, old) => s1.atomicReply r old

/-! The engine (R353). -/

/-- The source number at an engine of a unit of die d whose number on its own die is `own` (R353): a unit of another die arrives
through one of the four link ports. DESIGN CHOICE: the manual names no route; the port is that of the column link, 69 or 70,
where the dies' columns differ, the shorter way round, and of the row link, 71 or 72, where they do not. -/
def sourceAt (home d own : Nat) : Nat :=
  if d = home then own
  else if d % 8 ≠ home % 8 then (if (d % 8 + 8 - home % 8) % 8 ≤ 4 then 69 else 70)
  else if (d / 8 + 8 - home / 8) % 8 ≤ 4 then 71 else 72

/-- The source number of a core at an engine (R353): its own die's cores are 0 to 63. -/
def atomicSource (home k : Nat) : Nat := sourceAt home (dieOfCore k) (k % 64)

/-- The place of a request in its cycle: sources in number order from the pointer, which advances by one every cycle
(R353). DESIGN CHOICE: the pointer is 0 in cycle 0. -/
def AtomicReq.rank (r : AtomicReq) : Nat := (r.src + 74 - r.cycle % 74) % 74

/-- The line of a request. -/
def AtomicReq.line (r : AtomicReq) : Nat := placeOf r.key / 64

/-- The first request of a list among those of the earliest cycle, by rank. -/
def firstRequest : List AtomicReq → Option AtomicReq
  | [] => none
  | r :: rest =>
    match firstRequest rest with
    | none => some r
    | some q => if q.cycle < r.cycle ∨ (q.cycle = r.cycle ∧ q.rank < r.rank) then some q else some r

/-- The requests an engine may perform: those of the first 64 lines that have one, since a request for a further line waits
while all 64 entries hold lines with pending operations (R353). -/
def admitted (l : List AtomicReq) : List AtomicReq :=
  let lines := ((l.map AtomicReq.line).eraseDups).take 64
  l.filter (fun r => decide (r.line ∈ lines))

/-- The requests that one cycle of an engine performs, of those that arrived before it: up to four, in their order, at most one
of each line (R353). -/
def cycleRequests (now : Nat) : Nat → List AtomicReq → List AtomicReq
  | 0, _ => []
  | n + 1, l =>
    match firstRequest (l.filter (fun r => decide (r.cycle < now))) with
    | none => []
    | some r => r :: cycleRequests now n (l.filter (fun q => decide (q.line ≠ r.line)))

/-- Has an engine perform at its next cycle. -/
def State.nextCycle (s : State) (home : Nat) : State :=
  if s.timers.any (fun t => decide (t.2 = ⟨.atomicEnginePerform, .n home 0 0⟩)) then s
  else s.at_ ((s.die home).clock.next (s.copyDiv home) s.now) .atomicEnginePerform (.n home 0 0)

/-- A request reaches the engine of its home die. -/
def State.askAtomic (s : State) (r : AtomicReq) : State :=
  (s.modDie (homeOf r.key) (fun x => { x with atomics := x.atomics ++ [r] })).nextCycle (homeOf r.key)

/-! Accesses that are not performed yet (R341, R347). -/

/-- The 64-byte lines of some places. -/
def linesAt (keys : List Nat) : List Nat := (keys.map (fun k => placeOf k / 64)).eraseDups

/-- The lines that an operation that is not performed yet will touch. -/
def LateAct.lines : LateAct → List Nat
  | .load keys _ _ _ => linesAt keys
  | .store keys _ => linesAt keys
  | .direct r => linesAt r.pa
  | .atomic r => [r.line]
  | _ => []

/-- The die that an operation not performed yet belongs to: its context's, or, for a write from outside the device, the home of its
first line; 64 for an event of another unit. -/
def LateOp.die (o : LateOp) : Nat :=
  if o.ctx < 16384 then dieOf o.ctx
  else
    match o.act.lines with
    | [] => 64
    | l :: _ => homeOf (l * 64)

/-- Whether an operation that is not performed yet only reads. -/
def LateAct.reads : LateAct → Bool
  | .load _ _ _ _ => true
  | .direct r => r.store.isNone
  | _ => false

/-- Whether a request was asked for by a context. -/
def AtomicReq.of (r : AtomicReq) (c : Nat) : Bool :=
  match r.asker with
  | .write d _ => decide (d = c)
  | _ => false

/-- Whether some lines meet others. -/
def meets (a b : List Nat) : Bool := a.any (fun l => decide (l ∈ b))

/-- The numbers of a context's accesses that are not performed yet: its queue pushes, direct-path requests, atomics, and those that
follow others. -/
def State.ownOpen (s : State) (c : Nat) : List Nat :=
  (if s.issuing c then ((s.ctx c).pend.filter Pend.isPush).map (fun w => w.seq) else []) ++
  s.dies.flatMap (fun p => (p.2.ports.filter (fun r => r.served.isNone && decide (r.ctx = c))).map (fun r => r.seq) ++
    (p.2.atomics.filter (fun r => r.of c)).map (fun r => r.id)) ++
  (s.lateOps.filter (fun o => decide (o.ctx = c))).map (fun o => o.id)

/-- Those of the issuing context's accesses of earlier bundles that are not performed yet: what a release, a fork or a fence
follows (R114, R282, R332, R347 to R349). -/
def State.priorOpen (s : State) : List Nat := (s.ownOpen s.iss.ctx).filter (fun n => decide (n < s.iss.base))

/-- Those of a context's accesses not performed yet that one to some lines must follow, so that the context sees its own writes in
bundle order (R78, R163, R341); a read need follow no read; of two direct-path requests at one port, `home`, the port serves the
earlier first, and of two requests for one line at an engine, `atom`, the engine does (R353). -/
def State.ownOn (s : State) (c : Nat) (lines : List Nat) (reads : Bool) (home : Option Nat) (atom : Bool) : List Nat :=
  s.dies.flatMap (fun p =>
    (if home = some p.1 then [] else
      (p.2.ports.filter (fun r => r.served.isNone && decide (r.ctx = c) && meets (linesAt r.pa) lines &&
        !(reads && r.store.isNone))).map (fun r => r.seq)) ++
    (if atom then [] else (p.2.atomics.filter (fun r => r.of c && decide (r.line ∈ lines))).map (fun r => r.id))) ++
  (s.lateOps.filter (fun o => decide (o.ctx = c) && meets o.act.lines lines && !(reads && o.act.reads))).map (fun o => o.id)

/-- Whether an access waits, at once or through others, for a queue push of its context. -/
def State.behindPush (s : State) : Nat → Nat → Bool
  | 0, n => s.pushOpen n
  | k + 1, n => s.pushOpen n ||
    (match s.lateOps.find? (fun o => decide (o.id = n)) with
    | some o => o.behind.any (fun m => s.behindPush k m)
    | none => false)

/-- Whether one of some accesses waits for a queue push. -/
def State.pushBound (s : State) (l : List Nat) : Bool := l.any (fun n => s.behindPush s.lateOps.length n)

/-- Takes the turn of an access at each of its lines for which requests wait at an engine (R352, R353): the numbers of the turns. A
line with none has its turn at once. -/
def State.takeTurns (s : State) (src : Nat → Nat) (keys : List Nat) : State × List Nat :=
  (keys.filter (fun k => decide (k < hostBase))).foldl (fun u k =>
    let h := homeOf k
    if ((u.1.die h).atomics.any (fun r => decide (r.line = placeOf k / 64))) &&
        !((u.1.die h).atomics.any (fun r => decide (r.id ∈ u.2) && decide (r.line = placeOf k / 64))) then
      (u.1.fresh.askAtomic ⟨u.1.seq, .access, 14, 1, k, 0, 0, src h, u.1.copyCycle h⟩, u.2 ++ [u.1.seq])
    else u) (s, [])

/-- A request of a context goes to its engine, once the accesses it follows have been performed. -/
def State.sendAtomic (s : State) (c : Nat) (r : AtomicReq) (behind : List Nat) : State :=
  if behind.isEmpty then s.askAtomic r else { s with lateOps := s.lateOps ++ [⟨r.id, c, behind, .atomic r⟩] }

/-- Adds an operation that is performed once the accesses it follows are. -/
def State.postpone (s : State) (c id : Nat) (behind : List Nat) (a : LateAct) : State :=
  { s with lateOps := s.lateOps ++ [⟨id, c, behind, a⟩] }

end Sys2Proof.Machine
end

