-- ==== Sys2Proof/Machine/Memory.lean ====
section
/-! DEFINITION. Loads and stores of the M slots (R74 to R82, R159 to R168): local accesses, global accesses on the cached
and the direct path and their order (R341, R342, R347), and vector forms. -/

namespace Sys2Proof.Machine

/-! Addresses and checks (R162). -/

/-- Changes the writes that the signature of a sampled tile step, or of its replay, folds (R403). -/
def State.modFolds (s : State) (d tid : Nat) (f : List Fold → List Fold) : State :=
  if ((s.die d).tasks.any (fun t => decide (t.tid = tid) && t.sig.isSome)) then
    s.modDie d (fun x => { x with tasks := x.tasks.map (fun t =>
      if t.tid = tid then { t with folds := f t.folds } else t) })
  else s

/-- Renumbers the writes of a signed step that are still to be performed; `f` keeps 0, the number of those that are not. -/
def State.foldIds (s : State) (d tid : Nat) (f : Nat → Nat) : State :=
  s.modFolds d tid (fun l => l.map (fun e => { e with id := f e.id }))

/-- A write that is performed as it issues (R403). -/
def State.foldWrite (s : State) (d tid a : Nat) (bs : List Byte) : State :=
  s.modFolds d tid (fun l => l ++ [⟨0, s.iss.slot, a, bs⟩])

/-- A write that issues now and is performed later, under its number. -/
def State.foldLater (s : State) (d tid id slot : Nat) : State := s.modFolds d tid (fun l => l ++ [⟨id, slot, 0, []⟩])

/-- The writes, addresses with their bytes, that one that issued before performs now: in its place, or last where its place
is not known. -/
def State.foldNow (s : State) (d tid id : Nat) (ws : List (Nat × List Byte)) : State :=
  let new (slot : Nat) : List Fold := ws.map (fun w => ⟨0, slot, w.1, w.2⟩)
  s.modFolds d tid (fun l =>
    if l.any (fun e => decide (e.id = id) && decide (id ≠ 0)) then
      l.flatMap (fun e => if e.id = id then new e.slot else [e])
    else l ++ new 0)

/-- The signature of a step that has ended (R403): each write's local address, its length and its bytes, in issue order. -/
def Task.signature (t : Task) : Nat :=
  (t.folds.foldl (fun c e =>
    if e.bytes.isEmpty then c else crc64 c (leBytes 4 e.addr ++ leBytes 4 e.bytes.length ++ e.bytes))
    (BitVec.ofNat 64 (t.sig.getD 0))).toNat

/-- A local write of the issuing context (R163). -/
def State.ctxWrite (s : State) (a : Nat) (bs : List Byte) (burst : Bool) : State :=
  (s.localWrite s.cd a bs burst).foldWrite s.cd s.cx.tid a bs

/-- Whether EA is a multiple of `n` (R162, step 1). -/
def misaligned (ea : W64) (n : Nat) : Bool := decide (ea.toNat % n ≠ 0)

/-- Whether the `n` bytes at a local EA fail R92 (R162, step 2). -/
def State.localBad (s : State) (ea : W64) (n : Nat) : Bool :=
  decide (2 ^ 32 ≤ ea.toNat) || !s.localOk s.cd ea.toNat n

/-- The scratchpad, or the slice scratch, that a local address lies in. -/
def regionOf (a : Nat) : Nat := if a / 2 ^ 28 % 2 = 0 then a / 2 ^ 22 else 2 ^ 20

/-- R162 for a local access of several pieces: the first misaligned, or outside R92, or outside the first piece's
scratchpad. -/
def State.piecesCheck (s : State) (acc : Acc) (pieces : List W64) (n : Nat) : Option Stop :=
  match pieces.find? (fun ea =>
      s.localBad ea n || decide (regionOf ea.toNat ≠ regionOf ((pieces.headD 0).toNat))) with
  | some ea => some (Stop.localAddr acc ea)
  | none => none

/-! Banks (R159, R160). -/

/-- The window of LAYOUT0 to LAYOUT3 that governs a row group, as its BASE (R160). -/
def State.layoutOf (s : State) (k g : Nat) : Option Nat :=
  ([0, 1, 2, 3].map (fun n => s.coreCtl k (0x060 + n))).findSome? (fun l =>
    if bit l 63 ∧ bits l 12 0 ≤ g ∧ g < bits l 12 0 + bits l 45 32 then some (bits l 12 0) else none)

/-- The bank of a 16-byte unit of a scratchpad (R159, R160). -/
def State.bankOf (s : State) (k unit : Nat) : Nat :=
  match s.layoutOf k (unit / 32) with
  | some base => (unit % 32 + (unit / 32 - base)) % 32
  | none => unit % 32

/-- The most distinct units an access touches in one bank (R159). -/
def State.bankK (s : State) (k : Nat) (units : List Nat) : Nat :=
  let bs := units.eraseDups.map (s.bankOf k)
  (List.range 32).foldl (fun m b => max m (bs.count b)) 0

/-- Notes the units that an access of the own scratchpad touches: M0 and M1 stall the bundle by the larger count less
one (R159). -/
def State.touch (s : State) (bytes : List Nat) : State :=
  if (bytes.headD 0) / 2 ^ 22 = s.ck % 64 ∧ bytes ≠ [] then
    { s with iss := { s.iss with bank := max s.iss.bank (s.bankK s.ck (bytes.map (fun a => a % 2 ^ 22 / 16))) } }
  else s

/-! Landing faults of local reads (R147, R144). -/

/-- The fault a local read of some pieces meets at its landing: expired data, or uncorrectable data. -/
def State.readFault (s : State) (d : Nat) (pieces : List Nat) (n : Nat) : Option Stop :=
  if pieces.any (fun a => !s.validRange d a n) then some (Stop.of 0x08)
  else if pieces.any (fun a => s.poisonedRange d a n) then some (Stop.of 0x09)
  else none

/-- A result that lands as a value or as its fault: a fault lands whatever the destination (R147, R164, R380). -/
def State.pendOr (s : State) (d : Reg) (lat : Nat) (fault : Option Stop) (p : Payload) (discard : Bool) : State :=
  match fault with
  | some st => s.pendRaw d.toNat lat (.fault st p.cls) true
  | none => if discard then s else s.pendRaw d.toNat lat p true

/-- A loaded scalar: zero- or sign-extended (R164). -/
def loadExt (size : Nat) (signed : Bool) (bs : List Byte) : W64 :=
  if signed then sext64 (8 * size) (leNat bs) else BitVec.ofNat 64 (leNat bs)

/-! Local scalar forms (R164). -/

/-- LLD: alignment, R92, then the value at issue; it lands at 6. -/
def lldOp (size : Nat) (signed : Bool) (d base : Reg) (off : Imm10) : SlotOp :=
  { SlotOp.plain (fun s =>
      let a := (s.ea base off size).toNat
      (s.pendOr d 6 (s.readFault s.cd [a] size) (.scalar (loadExt size signed (s.lbytes s.cd a size)))
        (decide (d = 0))).touch [a]) with
    reads := gref base, writes := wr (gref d) 6, rgs := fun s => rgsOf (s.ea base off size).toNat size
    check := pureCheck (fun s =>
      let ea := s.ea base off size
      if misaligned ea size then some (Stop.of 0x05)
      else if s.localBad ea size then some (Stop.localAddr .read ea) else none) }

/-- LST: a partial write in its issue cycle (R136, R163). -/
def lstOp (size : Nat) (src base : Reg) (off : Imm10) : SlotOp :=
  { SlotOp.plain (fun s =>
      let a := (s.ea base off size).toNat
      (s.ctxWrite a (leBytes size (s.g src).toNat) false).touch [a]) with
    reads := gref src ++ gref base, phase := 1, rgs := fun s => rgsOf (s.ea base off size).toNat size
    check := pureCheck (fun s =>
      let ea := s.ea base off size
      if misaligned ea size then some (Stop.of 0x05)
      else if s.localBad ea size then some (Stop.localAddr .write ea) else none) }

/-- LLD.b (R164). -/
def opLldB (d base : Reg) (off : Imm10) : SlotOp := lldOp 1 true d base off
/-- LLD.B at issue (R164). -/
def execLldB (d base : Reg) (off : Imm10) (s : State) : Result := (opLldB d base off).exec s

/-- LLD.b.u (R164). -/
def opLldBU (d base : Reg) (off : Imm10) : SlotOp := lldOp 1 false d base off
/-- LLD.B.U at issue (R164). -/
def execLldBU (d base : Reg) (off : Imm10) (s : State) : Result := (opLldBU d base off).exec s

/-- LLD.h (R164). -/
def opLldH (d base : Reg) (off : Imm10) : SlotOp := lldOp 2 true d base off
/-- LLD.H at issue (R164). -/
def execLldH (d base : Reg) (off : Imm10) (s : State) : Result := (opLldH d base off).exec s

/-- LLD.h.u (R164). -/
def opLldHU (d base : Reg) (off : Imm10) : SlotOp := lldOp 2 false d base off
/-- LLD.H.U at issue (R164). -/
def execLldHU (d base : Reg) (off : Imm10) (s : State) : Result := (opLldHU d base off).exec s

/-- LLD.w (R164). -/
def opLldW (d base : Reg) (off : Imm10) : SlotOp := lldOp 4 true d base off
/-- LLD.W at issue (R164). -/
def execLldW (d base : Reg) (off : Imm10) (s : State) : Result := (opLldW d base off).exec s

/-- LLD.w.u (R164). -/
def opLldWU (d base : Reg) (off : Imm10) : SlotOp := lldOp 4 false d base off
/-- LLD.W.U at issue (R164). -/
def execLldWU (d base : Reg) (off : Imm10) (s : State) : Result := (opLldWU d base off).exec s

/-- LLD.d (R164). -/
def opLldD (d base : Reg) (off : Imm10) : SlotOp := lldOp 8 false d base off
/-- LLD.D at issue (R164). -/
def execLldD (d base : Reg) (off : Imm10) (s : State) : Result := (opLldD d base off).exec s

/-- LST.b (R164). -/
def opLstB (d base : Reg) (off : Imm10) : SlotOp := lstOp 1 d base off
/-- LST.B at issue (R164). -/
def execLstB (d base : Reg) (off : Imm10) (s : State) : Result := (opLstB d base off).exec s

/-- LST.h (R164). -/
def opLstH (d base : Reg) (off : Imm10) : SlotOp := lstOp 2 d base off
/-- LST.H at issue (R164). -/
def execLstH (d base : Reg) (off : Imm10) (s : State) : Result := (opLstH d base off).exec s

/-- LST.w (R164). -/
def opLstW (d base : Reg) (off : Imm10) : SlotOp := lstOp 4 d base off
/-- LST.W at issue (R164). -/
def execLstW (d base : Reg) (off : Imm10) (s : State) : Result := (opLstW d base off).exec s

/-- LST.d (R164). -/
def opLstD (d base : Reg) (off : Imm10) : SlotOp := lstOp 8 d base off
/-- LST.D at issue (R164). -/
def execLstD (d base : Reg) (off : Imm10) (s : State) : Result := (opLstD d base off).exec s

/-! The direct path (R77 to R82). -/

/-- The leaf's DIR bit (R94). -/
def leafDirect (leaf : Nat) : Bool := decide (leaf / 2 ^ 7 % 2 = 1)

/-- The lowest free tag of a core (R77). -/
def Core.freeTag (k : Core) : Nat := ((List.range 8).find? (fun t => (mapFind k.tags t).isNone)).getD 0

/-- Free tags of a core (R82). -/
def Core.freeTags (k : Core) : Nat := 8 - k.tags.length

/-- A direct-path request reaches a port (R77). DESIGN CHOICE: R77 gives an access one tag and R74 interleaves the ports, and they do
not say at which port a request of 512 bytes stands that straddles two 4 KiB units of different homes; it stands whole at the port
of its first byte, which serves all its bytes at once. -/
def State.atPort (s : State) (r : DirectReq) : State :=
  let home := homeOf (r.pa.headD 0)
  (s.modDie home (fun x => { x with ports := x.ports ++ [r] })).dueN .portRequestService home

/-- Sends a direct-path request with a tag to its port, once the accesses it follows have been performed (R77); `seq` names the
pending write that its reply fills. -/
def State.sendDirect (s : State) (seq : Nat) (keys : List Nat) (store : Option (List Byte)) (size : Nat)
    (signed vec : Bool) (behind : List Nat) : State :=
  let k := s.ck
  let tag := (s.core k).freeTag
  let r : DirectReq := ⟨k, tag, s.iss.ctx, seq, keys, store, size, signed, vec, none, false⟩
  let s1 := s.modCore k (fun x => { x with tags := mapPut x.tags tag seq })
  if behind.isEmpty then s1.atPort r else s1.postpone s.iss.ctx seq behind (.direct r)

/-- Serves one request at its port (R75, R79, R80): a load reads its bytes, a store merges its bytes under the lock. -/
def State.serveReq (s : State) (r : DirectReq) : State × DirectReq :=
  match r.store with
  | some bs =>
    let (s0, bad) := s.portWrite r.pa bs
    let s1 := s0.prompt r.pa 24
    (if bad then s1.setCoreCtl r.core 0x040 (s1.coreCtl r.core 0x040 ||| 0x20000#64) else s1,
      { r with served := some [] })
  | none => (s, { r with served := some (s.mbytes r.pa), bad := s.uncorr r.pa })

/-- What a served load's reply carries to its pending write (R80, R164, R165). -/
def DirectReq.payload (r : DirectReq) : Payload :=
  if r.bad then .fault (Stop.of 0x09) (some (if r.vec then 1 else 0))
  else
    let bs := r.served.getD []
    if r.vec then .lanes (lanes.map (fun i => (i, ⟨BitVec.ofNat 32 (leNat ((bs.drop (4 * i)).take 4)), false⟩)))
    else .scalar (loadExt r.size r.signed bs)

/-- A served request's reply reaches the core (R77): a load's value waits for its landing, which frees the tag, or, with
no pending write left to it or its context stopping or stopped, frees the tag at once (R81); a store's acknowledgement frees its
tag. -/
def State.replyArrives (s : State) (r : DirectReq) : State :=
  let s0 := s.modDie (homeOf (r.pa.headD 0)) (fun x =>
    { x with ports := x.ports.filter (fun q => decide (¬ (q.core = r.core ∧ q.tag = r.tag))) })
  match r.store with
  | some _ => s0.modCore r.core (fun x => { x with tags := mapDel x.tags r.tag })
  | none =>
    let s1 := if r.bad then s0.setCoreCtl r.core 0x040 (s0.coreCtl r.core 0x040 ||| 0x10000#64) else s0
    let s2 := s1.arrive r.ctx r.seq r.payload
    if (s2.ctx r.ctx).pend.any (fun w => decide (w.seq = r.seq)) && s2.issuing r.ctx then s2
    else s2.modCore r.core (fun x => { x with tags := mapDel x.tags r.tag })

/-- Frees the direct-path tag that a landed load held (R77). -/
def State.freeTagOf (s : State) (k seq : Nat) : State :=
  if (s.core k).tags.any (fun p => decide (p.2 = seq)) then
    s.modCore k (fun x => { x with tags := x.tags.filter (fun p => decide (p.2 ≠ seq)) })
  else s

/-- Whether a reply of a context is outstanding (R81, R183): of a direct-path request, an atomic, an access that follows others, or
a late item; a packet's status and a future's value stay outstanding. -/
def State.repliesOut (s : State) (c : Nat) : Bool :=
  (s.ctx c).pend.any (fun w => !w.arrived &&
    (match w.payload with
      | .fut _ => false
      | .cpyw _ _ => false
      | _ => true)) ||
  s.dies.any (fun p => p.2.ports.any (fun r => decide (r.ctx = c)) || p.2.atomics.any (fun r => r.of c)) ||
  s.lateOps.any (fun o => decide (o.ctx = c))

/-- Frees the direct-path tags of a context that stops, or that its core runs no more, whose replies are in (R81). -/
def State.leaveTags (s : State) (c : Nat) : State :=
  (s.ctx c).pend.foldl (fun u w => if w.arrived then u.freeTagOf (coreOf c) w.seq else u) s

/-! The classes of a port (R76). -/

/-- Whether the home slice store holds every line of some places. -/
def State.lineHit (s : State) (keys : List Nat) : Bool :=
  (sliceKeys keys).all (fun l => (mapFind (s.die (l / 2 ^ 26)).slice (l % 2 ^ 26)).isSome)

/-- The arrival of a context's cached load is due: at once where the slice store held its lines, and as a fill of the cached class
of its home port otherwise (R76). -/
def State.fillReply (s : State) (hit : Bool) (c home seq : Nat) : State :=
  (if hit then s else s.modDie home (fun x => { x with fills := x.fills ++ [(c, seq)] })).due .lateItemArrival
    (.n c seq 0)

/-! The order of global accesses (R78, R341, R342, R347, R352). -/

/-- Whether an access meets a page of kind SO (R94, R342). DESIGN CHOICE: one that spans two pages is SO as a whole where either is;
R343 gives each part its page's kind, and leaves the parts unordered. -/
def State.isSo (s : State) (va n : Nat) (acc : Acc) : Bool :=
  [va, va + n - 1].any (fun a =>
    match (s.span s.cd (some s.ck) (a % 2 ^ 64) 1 acc).2 with
    | .ok _ leaf => decide (leaf / 32 % 4 = 0)
    | .bad _ _ _ => false)

/-- The issuing context's accesses of earlier bundles to the lines of some bytes of device memory that are not performed yet: what a
bundle that reads the bytes as it issues waits for. -/
def State.earlierOn (s : State) (va n : Nat) (acc : Acc) : List Nat :=
  match (s.span s.cd (some s.ck) va n acc).2 with
  | .ok keys _ => (s.ownOn s.iss.ctx (linesAt keys) true none false).filter (fun i => decide (i < s.iss.base))
  | .bad _ _ _ => []

/-- What an access of the issuing context to some places follows: its own accesses to their lines, the SO accesses of earlier bundles
where it is SO, and every access of earlier bundles where it is a release. -/
def State.priors (s : State) (keys : List Nat) (reads : Bool) (home : Option Nat) (atom so rel : Bool) : List Nat :=
  let own := s.ownOn s.iss.ctx (linesAt keys) reads home atom
  let kind := if so then s.cx.so.filter (fun n => decide (n < s.iss.base) && s.accessOpen n) else []
  let all := if rel then s.priorOpen else []
  own ++ kind ++ all

/-- What a load or store of the issuing context follows: the accesses of `State.priors`, and its turns at the engines that hold its
lines. -/
def State.follows (s : State) (keys : List Nat) (reads : Bool) (home : Option Nat) (so rel : Bool) : State × List Nat :=
  let before := s.priors keys reads home false so rel
  let (s1, turns) := s.takeTurns (fun h => atomicSource h s.ck) keys
  (s1, before ++ turns)

/-- Notes an access that later bundles must follow: an SO access (R342), or an acquire (R347). -/
def State.noteOrder (s : State) (seq : Nat) (so acq : Bool) : State :=
  if so || acq then
    s.modCtx s.iss.ctx (fun x => { x with
      so := if so then x.so.filter s.accessOpen ++ [seq] else x.so
      order := if acq then x.order.filter s.accessOpen ++ [seq] else x.order })
  else s

/-! Global forms (R164, R165). -/

/-- The check of a global access: alignment, then both pages (R100, R162). -/
def globalCheck (acc : Acc) (size align : Nat) (ea : State → W64) (s : State) : State × Option Stop :=
  if misaligned (ea s) align then (s, some (Stop.of 0x05))
  else
    match s.span s.cd (some s.ck) (ea s).toNat size acc with
    | (s1, .bad va k l) => (s1, some (Stop.transl acc va k l))
    | (s1, .ok _ _) => (s1, none)

/-- Tags a global access needs: one on a direct page (R77). -/
def globalTags (acc : Acc) (size : Nat) (ea : State → W64) (s : State) : Nat :=
  match (s.span s.cd (some s.ck) (ea s).toNat size acc).2 with
  | .ok _ leaf => if leafDirect leaf then 1 else 0
  | .bad _ _ _ => 0

/-- A cached load is performed: its pending write has its value, or uncorrectable data as its fault, and its arrival is due (R75,
R80, R164, R182). -/
def State.loadNow (s : State) (c seq : Nat) (keys : List Nat) (size : Nat) (signed vec : Bool) : State :=
  let s1 := s.cacheLines keys false
  let bs := s1.mbytes keys
  let p : Payload :=
    if s1.uncorr keys then .fault (Stop.of 0x09) (some (if vec then 1 else 0))
    else if vec then .lanes (lanes.map (fun i => (i, ⟨BitVec.ofNat 32 (leNat ((bs.drop (4 * i)).take 4)), false⟩)))
    else .scalar (loadExt size signed bs)
  (s1.modCtx c (fun x => { x with pend := x.pend.map (fun w => if w.seq = seq then { w with payload := p } else w) })).fillReply
    (s.lineHit keys) c (homeOf (keys.headD 0)) seq

/-- A cached store is performed (R75, R79, R131). -/
def State.storeNow (s : State) (keys : List Nat) (bs : List Byte) : State :=
  (((s.cacheFill keys true).portWrite keys bs).1).prompt keys 24

/-- A global load of `size` bytes: on the direct path a tagged request, on the cached path performed now, or both once the accesses
it follows are (R77, R164, R341). DESIGN CHOICE: an access that straddles a direct and a cached page takes its first page's path
for all its bytes (see `State.spanBy`). -/
def gldEffect (size : Nat) (signed vec acq : Bool) (d : Reg) (ea : State → W64) (s : State) : State :=
  match s.span s.cd (some s.ck) (ea s).toNat size .read with
  | (s1, .bad _ _ _) => s1
  | (s1, .ok keys leaf) =>
    let seq := s1.seq
    let so := s1.isSo (ea s).toNat size .read
    let (s2, behind) := (s1.pendRaw d.toNat 40 (.await vec) false).follows keys true
      (if leafDirect leaf then some (homeOf (keys.headD 0)) else none) so false
    let s3 := s2.noteOrder seq so acq
    if leafDirect leaf then s3.sendDirect seq keys none size signed vec behind
    else if behind.isEmpty then s3.loadNow s3.iss.ctx seq keys size signed vec
    else s3.postpone s3.iss.ctx seq behind (.load keys size signed vec)

/-- A global store: on the direct path a tagged read-modify-write at the base die, on the cached path performed now, or both once the
accesses it follows are; a release follows every access of earlier bundles, and the core does not wait for it (R77, R79, R164,
R341, R347). -/
def gstEffect (size : Nat) (rel : Bool) (ea : State → W64) (val : State → List Byte) (s : State) : State :=
  match s.span s.cd (some s.ck) (ea s).toNat size .write with
  | (s1, .bad _ _ _) => s1
  | (s1, .ok keys leaf) =>
    let seq := s1.seq
    let so := s1.isSo (ea s).toNat size .write
    let (s2, behind) := s1.fresh.follows keys false (if leafDirect leaf then some (homeOf (keys.headD 0)) else none) so rel
    let s3 := s2.noteOrder seq so false
    if leafDirect leaf then s3.sendDirect seq keys (some (val s1)) size false false behind
    else if behind.isEmpty then s3.storeNow keys (val s1)
    else s3.postpone s3.iss.ctx seq behind (.store keys (val s1))

/-- GLD (R164). -/
def gldOp (size : Nat) (signed acq : Bool) (d base : Reg) (off : Imm10) : SlotOp :=
  { SlotOp.plain (gldEffect size signed false acq d (fun s => s.ea base off size)) with
    reads := gref base, writes := wr (gref d) 40,
    check := globalCheck .read size size (fun s => s.ea base off size),
    tags := globalTags .read size (fun s => s.ea base off size) }
/-- GST (R164). -/
def gstOp (size : Nat) (rel : Bool) (src base : Reg) (off : Imm10) : SlotOp :=
  { SlotOp.plain (gstEffect size rel (fun s => s.ea base off size) (fun s => leBytes size (s.g src).toNat)) with
    reads := gref src ++ gref base, phase := 1,
    hold := fun s => s.cutHolds s.cd (s.ea base off size).toNat size,
    check := globalCheck .write size size (fun s => s.ea base off size),
    tags := globalTags .write size (fun s => s.ea base off size) }

/-- GLD.b (R164). -/
def opGldB (d base : Reg) (off : Imm10) : SlotOp := gldOp 1 true false d base off
/-- GLD.B at issue (R164). -/
def execGldB (d base : Reg) (off : Imm10) (s : State) : Result := (opGldB d base off).exec s

/-- GLD.b.u (R164). -/
def opGldBU (d base : Reg) (off : Imm10) : SlotOp := gldOp 1 false false d base off
/-- GLD.B.U at issue (R164). -/
def execGldBU (d base : Reg) (off : Imm10) (s : State) : Result := (opGldBU d base off).exec s

/-- GLD.h (R164). -/
def opGldH (d base : Reg) (off : Imm10) : SlotOp := gldOp 2 true false d base off
/-- GLD.H at issue (R164). -/
def execGldH (d base : Reg) (off : Imm10) (s : State) : Result := (opGldH d base off).exec s

/-- GLD.h.u (R164). -/
def opGldHU (d base : Reg) (off : Imm10) : SlotOp := gldOp 2 false false d base off
/-- GLD.H.U at issue (R164). -/
def execGldHU (d base : Reg) (off : Imm10) (s : State) : Result := (opGldHU d base off).exec s

/-- GLD.w (R164). -/
def opGldW (d base : Reg) (off : Imm10) : SlotOp := gldOp 4 true false d base off
/-- GLD.W at issue (R164). -/
def execGldW (d base : Reg) (off : Imm10) (s : State) : Result := (opGldW d base off).exec s

/-- GLD.w.u (R164). -/
def opGldWU (d base : Reg) (off : Imm10) : SlotOp := gldOp 4 false false d base off
/-- GLD.W.U at issue (R164). -/
def execGldWU (d base : Reg) (off : Imm10) (s : State) : Result := (opGldWU d base off).exec s

/-- GLD.d (R164). -/
def opGldD (d base : Reg) (off : Imm10) : SlotOp := gldOp 8 false false d base off
/-- GLD.D at issue (R164). -/
def execGldD (d base : Reg) (off : Imm10) (s : State) : Result := (opGldD d base off).exec s

/-- GST.b (R164). -/
def opGstB (d base : Reg) (off : Imm10) : SlotOp := gstOp 1 false d base off
/-- GST.B at issue (R164). -/
def execGstB (d base : Reg) (off : Imm10) (s : State) : Result := (opGstB d base off).exec s

/-- GST.h (R164). -/
def opGstH (d base : Reg) (off : Imm10) : SlotOp := gstOp 2 false d base off
/-- GST.H at issue (R164). -/
def execGstH (d base : Reg) (off : Imm10) (s : State) : Result := (opGstH d base off).exec s

/-- GST.w (R164). -/
def opGstW (d base : Reg) (off : Imm10) : SlotOp := gstOp 4 false d base off
/-- GST.W at issue (R164). -/
def execGstW (d base : Reg) (off : Imm10) (s : State) : Result := (opGstW d base off).exec s

/-- GST.d (R164). -/
def opGstD (d base : Reg) (off : Imm10) : SlotOp := gstOp 8 false d base off
/-- GST.D at issue (R164). -/
def execGstD (d base : Reg) (off : Imm10) (s : State) : Result := (opGstD d base off).exec s

/-- GLD.w.acq: an acquire load at PKG scope (R164). -/
def opGldWAcq (d base : Reg) (off : Imm10) : SlotOp := gldOp 4 true true d base off
/-- GLD.W.ACQ at issue (R164). -/
def execGldWAcq (d base : Reg) (off : Imm10) (s : State) : Result := (opGldWAcq d base off).exec s

/-- GLD.d.acq (R164). -/
def opGldDAcq (d base : Reg) (off : Imm10) : SlotOp := gldOp 8 false true d base off
/-- GLD.D.ACQ at issue (R164). -/
def execGldDAcq (d base : Reg) (off : Imm10) (s : State) : Result := (opGldDAcq d base off).exec s

/-- GST.w.rel: a release store at PKG scope (R164). -/
def opGstWRel (d base : Reg) (off : Imm10) : SlotOp := gstOp 4 true d base off
/-- GST.W.REL at issue (R164). -/
def execGstWRel (d base : Reg) (off : Imm10) (s : State) : Result := (opGstWRel d base off).exec s

/-- GST.d.rel (R164). -/
def opGstDRel (d base : Reg) (off : Imm10) : SlotOp := gstOp 8 true d base off
/-- GST.D.REL at issue (R164). -/
def execGstDRel (d base : Reg) (off : Imm10) (s : State) : Result := (opGstDRel d base off).exec s

/-! Vector forms (R165, Table 8-5): the 16-byte units of an access. -/

/-- The units of the column form (Table 8-5). -/
def colUnits (ea : W64) : List W64 := (List.range 32).map (fun j => ea + BitVec.ofNat 64 (512 * j))
/-- The units of the strided form: the stride is g[base + 1] (R40, R165). -/
def strUnits (ea stride : W64) : List W64 := (List.range 32).map (fun j => ea + BitVec.ofNat 64 j * stride)
/-- The bytes of a row as its 32 units. -/
def rowUnits (ea : W64) : List W64 := (List.range 32).map (fun j => ea + BitVec.ofNat 64 (16 * j))

/-- A vector load over 32 units: lane 4j + e takes word e of unit j, S = 0 (R165). -/
def vldOp (d base : Reg) (off : Imm10) (extra : List RegRef) (strideBad : State → Bool)
    (units : State → W64 → List W64) : SlotOp :=
  { SlotOp.plain (fun s =>
      let us := (units s (s.ea base off 16)).map (·.toNat)
      let tab := lanes.map (fun i =>
        (i, ⟨BitVec.ofNat 32 (leNat (s.lbytes s.cd (us.getD (i / 4) 0 + 4 * (i % 4)) 4)), false⟩))
      (s.pendOr d 6 (s.readFault s.cd us 16) (.lanes tab) false).touch us) with
    reads := gref base ++ extra, writes := wr (vdst d) 6
    rgs := fun s => (units s (s.ea base off 16)).flatMap (fun u => rgsOf u.toNat 16)
    check := pureCheck (fun s =>
      let ea := s.ea base off 16
      if misaligned ea 16 || strideBad s then some (Stop.of 0x05)
      else s.piecesCheck .read (units s ea) 16) }

/-- A vector store over 32 units, in unit order, so that the last of equal units remains (R165): the row form at a
multiple of 512 is a full write (R135). -/
def vstOp (src base : Reg) (off : Imm10) (extra : List RegRef) (strideBad : State → Bool)
    (units : State → W64 → List W64) (row : Bool) : SlotOp :=
  { SlotOp.plain (fun s =>
      let us := (units s (s.ea base off 16)).map (·.toNat)
      let word (i : Nat) : List Byte := leBytes 4 (s.v src i).val.toNat
      let unit (j : Nat) : List Byte := (List.range 4).flatMap (fun e => word (4 * j + e))
      let s1 := if row then s.ctxWrite (us.headD 0) (lanes.flatMap word) true
        else (List.range 32).foldl (fun t j => t.ctxWrite (us.getD j 0) (unit j) false) s
      s1.touch us) with
    pops := [src], reads := vref src ++ gref base ++ extra, phase := 1
    rgs := fun s => (units s (s.ea base off 16)).flatMap (fun u => rgsOf u.toNat 16)
    check := pureCheck (fun s =>
      let ea := s.ea base off 16
      if misaligned ea 16 || strideBad s then some (Stop.of 0x05)
      else s.piecesCheck .write (units s ea) 16) }

/-- The stride register of the .str forms (R40). -/
def strideReg (base : Reg) : Reg := base + 1
/-- The stride must be a multiple of 16 (R162). -/
def strideBad (base : Reg) (s : State) : Bool := misaligned (s.g (strideReg base)) 16

/-- VLD.row (R165). -/
def opVldRow (d base : Reg) (off : Imm10) : SlotOp := vldOp d base off [] (fun _ => false) (fun _ ea => rowUnits ea)
/-- VLD.ROW at issue (R165). -/
def execVldRow (d base : Reg) (off : Imm10) (s : State) : Result := (opVldRow d base off).exec s

/-- VLD.col (R165). -/
def opVldCol (d base : Reg) (off : Imm10) : SlotOp := vldOp d base off [] (fun _ => false) (fun _ ea => colUnits ea)
/-- VLD.COL at issue (R165). -/
def execVldCol (d base : Reg) (off : Imm10) (s : State) : Result := (opVldCol d base off).exec s

/-- VLD.str (R165). -/
def opVldStr (d base : Reg) (off : Imm10) : SlotOp :=
  vldOp d base off (gref (strideReg base)) (strideBad base) (fun s ea => strUnits ea (s.g (strideReg base)))
/-- VLD.STR at issue (R165). -/
def execVldStr (d base : Reg) (off : Imm10) (s : State) : Result := (opVldStr d base off).exec s

/-- VST.row (R165). -/
def opVstRow (d base : Reg) (off : Imm10) : SlotOp :=
  vstOp d base off [] (fun _ => false) (fun _ ea => rowUnits ea) true
/-- VST.ROW at issue (R165). -/
def execVstRow (d base : Reg) (off : Imm10) (s : State) : Result := (opVstRow d base off).exec s

/-- VST.col (R165). -/
def opVstCol (d base : Reg) (off : Imm10) : SlotOp :=
  vstOp d base off [] (fun _ => false) (fun _ ea => colUnits ea) false
/-- VST.COL at issue (R165). -/
def execVstCol (d base : Reg) (off : Imm10) (s : State) : Result := (opVstCol d base off).exec s

/-- VST.str (R165). -/
def opVstStr (d base : Reg) (off : Imm10) : SlotOp :=
  vstOp d base off (gref (strideReg base)) (strideBad base) (fun s ea => strUnits ea (s.g (strideReg base))) false
/-- VST.STR at issue (R165). -/
def execVstStr (d base : Reg) (off : Imm10) (s : State) : Result := (opVstStr d base off).exec s

/-- A narrowing store: each lane read as FP32 and finally rounded in FMT's mode (R166). -/
def vstNarrow (f : FloatFmt) (src base : Reg) (off : Imm10) : SlotOp :=
  let size := f.width / 8
  { SlotOp.plain (fun s =>
      let a := (s.ea base off 16).toNat
      let mode := modeOf s.fmtNow
      let bs := lanes.flatMap (fun i => leBytes size (finFloat f mode (fval (s.v src i))))
      (s.ctxWrite a bs false).touch ((List.range (8 * size)).map (fun j => a + 16 * j))) with
    pops := [src], reads := vref src ++ gref base, phase := 1
    rgs := fun s => rgsOf (s.ea base off 16).toNat (128 * size)
    check := pureCheck (fun s =>
      let ea := s.ea base off 16
      if misaligned ea 16 then some (Stop.of 0x05)
      else if s.localBad ea (128 * size) then some (Stop.localAddr .write ea) else none) }
/-- VST.bf16 (R166). -/
def opVstBf16 (d base : Reg) (off : Imm10) : SlotOp := vstNarrow bf16 d base off
/-- VST.BF16 at issue (R166). -/
def execVstBf16 (d base : Reg) (off : Imm10) (s : State) : Result := (opVstBf16 d base off).exec s

/-- VST.f16 (R166). -/
def opVstF16 (d base : Reg) (off : Imm10) : SlotOp := vstNarrow fp16 d base off
/-- VST.F16 at issue (R166). -/
def execVstF16 (d base : Reg) (off : Imm10) (s : State) : Result := (opVstF16 d base off).exec s

/-- VST.f8e4 (R166). -/
def opVstF8e4 (d base : Reg) (off : Imm10) : SlotOp := vstNarrow f8e4 d base off
/-- VST.F8E4 at issue (R166). -/
def execVstF8e4 (d base : Reg) (off : Imm10) (s : State) : Result := (opVstF8e4 d base off).exec s

/-- VST.f8e5 (R166). -/
def opVstF8e5 (d base : Reg) (off : Imm10) : SlotOp := vstNarrow f8e5 d base off
/-- VST.F8E5 at issue (R166). -/
def execVstF8e5 (d base : Reg) (off : Imm10) (s : State) : Result := (opVstF8e5 d base off).exec s

/-- The address of lane i under VLDG and VSTS (R167). -/
def State.laneEa (s : State) (base idx : Reg) (i : Nat) : W64 :=
  s.g base + BitVec.ofNat 64 (4 * (s.v idx i).val.toNat)
/-- The check of VLDG and VSTS: every selected lane (R167). -/
def gatherCheck (acc : Acc) (base idx : Reg) (m : BitVec 3) (s : State) : Option Stop :=
  if misaligned (s.g base) 16 then some (Stop.of 0x05)
  else s.piecesCheck acc ((lanes.filter (s.sel m)).map (s.laneEa base idx)) 4

/-- The row groups of the selected lanes of VLDG and VSTS. -/
def gatherRgs (base idx : Reg) (m : BitVec 3) (s : State) : List Nat :=
  (lanes.filter (s.sel m)).map (fun i => (s.laneEa base idx i).toNat / 512)

/-- VLDG (R167). -/
def opVldg (d base idx : Reg) (m : BitVec 3) : SlotOp :=
  { SlotOp.plain (fun s =>
      let ls := lanes.filter (s.sel m)
      let as_ := ls.map (fun i => (s.laneEa base idx i).toNat)
      let tab := ls.map (fun i =>
        (i, ⟨BitVec.ofNat 32 (leNat (s.lbytes s.cd (s.laneEa base idx i).toNat 4)), false⟩))
      (s.pendOr d 6 (s.readFault s.cd as_ 4) (.lanes tab) false).touch as_) with
    pops := [idx], reads := gref base ++ vref idx ++ mref m, writes := wr (vdst d) 6
    rgs := gatherRgs base idx m
    check := pureCheck (gatherCheck .read base idx m) }
/-- VLDG at issue (R167). -/
def execVldg (d base idx : Reg) (m : BitVec 3) (s : State) : Result := (opVldg d base idx m).exec s

/-- VSTS: the highest of several lanes at one word remains (R167). -/
def opVsts (d base idx : Reg) (m : BitVec 3) : SlotOp :=
  { SlotOp.plain (fun s =>
      let ls := lanes.filter (s.sel m)
      (ls.foldl (fun t i =>
        t.ctxWrite (s.laneEa base idx i).toNat (leBytes 4 (s.v d i).val.toNat) false) s).touch
        (ls.map (fun i => (s.laneEa base idx i).toNat))) with
    pops := [d, idx], reads := vref d ++ gref base ++ vref idx ++ mref m, phase := 1
    rgs := gatherRgs base idx m
    check := pureCheck (gatherCheck .write base idx m) }
/-- VSTS at issue (R167). -/
def execVsts (d base idx : Reg) (m : BitVec 3) (s : State) : Result := (opVsts d base idx m).exec s

/-- The spill image of 128 elements: values, then eight mask words (R168). -/
def spillImage (f : Nat → Elem) : List Byte :=
  lanes.flatMap (fun i => leBytes 4 (f i).val.toNat) ++
    (List.range 8).flatMap (fun g =>
      leBytes 2 ((List.range 16).foldl (fun n j => n + (if (f (16 * g + j)).s then 2 ^ j else 0)) 0))

/-- The elements a spill image holds (R168). -/
def spillElems (bs : List Byte) : Table Elem :=
  lanes.map (fun i =>
    (i, ⟨BitVec.ofNat 32 (leNat ((bs.drop (4 * i)).take 4)),
      (leNat ((bs.drop (512 + 2 * (i / 16))).take 2)).testBit (i % 16)⟩))

/-- The check of VSPL and VFIL. -/
def spillCheck (acc : Acc) (base : Reg) (off : Imm10) (s : State) : Option Stop :=
  let ea := s.ea base off 16
  if misaligned ea 16 then some (Stop.of 0x05)
  else if s.localBad ea 528 then some (Stop.localAddr acc ea) else none

/-- VSPL: partial writes only (R188). -/
def opVspl (d base : Reg) (off : Imm10) : SlotOp :=
  { SlotOp.plain (fun s =>
      let a := (s.ea base off 16).toNat
      (s.ctxWrite a (spillImage (s.v d)) false).touch ((List.range 33).map (fun j => a + 16 * j))) with
    pops := [d], reads := vref d ++ gref base, phase := 1, rgs := fun s => rgsOf (s.ea base off 16).toNat 528
    check := pureCheck (spillCheck .write base off) }
/-- VSPL at issue (R188). -/
def execVspl (d base : Reg) (off : Imm10) (s : State) : Result := (opVspl d base off).exec s

/-- VFIL (R188). -/
def opVfil (d base : Reg) (off : Imm10) : SlotOp :=
  { SlotOp.plain (fun s =>
      let a := (s.ea base off 16).toNat
      (s.pendOr d 6 (s.readFault s.cd [a] 528) (.lanes (spillElems (s.lbytes s.cd a 528))) false).touch
        ((List.range 33).map (fun j => a + 16 * j))) with
    reads := gref base, writes := wr (vdst d) 6, rgs := fun s => rgsOf (s.ea base off 16).toNat 528
    check := pureCheck (spillCheck .read base off) }
/-- VFIL at issue (R188). -/
def execVfil (d base : Reg) (off : Imm10) (s : State) : Result := (opVfil d base off).exec s

/-- GVLD: 512 bytes of device memory; it lands at 40 (R165). -/
def opGvld (d base : Reg) (off : Imm10) : SlotOp :=
  { SlotOp.plain (gldEffect 512 false true false d (fun s => s.ea base off 16)) with
    reads := gref base, writes := wr (vdst d) 40, check := globalCheck .read 512 16 (fun s => s.ea base off 16),
    tags := globalTags .read 512 (fun s => s.ea base off 16) }
/-- GVLD at issue (R165). -/
def execGvld (d base : Reg) (off : Imm10) (s : State) : Result := (opGvld d base off).exec s

/-- GVST (R165). -/
def opGvst (d base : Reg) (off : Imm10) : SlotOp :=
  { SlotOp.plain (gstEffect 512 false (fun s => s.ea base off 16)
      (fun s => lanes.flatMap (fun i => leBytes 4 (s.v d i).val.toNat))) with
    pops := [d], reads := vref d ++ gref base, phase := 1,
    hold := fun s => s.cutHolds s.cd (s.ea base off 16).toNat 512,
    check := globalCheck .write 512 16 (fun s => s.ea base off 16),
    tags := globalTags .write 512 (fun s => s.ea base off 16) }
/-- GVST at issue (R165). -/
def execGvst (d base : Reg) (off : Imm10) (s : State) : Result := (opGvst d base off).exec s

end Sys2Proof.Machine
end

