-- ==== Sys2Proof/Machine/Matrix.lean ====
section
/-! DEFINITION. The plane engine: its arithmetic (R256 to R267), the matrix instructions and the tile moves (R250, R251,
R270 to R284), and the events by which the engine runs. -/

namespace Sys2Proof.Machine

/-! Tiles and engines. -/

/-- The engine of a core. -/
def State.eng (s : State) (k : Nat) : Engine := (s.core k).engine
/-- Changes the engine of a core. -/
def State.modEng (s : State) (k : Nat) (f : Engine → Engine) : State :=
  s.modCore k (fun x => { x with engine := f x.engine })
/-- A tile of an engine, if configured (R270). -/
def Engine.tile (e : Engine) (n : Nat) : Option Tile := mapFind e.tiles n
/-- An element of a tile. -/
def Tile.elem (t : Tile) (r c : Nat) : Elem := mapGet Elem.zero t.elems (r * t.cols + c)
/-- Writes an element of a tile, which sets DIRTY (R278). -/
def Tile.setElem (t : Tile) (r c : Nat) (e : Elem) : Tile :=
  { t with elems := mapPut t.elems (r * t.cols + c) e, dirty := true }

/-- Whether a tile is busy: an incomplete operation names it (R281). -/
def Engine.busy (e : Engine) (n : Nat) : Bool :=
  e.ops.any (fun o => decide (o.tile = n)) || e.writes.any (fun w => decide (w.tile = n))
/-- Whether a deferred fault holds an operation on a tile (R284). -/
def Engine.held (e : Engine) (n : Nat) : Bool := e.ops.any (fun o => o.held && decide (o.tile = n))

/-- The context slot of a core that holds a task, once it is restored there. -/
def State.slotOfTid (s : State) (k tid : Nat) : Option Nat :=
  ([0, 1, 2, 3].map (fun i => k * 4 + i)).find? (fun c =>
    decide ((s.ctx c).phase ≠ .free) && decide ((s.ctx c).phase ≠ .restoring) && decide ((s.ctx c).tid = tid))

/-- Whether a context is the tile owner of its core's engine (R285). -/
def State.owns (s : State) (c : Nat) : Bool := decide ((s.eng (coreOf c)).owner = some (s.ctx c).tid)

/-- TSHAPEn of a tile (Table 14-1). -/
def tshapeWord (t : Option Tile) : W64 :=
  match t with
  | none => 0
  | some x => BitVec.ofNat 64 (2 ^ 15 + (if x.dirty then 2 ^ 14 else 0) + (x.cols - 1) * 2 ^ 6 + (x.rows - 1))

/-- TSHAPEn as MFC reads it: of the engine's tiles while the context owns them, else as its records hold it (R271). -/
def State.tshape (s : State) (c n : Nat) : W64 :=
  if s.owns c then tshapeWord ((s.eng (coreOf c)).tile n) else s.ctxCtl c (0x070 + n)

/-! Arithmetic (R256 to R266). -/

/-- An element of A in its format; INT8 elements are integers (R256). -/
def aValue (fmt bits : Nat) : FVal :=
  match numFmt fmt with
  | .float f => f.decode bits
  | .int f => .fin (Ex.ofInt (intVal f bits))
  | _ => .nan

/-- The size of an A format in bytes, none where R256 does not accept it. -/
def aSize (fmt : Nat) : Option Nat :=
  match fmt with
  | 1 => some 2 | 2 => some 2 | 3 => some 1 | 4 => some 1 | 5 => some 1 | _ => none

/-- Two to an integer power times an integer, truncated toward zero. -/
def truncScale (x : Ex) (e : Int) : Int :=
  rint .rtz { x with exp := x.exp + e }

/-- XA of R257: the largest exponent of the finite non-zero elements. -/
def alignExp (xs : List FVal) : Int :=
  xs.foldl (fun (best : Option Int) x =>
    match x with
    | .fin e =>
      if e.num = 0 then best
      else match best with
        | none => some e.ilog2
        | some b => some (max b e.ilog2)
    | _ => best) none |>.getD 0

/-- A block of A aligned (R257): XA, and for each present element its 25-bit integer and whether bits were lost. -/
def alignA (int8 : Bool) (xs : List FVal) : Int × List (Int × Bool) :=
  if int8 then
    (23, xs.map (fun x => match x with | .fin e => (rint .rtz e, false) | _ => (0, false)))
  else
    let xa := alignExp xs
    (xa, xs.map (fun x =>
      match x with
      | .fin e =>
        let q := truncScale e (23 - xa)
        (q, !(FVal.eqv (.fin { Ex.ofInt q with exp := xa - 23 }) x))
      | _ => (0, false)))

/-- A block of B for one column: the integer weights of the present elements, the scale that turns a sum into a value,
each element's value for R260, whether the block's summary is special, and ST. -/
structure BBlock where
  w : List Int
  scale : Ex
  value : List FVal
  special : Bool
  st : Bool
deriving DecidableEq, Repr

/-- The special partial of R260, if the products decide one. -/
def specialPartial (ps : List FVal) : Option FVal :=
  if ps.any (fun p => decide (p = .nan)) then some .nan
  else
    let pos := ps.any (fun p => decide (p = .inf false))
    let neg := ps.any (fun p => decide (p = .inf true))
    if pos && neg then some .nan else if pos then some (.inf false) else if neg then some (.inf true) else none

/-- The partial of one output element and block: its FP32 bits and SP (R259, R260). DESIGN CHOICE: R259 gives only the real value
of X, so that the sign of a zero X is open: it is + where P is 0, and the exclusive OR of the signs of P and S256e where
S256e is a zero and P is not. -/
def blockPartial (int8 : Bool) (a : List FVal) (b : BBlock) : Nat × Bool :=
  let special := if b.special || a.any (fun x => match x with | .fin _ => false | _ => true) then
      specialPartial (List.zipWith FVal.mul a b.value)
    else none
  match special with
  | some v => ((ro32 v).1, false)
  | none =>
    let (xa, al) := alignA int8 a
    let p := (List.zipWith (fun x w => x.1 * w) al b.w).foldl (· + ·) 0
    let x := { (Ex.ofInt p).mul b.scale with exp := b.scale.exp + (xa - 23) }
    let x := if p = 0 then Ex.ofInt 0 else x
    let (v, sp) := ro32 (.fin x)
    (v, sp || (List.zipWith (fun x w => x.2 && decide (w ≠ 0)) al b.w).any id ||
      (b.st && b.w.any (fun w => decide (w ≠ 0))))

/-- One step of R261: an exact zero without SP leaves the element; else the round-to-odd sum, and S gathers. -/
def accumulate (acc : Elem) (p : Nat × Bool) : Elem :=
  if p.1 % 2 ^ 31 = 0 ∧ p.2 = false then acc
  else
    let x := fval acc
    let (v, st) := ro32 (sumSigned false x (fp32.decode p.1))
    felem v (acc.s || p.2 || st)

/-- One step of R265: the wrapping 32-bit sum, S clear. -/
def accumulateInt (acc : Elem) (a : List FVal) (w : List Int) : Elem :=
  let p := (List.zipWith (fun x y => (match x with | FVal.fin e => rint .rtz e | _ => 0) * y) a w).foldl (· + ·) 0
  ⟨acc.val + BitVec.ofInt 32 p, false⟩

/-! Operand blocks in local memory. -/

/-- Why a step is held, with the first byte whose read failed (R284): 1 LAYOUT, 2 EXPIRED, 3 UNCORR; or why
it waits: 4, a refresh (R149). -/
structure StepFault where
  code : Nat
  addr : Nat
deriving DecidableEq, Repr

/-- An engine's read of `n` bytes of local memory: expired data before uncorrectable, by row group (R284); 4 where it waits
for a refresh (R149). -/
def State.engRead (s : State) (d a n : Nat) : Except StepFault (List Byte) :=
  if (rgsOf a n).any (s.inRefresh d) then .error ⟨4, a⟩
  else if !s.seenBytes a n then .error ⟨2, a⟩
  else
    match (rgsOf a n).find? (fun g => !(s.rg d g).valid || (s.rg d g).poison) with
    | some g => .error ⟨if (s.rg d g).valid then 3 else 2, max a (g * 512)⟩
    | none => .ok (s.lbytes d a n)

/-- Elements of a 64-bit plane word. -/
def planeBit (planes : List Byte) (i k : Nat) : Bool := (planes.getD (8 * i + k / 8) 0).getLsbD (k % 8)

/-- An AP block as read for `pres` present rows (R62, R63, R65): the header's faults, the weights, and the specials. DESIGN CHOICE:
a row from VC on and below K counts as present, with weight 0, so that an infinity of A there gives NaN: R260 multiplies over
the present k, which R257 makes k < K, while R258 and R263 call k ≥ VC missing. -/
def State.apBlock (s : State) (d at_ n pres : Nat) (int32 : Bool) : Except StepFault BBlock := do
  let hb ← s.engRead d at_ 8
  let h := leNat hb
  let nm1 := h / 2 ^ 10 % 16
  let vc := h / 2 ^ 17 % 128
  let sv := h / 2 ^ 14 % 4
  let xb := (sext64 10 h).toInt
  if nm1 = 0 ∨ nm1 + 1 ≠ n ∨ 64 < vc ∨ h / 2 ^ 24 ≠ 0 then .error ⟨1, at_⟩
  else if int32 ∧ (xb ≠ (n : Int) - 2 ∨ sv ≠ 0) then .error ⟨1, at_⟩
  else
    let planes ← s.engRead d (at_ + 8) (8 * n)
    let sp ← if sv = 0 then .ok [] else s.engRead d (at_ + 8 * n + 8) 8
    let q (k : Nat) : Int :=
      if vc ≤ k then 0
      else (List.range n).foldl (fun x i =>
        if planeBit planes i k then (if i = n - 1 then x - (2 ^ i : Nat) else x + (2 ^ i : Nat)) else x) 0
    let e := xb - (n : Int) + 2
    let ks := List.range pres
    .ok { w := ks.map q, scale := ⟨false, 1, 1, e⟩, special := decide (sv ≠ 0), st := decide (h / 2 ^ 16 % 2 = 1),
          value := ks.map (fun k =>
            if sv ≠ 0 ∧ k < vc ∧ planeBit sp 0 k then
              (if q k = 1 then .inf false else if q k = -1 then .inf true else .nan)
            else .fin { Ex.ofInt (q k) with exp := e }) }

/-- A Q4 block for `pres` present rows (R61, R259): under SCM 1 the S256, and under SCM 2 the s64 too, are exactly one and
are not read (R273). -/
def State.q4Block (s : State) (d img b pres scm : Nat) : Except StepFault BBlock := do
  let s256b ← if scm = 0 then s.engRead d img 4 else .ok []
  let s64b ← if scm ≤ 1 then s.engRead d (img + 4 + b) 1 else .ok []
  let codes ← s.engRead d (img + 8 + 32 * b) ((pres + 1) / 2)
  let s256 := if scm = 0 then fp32.decode (leNat s256b) else .fin ⟨false, 1, 1, 0⟩
  let s64 := if scm ≤ 1 then leNat s64b else 1
  let ks := List.range pres
  let lv (k : Nat) : Int := q4Level ((codes.getD (k / 2) 0).toNat / 16 ^ (k % 2))
  let sc : Ex := match s256 with | .fin x => { x with den := 127 * x.den } | _ => ⟨false, 0, 1, 0⟩
  .ok { w := ks.map (fun k => lv k * (s64 : Int)), scale := sc, st := false,
        special := (match s256 with | .fin _ => false | _ => true),
        value := ks.map (fun k => q4Value (lv k) s64 s256) }

/-! The fields of an accepted operation (Table 14-2, Table 14-4, Table 14-5). -/

/-- FMT.AFMT. -/
def fmtA (f : W64) : Nat := bits f 3 0
/-- FMT.BFMT. -/
def fmtB (f : W64) : Nat := bits f 7 4
/-- FMT.NPL. -/
def fmtNpl (f : W64) : Nat := bits f 11 8
/-- FMT.ACC. -/
def fmtAcc (f : W64) : Nat := bits f 15 12
/-- FMT.SCM. -/
def fmtScm (f : W64) : Nat := bits f 22 21
/-- FMT.ZSK. -/
def fmtZsk (f : W64) : Bool := bit f 23

/-- K of an MMA or MMAS. -/
def MatOp.kLen (o : MatOp) : Nat := bits o.b 47 32
/-- The number of blocks of an MMA or MMAS. -/
def MatOp.blocks (o : MatOp) : Nat := (o.kLen + 63) / 64
/-- Present elements of a block (R263). -/
def MatOp.present (o : MatOp) : Nat := min 64 (o.kLen - 64 * o.kb)

/-- The A elements of row m in the block an operation has reached. -/
def State.aRow (s : State) (d : Nat) (o : MatOp) (m : Nat) : Except StepFault (List FVal) := do
  let size := (aSize (fmtA o.fmt)).getD 1
  let bs ← s.engRead d (bits o.a 31 0 + m * bits o.a 47 32 + 64 * o.kb * size) (o.present * size)
  .ok ((List.range o.present).map (fun k => aValue (fmtA o.fmt) (leNat ((bs.drop (k * size)).take size))))

/-- The B block of column c in the block an operation has reached (R66, R256). -/
def State.bCol (s : State) (d : Nat) (o : MatOp) (cols c : Nat) : Except StepFault BBlock :=
  let base := bits o.b 31 0
  if o.opcode = 0x42 then
    let n := fmtNpl o.fmt + 1
    s.apBlock d (base + 8 * (n + 2) * (o.kb * cols + c)) n o.present (decide (fmtAcc o.fmt = 9))
  else s.q4Block d (base + 136 * (o.kb / 4 * cols + c)) (o.kb % 4) o.present (fmtScm o.fmt)

/-- Runs a list of reads in order, stopping at the first fault. -/
def allOk {α : Type} : List (Except StepFault α) → Except StepFault (List α)
  | [] => .ok []
  | .ok x :: t => match allOk t with
    | .ok l => .ok (x :: l)
    | .error e => .error e
  | .error e :: _ => .error e

/-- Plane passes of a step (R264, R267): under ZSK those of planes that are zero in every present element are omitted,
unless a summary is special. -/
def passesOf (o : MatOp) (rows : List (List FVal)) (colsB : List BBlock) : Nat :=
  let special := colsB.any (fun b => b.special) ||
    rows.any (fun r => r.any (fun x => match x with | .fin _ => false | _ => true))
  let n := if o.opcode = 0x42 then fmtNpl o.fmt + 1 else 4
  if !fmtZsk o.fmt || special then n
  else if o.opcode = 0x42 then
    (List.range n).countP (fun i => colsB.any (fun b =>
      b.w.any (fun w => decide (intBits n w / 2 ^ i % 2 = 1))))
  else if colsB.all (fun b => b.w.all (fun w => decide (w = 0))) then 0 else 4

/-- One K step on a tile (R283): the tile after block KB and the passes it took, or the fault that holds the operation at
the start of the step. -/
def State.kStep (s : State) (d : Nat) (o : MatOp) (t : Tile) : Except StepFault (Tile × Nat) := do
  let rows ← allOk ((List.range t.rows).map (s.aRow d o))
  let cols ← allOk ((List.range t.cols).map (s.bCol d o t.cols))
  let int8 := decide (fmtA o.fmt = 5)
  let new (r c : Nat) : Elem :=
    let a := rows.getD r []
    let b := cols.getD c ⟨[], ⟨false, 0, 1, 0⟩, [], false, false⟩
    if fmtAcc o.fmt = 9 then accumulateInt (t.elem r c) a b.w
    else accumulate (t.elem r c) (blockPartial int8 a b)
  let t' := (List.range t.rows).foldl (fun x r => (List.range t.cols).foldl (fun y c => y.setElem r c (new r c)) x) t
  .ok (t', passesOf o rows cols)

/-! The engine's course (R275, R281, R283). -/

/-- Whether an operation of an engine waits for an access of an earlier bundle (R282). -/
def State.opWaits (s : State) (o : MatOp) : Bool := s.anyOpen o.behind

/-- Begins the oldest accepted operation: its time follows Table 14-7; a held one waits (R284). -/
def State.startHead (s : State) (k : Nat) : State :=
  let e := s.eng k
  let md := (s.core k).mdiv
  match e.ops with
  | [] => s
  | o :: _ =>
    if o.held then s
    else if (o.opcode = 0x42 ∨ o.opcode = 0x43) ∧ o.kb < o.blocks then s.afterCycles (dieOfCore k) md 4 .matrixKStep (.n k o.id o.kb)
    else if o.opcode = 0x44 then
      s.afterCycles (dieOfCore k) md (2 + ((e.tile o.tile).map (fun t => t.rows)).getD 0) .matrixOpComplete (.n k o.id 0)
    else s.afterCycles (dieOfCore k) md 1 .matrixOpComplete (.n k o.id 0)

/-- The engine accepts an operation (R275). -/
def State.accept (s : State) (opcode tile imm : Nat) (a b : W64) : State :=
  let k := s.ck
  let o : MatOp := ⟨s.seq, opcode, tile, s.fmtNow, a, b, imm, 0, false, s.priorOpen⟩
  let s0 := if opcode = 0x44 then s.foldLater s.cd s.cx.tid s.seq s.iss.slot else s
  let s1 := (s0.modEng k (fun e => { e with ops := e.ops ++ [o] })).fresh
  if (s.eng k).ops.isEmpty then s1.startHead k else s1

/-- The FP32 or INT32 value of a tile element, finally rounded into a format, as its bytes (R69, R279). -/
def exitBytes (acc dfmt : Nat) (mode : RMode) (e : Elem) : List Byte :=
  let x : FVal := if acc = 9 then .fin (Ex.ofInt e.val.toInt) else fval e
  match numFmt dfmt with
  | .float f => leBytes (f.width / 8) (finFloat f mode x)
  | .int f => leBytes (f.width / 8) (intBits f.width (finInt f mode x).1)
  | _ => []

/-- The size in bytes of a format code 0x0 to 0xA. -/
def codeSize (c : Nat) : Nat :=
  match numFmt c with
  | .float f => f.width / 8
  | .int f => f.width / 8
  | _ => 0

/-- MSTORE's writes, rows ascending (R279). -/
def State.mstoreWrite (s : State) (k : Nat) (o : MatOp) (t : Tile) : State :=
  let d := dieOfCore k
  let tid := (s.eng k).owner.getD 0
  let mode := modeField (bits o.a 38 36) o.fmt
  let row (r : Nat) : List Byte :=
    (List.range t.cols).flatMap (fun c => exitBytes (fmtAcc o.fmt) (bits o.a 35 32) mode (t.elem r c))
  let at_ (r : Nat) : Nat := bits o.a 31 0 + r * bits o.a 55 40
  ((List.range t.rows).foldl (fun u r => u.localWrite d (at_ r) (row r) false) s).foldNow d tid o.id
    ((List.range t.rows).map (fun r => (at_ r, row r)))

/-- The effect of an MSHAPE, MZERO or MSTORE when it completes (R276, R277, R279). -/
def State.finishOp (s : State) (k : Nat) (o : MatOp) : State :=
  if o.opcode = 0x40 then
    if o.imm / 2 ^ 15 % 2 = 1 then s.modEng k (fun e => { e with tiles := mapDel e.tiles o.tile })
    else s.modEng k (fun e => { e with
      tiles := mapPut e.tiles o.tile ⟨o.imm % 32 + 1, o.imm / 32 % 64 + 1, true, []⟩ })
  else
    match (s.eng k).tile o.tile with
    | none => s
    | some t =>
      if o.opcode = 0x41 then
        s.modEng k (fun e => { e with tiles := mapPut e.tiles o.tile { t with elems := [], dirty := true } })
      else if o.opcode = 0x44 then s.mstoreWrite k o t
      else s

/-- Drops the oldest operation and begins the next. -/
def State.dropHead (s : State) (k : Nat) : State :=
  (s.modEng k (fun e => { e with ops := e.ops.drop 1 })).startHead k

/-- The oldest operation of an engine, if it is the one numbered `id` and runs. -/
def Engine.headIs (e : Engine) (id : Nat) : Option MatOp :=
  match e.ops with
  | o :: _ => if o.id = id ∧ ¬ o.held then some o else none
  | [] => none

/-- Whether a row that an MSTORE writes lies in a row group under refresh (R149). -/
def State.storeWaits (s : State) (k : Nat) (o : MatOp) : Bool :=
  match (s.eng k).tile o.tile with
  | none => false
  | some t => (List.range t.rows).any (fun r =>
      (rgsOf (bits o.a 31 0 + r * bits o.a 55 40) (t.cols * codeSize (bits o.a 35 32))).any (s.inRefresh (dieOfCore k)))

/-- Whether an MSTORE waits: for an access that it follows, or for a refresh (R149, R282). -/
def State.mstoreWaits (s : State) (k : Nat) (o : MatOp) : Bool := decide (o.opcode = 0x44) && (s.opWaits o || s.storeWaits k o)

/-- An MSHAPE, MZERO or MSTORE runs, or an MMA or MMAS that has accumulated every block ends (R281). -/
def State.matrixDone (s : State) (k id : Nat) : State :=
  match (s.eng k).headIs id with
  | some o =>
    if (o.opcode = 0x42 ∨ o.opcode = 0x43) ∧ o.kb < o.blocks then s
    else if s.mstoreWaits k o then s.afterCycles (dieOfCore k) (s.core k).mdiv 1 .matrixOpComplete (.n k id 0)
    else (s.finishOp k o).dropHead k
  | none => s

/-- The image in which a stopped task stands. -/
def TaskPhase.image? : TaskPhase → Option Nat
  | .saved i => some i
  | .held i => some i
  | .futureWait i _ => some i
  | .debugHeld i => some i
  | _ => none

/-- The image from which a task is to be restored into the slot it has taken. -/
def State.restoringIn (s : State) (tid : Nat) : Option Nat :=
  (s.agenda ++ s.timers.map (fun p => p.2)).findSome? (fun x =>
    match x.ev, x.arg with
    | .contextRestore, .n _ t i => if t = tid then some i else none
    | _, _ => none)

/-- The image from which the task in a context slot is still to be restored. -/
def State.restoresFrom (s : State) (c : Nat) (t : Task) : Option Nat :=
  if (s.ctx c).phase = .restoring then s.restoringIn t.tid else none

/-- The image that holds a task: the one it is saved in, also while its restore has still to read it (R285, R389). -/
def State.imageOf (s : State) (t : Task) : Option Nat :=
  match t.phase with
  | .placed c => s.restoresFrom c t
  | ph => ph.image?

/-- The tasks of a Cupola, and those of the teams on their way to it (R325). -/
def Die.held (x : Die) : List Task := x.tasks ++ x.team.flatMap (fun p => p.2)
/-- A task of a die by its number. -/
def State.task (s : State) (d tid : Nat) : Option Task := (s.die d).held.find? (fun t => decide (t.tid = tid))
/-- Changes a task of a die. -/
def State.modTask (s : State) (d tid : Nat) (f : Task → Task) : State :=
  let g (l : List Task) : List Task := l.map (fun t => if t.tid = tid then f t else t)
  s.modDie d (fun x => { x with tasks := g x.tasks, team := x.team.map (fun p => (p.1, g p.2)) })

/-- The VA of an image, numbered die × 65536 + its number in the die's pool (R387). -/
def State.imageVa (s : State) (i : Nat) : Nat :=
  bits (s.dieCtl (i / 65536) 0x1D0) 55 21 * 2 ^ 21 + 2 ^ 21 * (i % 65536)

/-- Records a pending asynchronous trap for a context, resident or saved (R381): an expiry or a deferred matrix fault once,
since EXPINFO and MXSTAT gather theirs (R146, R284); any other each time. -/
def addTrap (l : List AsyncTrap) (t : AsyncTrap) : List AsyncTrap :=
  if (t.code = 0x20 ∨ t.code = 0x23) ∧ l.any (fun x => decide (x.code = t.code)) then l else l ++ [t]

/-- Holds the running operation on a deferred fault (R284): the tile's step waits, MXSTAT records it unless PEND is set,
and the owner takes the fault at its next issue or at its restore. -/
def State.holdOp (s : State) (k : Nat) (o : MatOp) (f : StepFault) : State :=
  let s1 := s.modEng k (fun e => { e with ops := e.ops.map (fun x => if x.id = o.id then { x with held := true } else x) })
  let w := BitVec.ofNat 64 (2 ^ 63 + o.tile * 2 ^ 60 + f.code * 2 ^ 56 + o.kb % 2 ^ 10 * 2 ^ 46 + f.addr)
  match (s.eng k).owner with
  | none => s1
  | some tid =>
    match s1.slotOfTid k tid with
    | some c =>
      if bit (s1.ctxCtl c 0x078) 63 then s1
      else (s1.setCtxCtl c 0x078 w).trapCtx c (fun l => addTrap l ⟨0x23, 0⟩)
    | none =>
      let d := dieOfCore k
      match (s1.task d tid).bind s1.imageOf with
      | none => s1
      | some i =>
        let at_ := s1.imageVa i + 0x48
        match s1.readWord d at_ with
        | (s2, some old) =>
          if bit old 63 then s2
          else ((s2.writeVa d at_ (leBytes 8 w.toNat)).1).modTask d tid (fun t =>
            { t with traps := addTrap t.traps ⟨0x23, 0⟩ })
        | (s2, none) => s2

/-- MDUTY of the context that owns a core's engine: in its slot, or in its image until its restore has read it (R285, R387). -/
def State.ownerDuty (s : State) (k tid : Nat) : Nat :=
  match s.slotOfTid k tid with
  | some c => bits (s.ctxCtl c 0x090) 6 4
  | none =>
    match s.dies.findSome? (fun p => (p.2.tasks.find? (fun t => decide (t.tid = tid))).bind s.imageOf) with
    | none => 7
    | some i => ((s.readWord (i / 65536) (s.imageVa i + 0x68)).2.map (fun w => bits w 6 4)).getD 7

/-- Passes that the engine may run in any 8 matrix cycles (R412, R413). -/
def State.passCap (s : State) (k : Nat) : Nat :=
  let md := ((s.eng k).owner.map (s.ownerDuty k)).getD 7
  min md (2 * bits (s.dieCtl (dieOfCore k) 0x202) 50 48 - 1) + 1

/-- Matrix cycles that some passes take (R412, R413). -/
def State.passTime (s : State) (k passes : Nat) : Nat :=
  let cap := s.passCap k
  if cap = 8 then passes else (passes * 8 + cap - 1) / cap

/-- One K step of the running operation (R283), or the deferred fault that holds it (R284). DESIGN CHOICE: an operation of a
restored tile area whose tile an MSHAPE OFF before it has unconfigured (R286 does not reject it) ends with no effect. -/
def State.matrixStep (s : State) (k id kb : Nat) : State :=
  match (s.eng k).headIs id with
  | none => s
  | some o =>
    if o.kb ≠ kb ∨ ¬ (o.opcode = 0x42 ∨ o.opcode = 0x43) ∨ o.blocks ≤ kb then s
    else if s.opWaits o then s.afterCycles (dieOfCore k) (s.core k).mdiv 1 .matrixKStep (.n k id kb)
    else
      match (s.eng k).tile o.tile with
      | none => s.dropHead k
      | some t =>
        match s.kStep (dieOfCore k) o t with
        | .error f => if f.code = 4 then s.afterCycles (dieOfCore k) (s.core k).mdiv 1 .matrixKStep (.n k id kb) else s.holdOp k o f
        | .ok (t', passes) =>
          let md := (s.core k).mdiv
          let time := s.passTime k (max passes 1)
          let s1 := s.modEng k (fun e => { e with
            tiles := mapPut e.tiles o.tile t',
            ops := e.ops.map (fun x => if x.id = id then { x with kb := kb + 1 } else x) })
          if kb + 1 < o.blocks then s1.afterCycles (dieOfCore k) md time .matrixKStep (.n k id (kb + 1))
          else s1.afterCycles (dieOfCore k) md (time + 2) .matrixOpComplete (.n k id 0)

/-- Resumes what a deferred fault holds in an engine (R284). -/
def State.resumeHeld (s : State) (k : Nat) : State :=
  if (s.eng k).ops.any (fun o => o.held) then
    (s.modEng k (fun e => { e with ops := e.ops.map (fun o => { o with held := false }) })).startHead k
  else s

/-- Cancels the operation held on a tile (R284): MXSTAT is cleared and a fault not yet taken is withdrawn. -/
def State.cancelHeld (s : State) (c n : Nat) : State :=
  let k := coreOf c
  if (s.eng k).held n then
    let s1 := s.modEng k (fun e => { e with ops := e.ops.filter (fun o => !(o.held && decide (o.tile = n))) })
    let s2 := (s1.setCtxCtl c 0x078 0).modCtx c (fun x =>
      { x with traps := x.traps.filter (fun t => decide (t.code ≠ 0x23)) })
    s2.startHead k
  else s

/-! Issue of the matrix instructions. -/

/-- Whether a bundle naming tile n waits: the context owns no tiles yet, or the tile is busy (R281, R285). -/
def State.tileHold (s : State) (n : Nat) : Bool := !s.owns s.iss.ctx || (s.eng s.ck).busy n
/-- Whether an operation for the engine waits: besides a busy tile, four accepted operations (R275). -/
def State.engineHold (s : State) (n : Nat) (cancels : Bool) : Bool :=
  let e := s.eng s.ck
  if !s.owns s.iss.ctx || decide (4 ≤ e.ops.length) then true
  else if cancels && e.held n then false
  else e.busy n
/-- The unconfigured-tile fault (R272). -/
def State.unconf (s : State) (n : Nat) : Option Stop :=
  if ((s.eng s.ck).tile n).isNone then some ⟨0x0C, n, 0, none⟩ else none

/-- A matrix operation of the F slot. -/
def matrixOp (d : Reg) (regs : List Reg) (cancels : Bool) (chk : State → Option Stop) (effect : State → State) :
    SlotOp :=
  { SlotOp.plain effect with
    reads := regs.flatMap gref, phase := 1, engine := true,
    hold := fun s => s.engineHold d.toNat cancels, check := pureCheck chk }

/-- MSHAPE (R276). -/
def opMshape (d : Reg) (imm : Imm16) : SlotOp :=
  matrixOp d [] true (fun _ => none) (fun s =>
    (s.cancelHeld s.iss.ctx d.toNat).accept 0x40 d.toNat imm.field.toNat 0 0)
/-- MSHAPE at issue (R276). -/
def execMshape (d : Reg) (imm : Imm16) (s : State) : Result := (opMshape d imm).exec s

/-- MZERO (R277). -/
def opMzero (d : Reg) : SlotOp :=
  matrixOp d [] true (fun s => s.unconf d.toNat) (fun s => (s.cancelHeld s.iss.ctx d.toNat).accept 0x41 d.toNat 0 0 0)
/-- MZERO at issue (R277). -/
def execMzero (d : Reg) (s : State) : Result := (opMzero d).exec s

/-- Steps 2 to 4 of R278. -/
def mmaOperands (s : State) (q4 : Bool) (t : Tile) (a b : W64) : Option Stop :=
  let f := s.fmtNow
  let k := bits b 47 32
  let size := (aSize (fmtA f)).getD 1
  let n := fmtNpl f + 1
  let aEnd := (t.rows - 1) * bits a 47 32 + k * size
  let bLen := if q4 then (k + 255) / 256 * t.cols * 136 else (k + 63) / 64 * t.cols * (8 * (n + 2))
  firstFault
    [(decide ((aSize (fmtA f)) = none) || (if q4 then decide (fmtB f ≠ 0xE) else decide (fmtB f ≠ 0xF ∨ fmtNpl f = 0)) ||
        decide (fmtAcc f ≠ 0 ∧ fmtAcc f ≠ 9) || decide (fmtAcc f = 9 ∧ fmtA f ≠ 5) || (decide (fmtAcc f = 9) && q4) ||
        decide (bits a 63 48 ≠ 0) || decide (bits b 63 48 ≠ 0) || decide (k = 0), Stop.of 0x04),
     (decide (bits a 31 0 % 16 ≠ 0) || decide (bits a 47 32 % 16 ≠ 0) ||
        decide (bits b 31 0 % (if q4 then 8 else 64) ≠ 0), Stop.of 0x05),
     (!s.localOk s.cd (bits a 31 0) aEnd, Stop.localAddr .read a),
     (!s.localOk s.cd (bits b 31 0) bLen, Stop.localAddr .read b)]

/-- The checks at issue of MMA and MMAS in order (R278). -/
def mmaCheck (q4 : Bool) (d a b : Reg) (s : State) : Option Stop :=
  match (s.eng s.ck).tile d.toNat with
  | none => s.unconf d.toNat
  | some t => mmaOperands s q4 t (s.g a) (s.g b)

/-- MMA (R278). -/
def opMma (d a b : Reg) : SlotOp :=
  matrixOp d [a, b] false (mmaCheck false d a b) (fun s => s.accept 0x42 d.toNat 0 (s.g a) (s.g b))
/-- MMA at issue (R278). -/
def execMma (d a b : Reg) (s : State) : Result := (opMma d a b).exec s

/-- MMAS (R278). -/
def opMmas (d a b : Reg) : SlotOp :=
  matrixOp d [a, b] false (mmaCheck true d a b) (fun s => s.accept 0x43 d.toNat 0 (s.g a) (s.g b))
/-- MMAS at issue (R278). -/
def execMmas (d a b : Reg) (s : State) : Result := (opMmas d a b).exec s

/-- The checks at issue of MSTORE in order (R279). -/
def mstoreCheck (d a : Reg) (s : State) : Option Stop :=
  match (s.eng s.ck).tile d.toNat with
  | none => s.unconf d.toNat
  | some t =>
    let x := s.g a
    let acc := fmtAcc s.fmtNow
    let len := (t.rows - 1) * bits x 55 40 + t.cols * codeSize (bits x 35 32)
    firstFault
      [(decide (bits x 63 56 ≠ 0) || bit x 39 || decide (bits x 38 36 = 5 ∨ bits x 38 36 = 6) ||
          decide (0xA < bits x 35 32) || decide (acc ≠ 0 ∧ acc ≠ 9), Stop.of 0x04),
       (decide (bits x 31 0 % 16 ≠ 0) || decide (bits x 55 40 % 16 ≠ 0), Stop.of 0x05),
       (!s.localOk s.cd (bits x 31 0) len, Stop.localAddr .write x)]

/-- MSTORE (R279). -/
def opMstore (d a : Reg) : SlotOp :=
  matrixOp d [a] false (mstoreCheck d a) (fun s => s.accept 0x44 d.toNat 0 (s.g a) 0)
/-- MSTORE at issue (R279). -/
def execMstore (d a : Reg) (s : State) : Result := (opMstore d a).exec s

/-- MWAIT on a held tile raises the deferred matrix fault again (R280). -/
def mwaitOp (tiles : List Nat) : SlotOp :=
  { SlotOp.plain (fun s => s) with
    engine := true
    hold := fun s =>
      let e := s.eng s.ck
      !s.owns s.iss.ctx || (tiles.any e.busy && !(tiles.any e.held))
    before := fun s => if s.owns s.iss.ctx && tiles.any (s.eng s.ck).held then some (Stop.of 0x23) else none }

/-- MWAIT (R280). -/
def opMwait (d : Reg) : SlotOp := mwaitOp [d.toNat]
/-- MWAIT at issue (R280). -/
def execMwait (d : Reg) (s : State) : Result := (opMwait d).exec s

/-- MWAIT.ALL (R280). -/
def opMwaitAll : SlotOp := mwaitOp [0, 1, 2, 3, 4, 5, 6, 7]
/-- MWAIT.ALL at issue (R280). -/
def execMwaitAll (s : State) : Result := (opMwaitAll).exec s

/-! Tile moves (R250, R251). -/

/-- The checks of a tile move: the tile's shape is set and the index lies inside it (R250). -/
def moveCheck (z : Reg) (i : Nat) (row : Bool) (s : State) : Option Stop :=
  match (s.eng s.ck).tile z.toNat with
  | none => s.unconf z.toNat
  | some t => if (if row then t.rows else t.cols) ≤ i then some (Stop.of 0x04) else none

/-- A tile read (R250); it lands at 6 (R45). -/
def trdOp (d z : Reg) (imm : Imm10) (row : Bool) : SlotOp :=
  let i := imm.int.toNat
  { SlotOp.plain (fun s =>
      match (s.eng s.ck).tile z.toNat with
      | none => s
      | some t => s.pendV d 6 0 (fun j =>
          if row then (if j < t.cols then t.elem i j else Elem.zero)
          else (if j < t.rows then t.elem j i else Elem.zero))) with
    writes := wr (vdst d) 6, engine := true, hold := fun s => s.tileHold z.toNat,
    check := pureCheck (moveCheck z i row) }

/-- A tile write: the elements reach the tile six control-clock periods after issue (R251). -/
def twrOp (z a : Reg) (imm : Imm10) (row : Bool) : SlotOp :=
  let i := imm.int.toNat
  { SlotOp.plain (fun s =>
      match (s.eng s.ck).tile z.toNat with
      | none => s
      | some t =>
        let es : Table Elem :=
          if row then (List.range t.cols).map (fun j => (i * t.cols + j, s.v a j))
          else (List.range t.rows).map (fun j => (j * t.cols + i, s.v a j))
        let k := s.ck
        let w : TileWrite := ⟨s.seq, z.toNat, es⟩
        ((s.modEng k (fun e => { e with writes := e.writes ++ [w] })).fresh).afterCycles s.cd (s.core k).cdiv 1
          .tileWriteComplete (.n k s.seq 5)) with
    pops := [a], reads := vref a, phase := 1, engine := true, hold := fun s => s.tileHold z.toNat,
    check := pureCheck (moveCheck z i row) }

/-- TRD.ROW (R250). -/
def opTrdRow (d a : Reg) (imm : Imm10) : SlotOp := trdOp d a imm true
/-- TRD.ROW at issue (R250). -/
def execTrdRow (d a : Reg) (imm : Imm10) (s : State) : Result := (opTrdRow d a imm).exec s

/-- TRD.COL (R250). -/
def opTrdCol (d a : Reg) (imm : Imm10) : SlotOp := trdOp d a imm false
/-- TRD.COL at issue (R250). -/
def execTrdCol (d a : Reg) (imm : Imm10) (s : State) : Result := (opTrdCol d a imm).exec s

/-- TWR.ROW (R250). -/
def opTwrRow (d a : Reg) (imm : Imm10) : SlotOp := twrOp d a imm true
/-- TWR.ROW at issue (R250). -/
def execTwrRow (d a : Reg) (imm : Imm10) (s : State) : Result := (opTwrRow d a imm).exec s

/-- TWR.COL (R250). -/
def opTwrCol (d a : Reg) (imm : Imm10) : SlotOp := twrOp d a imm false
/-- TWR.COL at issue (R250). -/
def execTwrCol (d a : Reg) (imm : Imm10) (s : State) : Result := (opTwrCol d a imm).exec s

/-- Puts a tile write's elements into its tile. -/
def Engine.applyWrite (e : Engine) (w : TileWrite) : Engine :=
  match e.tile w.tile with
  | none => e
  | some t =>
    let t' := { t with elems := w.elems.foldl (fun m p => mapPut m p.1 p.2) t.elems, dirty := true }
    { e with tiles := mapPut e.tiles w.tile t' }

/-- Performs every tile write on its way (R251): what a stop or a change of owner does first. -/
def State.drainWrites (s : State) (k : Nat) : State :=
  s.modEng k (fun e => let e' := e.writes.foldl Engine.applyWrite e; { e' with writes := [] })

/-- TILE_WRITE_COMPLETE of core a, write b, with c control-clock periods still to pass (R251). -/
def execTileWriteComplete (s : State) : Result :=
  match s.ev with
  | .n k id (left + 1) =>
    if (s.eng k).writes.any (fun w => decide (w.id = id)) then .next (s.afterCycles (dieOfCore k) (s.core k).cdiv 1
      .tileWriteComplete (.n k id left))
    else .next s
  | .n k id 0 => .next (s.modEng k (fun e =>
      let e' := (e.writes.filter (fun w => decide (w.id = id))).foldl Engine.applyWrite e
      { e' with writes := e.writes.filter (fun w => decide (w.id ≠ id)) }))
  | _ => .next s

end Sys2Proof.Machine
end

