-- ==== Sys2Proof/Machine/Sequencer.lean ====
section
/-! DEFINITION. The sequencer (R288 to R308): branches, transfers, hardware loops, and the instructions that yield, wait,
end or trap. A control-flow operation sets the next PC; an operation of the After class runs once the next PC stands
(R378, R379). -/

namespace Sys2Proof.Machine

/-- An address modulo 2^56 (R290). -/
def addr56 (x : Int) : Nat := (x % (2 ^ 56 : Nat)).toNat

/-- A taken transfer: the target and 2 frozen cycles (R45, R290). -/
def State.transfer (s : State) (target : Nat) : State :=
  let s1 := s.modCtx s.iss.ctx (fun x => { x with pc := target })
  { s1.freeze 2 with iss := { s1.iss with taken := true } }

/-- A pre-emption point has been reached (R298): WDC is 0 (R300). -/
def State.atPoint (s : State) : State :=
  let s1 := s.modCtx s.iss.ctx (fun x => { x with wdc := 0 })
  { s1 with iss := { s1.iss with point := true } }

/-- The address P + 32 × n of R290. -/
def State.rel (s : State) (n : Int) : Nat := addr56 ((s.iss.pc : Int) + 32 * n)

/-- A control-flow operation with no check. -/
def flowOp (reads : List Reg) (effect : State → State) : SlotOp :=
  { SlotOp.plain effect with reads := reads.flatMap gref, phase := 3 }

/-- The condition of B.cond (R33, Table 2-6). -/
def brTaken (cond : Nat) (x : W64) : Bool :=
  match cond with
  | 0 => x == 0
  | 1 => x != 0
  | 2 => x.slt 0
  | 3 => !(x.slt 0)
  | 4 => (0#64).slt x
  | 5 => !((0#64).slt x)
  | _ => true

/-- B.cond (R291). -/
def opBCond (cond : BitVec 4) (a : Reg) (off : Imm12) : SlotOp :=
  flowOp [a] (fun s => if brTaken cond.toNat (s.g a) then s.transfer (s.rel off.int) else s)
/-- B.COND at issue (R291). -/
def execBCond (cond : BitVec 4) (a : Reg) (off : Imm12) (s : State) : Result := (opBCond cond a off).exec s

/-- JMP to an absolute bundle number (R36, R292). -/
def opJmp (imm : Imm16) : SlotOp := flowOp [] (fun s => s.transfer (addr56 (32 * imm.int)))
/-- JMP at issue (R292). -/
def execJmp (imm : Imm16) (s : State) : Result := (opJmp imm).exec s

/-- The checks of JMPR and RET: alignment, then the top byte, which is the fetch fault of that target (R292). -/
def indirectCheck (x : W64) : Option Stop :=
  if x.toNat % 32 ≠ 0 then some (Stop.of 0x05)
  else if x.toNat / 2 ^ 56 ≠ 0 then some (Stop.transl .fetch x.toNat 2 0)
  else none
/-- An indirect transfer (R292). -/
def indirectOp (a : Reg) : SlotOp :=
  { flowOp [a] (fun s => s.transfer (s.g a).toNat) with check := pureCheck (fun s => indirectCheck (s.g a)) }
/-- JMPR (R292). -/
def opJmpr (a : Reg) : SlotOp := indirectOp a
/-- JMPR at issue (R292). -/
def execJmpr (a : Reg) (s : State) : Result := (opJmpr a).exec s

/-- RET (R292). -/
def opRet (a : Reg) : SlotOp := indirectOp a
/-- RET at issue (R292). -/
def execRet (a : Reg) (s : State) : Result := (opRet a).exec s

/-- CALL: the link lands at 1 (R292). -/
def opCall (d : Reg) (imm : Imm16) : SlotOp :=
  { flowOp [] (fun s => (s.pendG d 1 (BitVec.ofNat 64 (s.rel 1))).transfer (s.rel imm.int)) with
    writes := wr (gref d) 1 }
/-- CALL at issue (R292). -/
def execCall (d : Reg) (imm : Imm16) (s : State) : Result := (opCall d imm).exec s

/-- The address of the last body bundle of a loop entry (R288). -/
def LoopEntry.lastAddr (e : LoopEntry) : Nat := addr56 ((e.start + 32 * (e.last - 1) : Nat) : Int)

/-- Whether a loop of `last` bundles whose body begins at `first` ends beyond the last body bundle of an entry (R297). DESIGN
CHOICE: where the entry's body crosses 2^56, the addresses past it come after those below; the manual gives no order there. -/
def LoopEntry.beyond (e : LoopEntry) (first last : Nat) : Bool :=
  let stop := e.start + 32 * (e.last - 1)
  let q := if 2 ^ 56 ≤ stop ∧ first < e.start then first + 2 ^ 56 else first
  decide (stop < q + 32 * (last - 1))

/-- The loop faults of a start with a positive count (R297): at depth 6, in the last body bundle of the top entry, or
ending beyond it. -/
def loopFault (x : Ctx) (p last : Nat) : Option Stop :=
  if 6 ≤ x.loops.length then some ⟨0x0F, 1, 0, none⟩
  else
    match x.loops with
    | [] => none
    | e :: _ =>
      if p = e.lastAddr then some ⟨0x0F, 2, 0, none⟩
      else if e.beyond (addr56 ((p : Int) + 32)) last then some ⟨0x0F, 3, 0, none⟩
      else none

/-- LOOP and LOOPI with count n (R293). -/
def loopOp (reads : List Reg) (last : BitVec 12) (n : State → Int) : SlotOp :=
  { flowOp reads (fun s =>
      if n s ≤ 0 then (s.transfer (s.rel ((last.toNat : Int) + 1))).atPoint
      else s.modCtx s.iss.ctx (fun x =>
        { x with loops := ⟨last.toNat, s.rel 1, (n s).toNat, 0⟩ :: x.loops })) with
    check := pureCheck (fun s => if n s ≤ 0 then none else loopFault s.cx s.iss.pc last.toNat) }
/-- LOOP: the count is g[a], signed (R293). -/
def opLoop (a : Reg) (last : BitVec 12) : SlotOp := loopOp [a] last (fun s => (s.g a).toInt)
/-- LOOP at issue (R293). -/
def execLoop (a : Reg) (last : BitVec 12) (s : State) : Result := (opLoop a last).exec s

/-- LOOPI: the count is the immediate (R293). -/
def opLoopi (count : Imm10) (last : BitVec 12) : SlotOp := loopOp [] last (fun _ => count.int)
/-- LOOPI at issue (R293). -/
def execLoopi (count : Imm10) (last : BitVec 12) (s : State) : Result := (opLoopi count last).exec s

/-- LIDX: the INDEX of a loop entry counted from the innermost, or 2^64 − 1 (R295). -/
def opLidx (d : Reg) (imm : Imm10) : SlotOp :=
  { scalarOp d [] 1 (fun s =>
      match s.cx.loops[imm.int.toNat]? with
      | some e => BitVec.ofNat 64 e.index
      | none => BitVec.ofInt 64 (-1)) with phase := 0 }
/-- LIDX at issue (R295). -/
def execLidx (d : Reg) (imm : Imm10) (s : State) : Result := (opLidx d imm).exec s

/-- Whether LBRK is taken (R296). -/
def lbrkTaken (s : State) (a : Reg) : Bool := decide (a = 0) || decide (s.g a ≠ 0)
/-- LBRK pops the top entry and goes to the bundle after its last (R296, R297). -/
def opLbrk (a : Reg) : SlotOp :=
  { flowOp [a] (fun s =>
      if lbrkTaken s a then
        match s.cx.loops with
        | [] => s
        | e :: t =>
          ((s.modCtx s.iss.ctx (fun x => { x with loops := t })).transfer (addr56 ((e.lastAddr : Int) + 32))).atPoint
      else s) with
    check := pureCheck (fun s =>
      if lbrkTaken s a && s.cx.loops.isEmpty then some ⟨0x0F, 4, 0, none⟩ else none) }
/-- LBRK at issue (R296). -/
def execLbrk (a : Reg) (s : State) : Result := (opLbrk a).exec s

/-- FMTSET's operand (R273, R274): reserved bits zero, RMODE 0 to 4, SCM 0 to 2. -/
def fmtOk (x : W64) : Bool :=
  decide (bits x 63 24 = 0) && decide (bits x 17 16 = 0) && decide (bits x 20 18 ≤ 4) && decide (bits x 22 21 ≠ 3)
/-- FMTSET: FMT changes for operations issued 4 cycles on (R274). -/
def opFmtset (a : Reg) : SlotOp :=
  { SlotOp.plain (fun s => s.pendRaw 0 4 (.fmt (s.g a)) true) with
    reads := gref a, check := pureCheck (fun s => if fmtOk (s.g a) then none else some (Stop.of 0x04)) }
/-- FMTSET at issue (R274). -/
def execFmtset (a : Reg) (s : State) : Result := (opFmtset a).exec s

/-- FMTGET (R274). -/
def opFmtget (d : Reg) : SlotOp := scalarOp d [] 1 (fun s => s.fmtNow)
/-- FMTGET at issue (R274). -/
def execFmtget (d : Reg) (s : State) : Result := (opFmtget d).exec s

/-- TSTAMP: the timebase at issue (R305). -/
def opTstamp (d : Reg) : SlotOp := scalarOp d [] 1 (fun s => BitVec.ofNat 64 s.tstamp)
/-- TSTAMP at issue (R305). -/
def execTstamp (d : Reg) (s : State) : Result := (opTstamp d).exec s

/-- CYCLES: the issue cycle of the bundle (R305). -/
def opCycles (d : Reg) : SlotOp := scalarOp d [] 1 (fun s => BitVec.ofNat 64 s.iss.cycle)
/-- CYCLES at issue (R305). -/
def execCycles (d : Reg) (s : State) : Result := (opCycles d).exec s

/-- An operation performed once its bundle has issued and the next PC stands (R379). -/
def afterOp (reads : List Reg) (effect : State → State) : SlotOp :=
  { SlotOp.plain effect with reads := reads.flatMap gref, phase := 4 }

/-- Whether the context has not been stopped yet by a lower slot of the bundle. -/
def State.live (s : State) : Bool := decide (s.cx.phase = .ready)

/-- An operation of class After whose context a lower slot of the bundle has stopped already: it comes once the context would
run again, before its next bundle, unless that slot ended the task. DEDUCED: the manual gives no order of two such operations
(R375, R379), and none is lost. -/
def State.defer (s : State) (w : AfterKind) : State :=
  if s.cx.phase = .done then s
  else s.modCtx s.iss.ctx (fun x => { x with later := x.later ++ [⟨s.iss.slot, s.iss.pc, w⟩] })

/-- A stop of the After class (R378): PC is the bundle that would issue next, CAUSEPC this bundle. -/
def State.stopAfter (s : State) (code detail : Nat) : State :=
  if s.live then s.takeStop s.iss.ctx ⟨code, detail, s.iss.slot, none⟩ s.iss.pc 0 false else s.defer (.stop code detail)

/-- A context leaves the core and keeps its slot (R302, R331): the stop record names the bundle and slot, and it is ready again
when what it waits for comes. -/
def State.parkAt (s : State) (c slot pc : Nat) (ph : CtxPhase) : State :=
  let s1 := s.setCtxCtl c 0x081 (stopWord 0x42 0 slot 0 false)
  let s2 := s1.setCtxCtl c 0x082 (BitVec.ofNat 64 pc)
  let s3 := s2.modCtx c (fun x => { x with phase := ph })
  let s4 := s3.modCore (coreOf c) (fun k => if k.running = some (c % 4) then { k with running := none } else k)
  let s5 := s4.stirLate.dueN .runningContextChange (coreOf c)
  match ph with
  | .waitTime t => s5.at_ (6 * t) .waitTimerExpiry (.n c 0 0)
  | _ => s5

/-- A suspension after the bundle that keeps the context's slot (R302, R331). -/
def State.park (s : State) (ph : CtxPhase) : State :=
  if s.live then s.parkAt s.iss.ctx s.iss.slot s.iss.pc ph else s.defer (.wait ph)

/-- YIELD is a pre-emption point (R298, R301). -/
def opYield : SlotOp := afterOp [] (fun s => s.atPoint)
/-- YIELD at issue (R301). -/
def execYield (s : State) : Result := (opYield).exec s

/-- WAIT suspends until TSTAMP reaches g[a] (R302); it is a pre-emption point (R298). -/
def opWait (a : Reg) : SlotOp :=
  afterOp [a] (fun s =>
    let t := (s.g a).toNat
    if s.tstamp < t then s.atPoint.park (.waitTime t) else s.atPoint)
/-- WAIT at issue (R302). -/
def execWait (a : Reg) (s : State) : Result := (opWait a).exec s

/-- DONE ends the task (R303): the context takes no further bundle and its core is frozen, from the end of this one's cycles,
until the completion, which comes once outstanding replies and matrix operations have and discards what it holds. -/
def opDone : SlotOp :=
  afterOp [] (fun s =>
    if s.live then
      (s.modCtx s.iss.ctx (fun x => { x with phase := .done })).at_ (s.core s.ck).next .taskCompletion (.n s.iss.ctx 0 0)
    else s.defer .done)
/-- DONE at issue (R303). -/
def execDone (s : State) : Result := (opDone).exec s

/-- TRAP stops after its bundle, DETAIL the code (R382). -/
def opTrap (imm : Imm16) : SlotOp := afterOp [] (fun s => s.stopAfter 0x30 imm.raw)
/-- TRAP at issue (R382). -/
def execTrap (imm : Imm16) (s : State) : Result := (opTrap imm).exec s

/-- SYS stops after its bundle, DETAIL the service number (R382). -/
def opSys (imm : Imm16) : SlotOp := afterOp [] (fun s => s.stopAfter 0x31 imm.raw)
/-- SYS at issue (R382). -/
def execSys (imm : Imm16) (s : State) : Result := (opSys imm).exec s

/-- CLKDIV's operand (R307): CDIV and MDIV 4 to 8, every other bit but VX2 zero. -/
def clkdivOk (x : W64) : Bool :=
  inRange (bits x 3 0) 4 8 && inRange (bits x 11 8) 4 8 && decide (bits x 7 5 = 0) && decide (bits x 63 12 = 0)

/-- Pauses a core for 12 reference ticks at its next bundle boundary, after which new divisors apply (R307, R410). -/
def State.pauseCore (s : State) (k : Nat) : State :=
  let t := max (s.core k).next s.now + 12
  (s.modCore k (fun x => { x with
    pausing := true, next := t, pause := (if x.next ≤ s.now then 0 else x.pause) + 12 })).at_ t .clkdivPauseEnd (.n k 0 0)

/-- The core whose clock times an event, and whether that is its matrix clock or its control clock (R16, R144, R251). -/
def coreClock (x : Due) : Option (Nat × Bool) :=
  match x.ev, x.arg with
  | .matrixKStep, .n k _ _ => some (k, true)
  | .matrixOpComplete, .n k _ _ => some (k, true)
  | .tileWriteComplete, .n k _ _ => some (k, false)
  | .taskCompletion, .n c _ _ => some (coreOf c, false)
  | .phaseRefetchComplete, .n c _ _ => some (coreOf c, false)
  | .refreshComplete, .n k _ _ => if k < 4096 then some (k, false) else none
  | _, _ => none

/-- Puts divisors in force on a core (R307): what its clocks time takes the rest of its cycles at them (R144). -/
def State.setDivs (s : State) (k : Nat) (cd vd md : Nat) : State :=
  let x := s.core k
  let s1 := s.setCore k { x with cdiv := cd, vdiv := vd, mdiv := md }
  if x.cdiv = cd ∧ x.mdiv = md then s1
  else
    s1.retimeTimers (fun t e =>
      match coreClock e with
      | some (j, m) =>
        if j ≠ k then t else if m then s.rescale (dieOfCore k) x.mdiv md t else s.rescale (dieOfCore k) x.cdiv cd t
      | none => t)

/-- The divisors a clock request gives on a core: each raised to the floor (R307, R410). -/
def State.clkOf (s : State) (k req : Nat) : Nat × Nat × Nat :=
  let fl := s.floorOf (dieOfCore k)
  let cd := max (req % 16) fl
  (cd, if req / 16 % 2 = 1 then 2 * cd else cd, max (req / 256 % 16) fl)

/-- Has a core take the divisors of its running context at its next bundle boundary, where they differ from those in force, with a
pause of 12 reference ticks, unless it pauses already (R307, R410). -/
def State.retime (s : State) (k : Nat) : State :=
  let x := s.core k
  match x.running with
  | none => s
  | some r =>
    if x.pausing ∨ s.clkOf k (s.ctx (k * 4 + r)).clkreq = (x.cdiv, x.vdiv, x.mdiv) then s else s.pauseCore k

/-- CLKDIV stores the request; the divisors apply from the next bundle after a pause of 12 reference ticks (R307). -/
def opClkdiv (a : Reg) : SlotOp :=
  { SlotOp.plain (fun s =>
      let s1 := s.modCtx s.iss.ctx (fun x => { x with clkreq := (s.g a).toNat % 2 ^ 16 })
      s1.pauseCore s1.ck) with
    reads := gref a, phase := 1,
    check := pureCheck (fun s => if clkdivOk (s.g a) then none else some (Stop.of 0x04)) }
/-- CLKDIV at issue (R307). -/
def execClkdiv (a : Reg) (s : State) : Result := (opClkdiv a).exec s

end Sys2Proof.Machine
end

