-- ==== Sys2Proof/Machine/Cupola.lean ====
section
/-! DEFINITION. The Cupola (R309 to R336): dependence counters, donation, the Lexicon and its instructions, task
descriptors, placement, the loop-nest walker, team migration, and SPAWN. -/

namespace Sys2Proof.Machine

/-! Dies as a partition numbers them (R74, R330). -/

/-- The physical die of a partition's logical die number, seen from die d; none outside the partition. -/
def State.phys (s : State) (d n : Nat) : Option Nat := (s.part (s.partOf d)).dies[n]?
/-- The logical number of a physical die in its partition. -/
def State.logical (s : State) (d : Nat) : Nat := ((s.part (s.partOf d)).dies.findIdx? (fun x => decide (x = d))).getD 0
/-! Tasks over all dies. -/

/-- The tasks of every die, with the die whose Cupola holds them, or to which their team is on its way (R325). -/
def State.allTasks (s : State) : List (Nat × Task) := s.dies.flatMap (fun p => p.2.held.map (fun t => (p.1, t)))
/-- The operators of every die. -/
def State.allOps (s : State) : List (Nat × Operator) := s.dies.flatMap (fun p => p.2.operators.map (fun o => (p.1, o)))

/-- Effective priority (R333). -/
def Task.eff (t : Task) : Nat := max t.prio t.donated
/-- Effective priority of a packet (R333). -/
def Packet.eff (p : Packet) : Nat := max p.prio p.donated

/-- The task in a context slot. -/
def State.taskAt (s : State) (c : Nat) : Option Task := s.task (dieOf c) (s.ctx c).tid
/-- The effective priority of a resident context (R333). -/
def State.ctxPrio (s : State) (c : Nat) : Nat := ((s.taskAt c).map Task.eff).getD 0

/-! Donation (R334). -/

/-- A waiter: the die and number of the counter, and its effective priority. -/
structure Waiter where
  die : Nat
  cnt : Nat
  prio : Nat
deriving DecidableEq, Repr

/-- Every waiter on a counter: gated tasks, gated operators, contexts in CNT.WAIT (R329). -/
def State.waiters (s : State) : List Waiter :=
  s.dies.flatMap (fun p =>
    p.2.tasks.filterMap (fun t => match t.phase with | .gated n => some ⟨p.1, n, t.eff⟩ | _ => none) ++
    p.2.operators.filterMap (fun o => o.gate.map (fun n => ⟨p.1, n, max o.prio o.donated⟩))) ++
  s.ctxs.filterMap (fun p => match p.2.phase with
    | .waitCounter d n => some ⟨d, n, s.ctxPrio p.1⟩
    | _ => none)

/-- The highest priority that waiters on a counter donate. -/
def donatedBy (ws : List Waiter) (die cnt : Nat) : Nat :=
  ws.foldl (fun m w => if w.die = die ∧ w.cnt = cnt then max m w.prio else m) 0

/-- The donation an operator receives on its counters. -/
def Operator.given (o : Operator) (ws : List Waiter) (d : Nat) : Nat :=
  max (if o.cen then donatedBy ws d o.cnt else 0) (if o.scen then donatedBy ws d o.scnt else 0)

/-- Whether a task is in no context slot. -/
def Task.unplaced (t : Task) : Bool :=
  match t.phase with
  | .placed _ => false
  | _ => true

/-- What a task receives: by its own counter, and, while unplaced, what its operator receives. -/
def Task.given (t : Task) (ws : List Waiter) (ops : List (Nat × Operator)) : Nat :=
  let own := if t.cen then donatedBy ws t.home t.cnt else 0
  match t.kind with
  | .step o =>
    if t.unplaced then
      ops.foldl (fun m p => if p.1 = t.home ∧ p.2.id = o then max m (p.2.given ws p.1) else m) own
    else own
  | _ => own

/-- One round of donation: every decrementer takes what the present waiters donate. -/
def State.donateOnce (s : State) : State :=
  let ws := s.waiters
  let ops := s.allOps
  { s with dies := s.dies.map (fun p => (p.1, { p.2 with
      tasks := p.2.tasks.map (fun t => { t with donated := t.given ws ops }),
      operators := p.2.operators.map (fun o => { o with donated := o.given ws p.1 }),
      copy := p.2.copy.map (fun q => (q.1, { q.2 with packets := q.2.packets.map (fun k =>
        let h := (k.words.getD 0 0)
        match k.phase with
        | .running => k
        | _ => { k with donated := if bit h 35 ∧ bits h 11 8 ≠ 0 then donatedBy ws p.1 (bits h 51 40) else 0 }) })) })) }

/-- Donation re-evaluated from nothing (R334): as many rounds as there are things that can pass a priority on. -/
def State.redonate (s : State) : State :=
  let clear : State := { s with dies := s.dies.map (fun p => (p.1, { p.2 with
      tasks := p.2.tasks.map (fun t => { t with donated := 0 }),
      operators := p.2.operators.map (fun o => { o with donated := 0 }),
      copy := p.2.copy.map (fun q => (q.1, { q.2 with packets := q.2.packets.map (fun k =>
        { k with donated := 0 }) })) })) }
  iter State.donateOnce ((s.waiters).length + 1) clear

/-! Counters (R329). -/

/-- A dependence counter. -/
def State.counter (s : State) (d n : Nat) : BitVec 32 := mapGet 0 (s.die d).counters n

/-- The index of the arrival record of a barrier's key (Table 20-13). -/
def arrOfKey (key : Nat) : Nat := 16 * (key / 65536 % 8 - 1) + key % 16

/-- Whether what a deferred wait waits for has come. -/
def State.waitOver (s : State) : CtxPhase → Bool
  | .waitTime t => decide (t ≤ s.tstamp)
  | .waitCounter d n => decide (s.counter d n = 0)
  | .waitBarrier key gen => decide (gen < (mapGet ⟨0, 0, 0⟩ s.barriers key).gen)
  | _ => true

/-- The die and record of a launch. -/
def State.findLaunch (s : State) (id : Nat) : Option (Nat × Launch) :=
  (s.dies.flatMap (fun p => p.2.launches.map (fun l => (p.1, l)))).find? (fun p => decide (p.2.id = id))

/-- Whether a task's launch has failed, so that it goes at its next stop (R386). -/
def State.doomed (s : State) (t : Task) : Bool :=
  match t.launch with
  | none => false
  | some id => match s.findLaunch id with
    | some (_, l) => l.failed.isSome
    | none => false

/-- The operations of class After that a context which is ready again still owes, in slot order, as far as one that stops it. A
wait for a counter that begins here has donation re-evaluated and pre-emptions looked for (R334, R336). -/
def State.settleLater (s : State) (c : Nat) : List AfterOp → State
  | [] => s.modCtx c (fun x => { x with later := [] })
  | w :: rest =>
    let s1 := s.modCtx c (fun x => { x with later := rest })
    match w.kind with
    | .stop code detail => s1.takeStop c ⟨code, detail, w.slot, none⟩ w.pc 0 false
    | .done => (s1.modCtx c (fun x => { x with phase := .done, later := [] })).dueN .taskCompletion c
    | .wait ph =>
      if s1.waitOver ph then
        (match ph with
          | .waitBarrier key _ => s1.modCtx c (fun x => { x with arrivals := mapDel x.arrivals (arrOfKey key) })
          | _ => s1).settleLater c rest
      else if ((s1.taskAt c).map s1.doomed).getD false then s1.takeStop c ⟨0x42, 0, w.slot, none⟩ w.pc 0 false
      else
        let s2 := s1.parkAt c w.slot w.pc ph
        match ph with
        | .waitCounter _ _ => s2.dueOnce .placementDecision (.n (dieOf c) 0 0)
        | _ => s2

/-- A context that waited is ready again, once no operation of its bundle stops it, and its core chooses anew (R335); one that a
pre-emption is asked of stops there (R336). -/
def State.wake (s : State) (c : Nat) : State :=
  let s1 := s.modCtx c (fun x => { x with phase := .ready })
  let s2 := match (s1.ctx c).later with
    | [] => s1
    | l => s1.settleLater c l
  (if (s2.ctx c).preempt then s2.dueN .preemptStop c else s2).dueOnce .runningContextChange (.n (coreOf c) 0 0)

/-- Operations of class After without the waits for a counter, which has been released (R329). -/
def laterReleased (d n : Nat) (l : List AfterOp) : List AfterOp :=
  l.filter (fun w => decide (w.kind ≠ .wait (.waitCounter d n)))

/-- Has every wait that is still to come know that a counter has been released (R331). -/
def State.releaseLater (s : State) (d n : Nat) : State :=
  let task (t : Task) : Task := { t with later := laterReleased d n t.later }
  if s.ctxs.all (fun p => p.2.later.isEmpty) && s.dies.all (fun p => p.2.tasks.all (fun t => t.later.isEmpty)) then s
  else
    { s with
      ctxs := s.ctxs.map (fun p => (p.1, { p.2 with later := laterReleased d n p.2.later })),
      dies := s.dies.map (fun p => (p.1, { p.2 with tasks := p.2.tasks.map task })) }

/-- Makes a task ready (R322). -/
def State.readyTask (s : State) (d tid : Nat) (ph : TaskPhase) : State :=
  ((s.modTask d tid (fun t => { t with phase := ph, readyAt := s.now, readySeq := s.seq })).fresh).dueOnce
    .placementDecision (.n d 0 0)

/-- Releases every waiter of a counter, and has donation re-evaluated and pre-emptions looked for where a context stops waiting
(R329, R334, R336); the next placement decision re-evaluates it for tasks. The wait of a CNT.WAIT ends at a pre-emption point
(R331). -/
def State.release (s : State) (d n : Nat) : State :=
  let s1 := ((s.die d).tasks.filter (fun t => decide (t.phase = .gated n))).foldl
    (fun u t => u.readyTask d t.tid .waiting) (s.releaseLater d n)
  let s2 := ((s.die d).operators.filter (fun o => decide (o.gate = some n))).foldl
    (fun u o => (u.modDie d (fun x => { x with operators := x.operators.map (fun y =>
      if y.id = o.id then { y with gate := none } else y) })).due .tileStepProduce (.n d o.id 0)) s1
  let woken := s.ctxs.filter (fun p => decide (p.2.phase = .waitCounter d n))
  if woken.isEmpty then s2
  else (woken.foldl (fun u p => (u.modCtx p.1 (fun x => { x with wdc := 0 })).wake p.1) s2).redonate.dueOnce .placementDecision (.n d 0 0)

/-- An update of a counter: VALUE wraps, and every waiter is released where it becomes 0 (R329). -/
def State.addCounter (s : State) (d n : Nat) (x : BitVec 32) : State :=
  let v := s.counter d n + x
  let s1 := s.modDie d (fun y => { y with counters := mapPut y.counters n v })
  if v = 0 then s1.release d n else s1

/-- A completion's decrement (R329). -/
def State.decCounter (s : State) (d n : Nat) : State := s.addCounter d n (-1)

/-! The Lexicon (R315). -/

/-- The entry an identity names. -/
def lexFind (l : List LexEntry) (h t k : Nat) : Option LexEntry :=
  l.find? (fun e => decide (e.handle = h ∧ e.tile = t ∧ e.key = k))

/-- Whether an entry's bytes meet a row group of its die. -/
def LexEntry.covers (e : LexEntry) (g : Nat) : Bool := decide (g ∈ rgsOf e.laddr e.bytes)

/-- The key of a local address: its core, or 64 for slice scratch (R315). -/
def keyOf (a : Nat) : Nat := if a / 2 ^ 28 % 2 = 1 then 64 else a / 2 ^ 22

/-- Makes a Lexicon entry as RES.REG does: the code of R317. -/
def State.lexMake (s : State) (d h t a n : Nat) : State × Nat :=
  let e : LexEntry := ⟨h, t, keyOf a, a, n, (s.rg d (a / 512)).cls⟩
  let l := (s.die d).lexicon
  if !(s.rg d (a / 512)).valid then (s, 3)
  else if (lexFind l h t (keyOf a)).isSome then
    (s.modDie d (fun x => { x with lexicon := x.lexicon.map (fun y =>
      if y.handle = h ∧ y.tile = t ∧ y.key = keyOf a then e else y) }), 1)
  else if 4096 ≤ l.length then (s.setDieCtl d 0x191 (s.dieCtl d 0x191 ||| BitVec.ofNat 64 (2 ^ 48)), 2)
  else (s.modDie d (fun x => { x with lexicon := x.lexicon ++ [e] }), 0)

/-- Invalidates a row group: V is 0, its request is gone, and the Lexicon entries that cover it are removed (R143,
R156). -/
def State.invalidate (s : State) (d g : Nat) : State :=
  let x := s.rg d g
  let s1 := (s.cancelRefresh d g).setRg d g { x with valid := false, age := 0, rfq := false, poison := false }
  s1.modDie d (fun y => { y with lexicon := y.lexicon.filter (fun e => !e.covers g) })

/-- The tile operand of the residency instructions (R316). -/
def resTile (x : W64) : Nat × Nat := (bits x 55 32, bits x 31 0)

/-- RES.REG (R317): the bytes come from g[a + 1]; the result lands at 40. -/
def opResReg (d a : Reg) : SlotOp :=
  { SlotOp.plain (fun s =>
      let y := s.g (a + 1)
      let (h, t) := resTile (s.g a)
      let (s1, code) := s.lexMake s.cd h t (bits y 31 0) (bits y 63 32)
      s1.pendG d 40 (BitVec.ofNat 64 code)) with
    reads := gref a ++ gref (a + 1), writes := wr (gref d) 40, phase := 2,
    check := pureCheck (fun s =>
      let x := s.g a
      let y := s.g (a + 1)
      firstFault
        [(decide (bits x 63 56 ≠ 0) || decide (bits y 63 32 = 0) || decide (2 ^ 22 < bits y 63 32), Stop.of 0x04),
         (!s.localOk s.cd (bits y 31 0) (bits y 63 32), Stop.localAddr .read y)]) }
/-- RES.REG at issue (R317). -/
def execResReg (d a : Reg) (s : State) : Result := (opResReg d a).exec s

/-- RES.DROP (R318). -/
def opResDrop (a b : Reg) : SlotOp :=
  { SlotOp.plain (fun s =>
      let (h, t) := resTile (s.g a)
      let n := bits (s.g b) 31 0
      s.modDie s.cd (fun x => { x with lexicon := x.lexicon.filter (fun e =>
        !(decide (e.handle = h) && (decide (n = 0) || (decide (t ≤ e.tile) && decide (e.tile < t + n))))) })) with
    reads := gref a ++ gref b, phase := 2,
    check := pureCheck (fun s =>
      let x := s.g a
      let y := s.g b
      if bits x 63 56 ≠ 0 ∨ bits y 63 32 ≠ 0 ∨ 2 ^ 32 < bits x 31 0 + bits y 31 0 then some (Stop.of 0x04)
      else none) }
/-- RES.DROP at issue (R318). -/
def execResDrop (a b : Reg) (s : State) : Result := (opResDrop a b).exec s

/-- The lower of two entries by key. -/
def lowerKey (x y : LexEntry) : LexEntry := if y.key < x.key then y else x

/-- RES.QRY's result (Table 16-7). -/
def resQuery (l : List LexEntry) (h t start : Nat) : W64 :=
  match l.filter (fun e => decide (e.handle = h ∧ e.tile = t ∧ start ≤ e.key)) with
  | [] => 0
  | e :: rest =>
    let m := rest.foldl lowerKey e
    BitVec.ofNat 64 (2 ^ 63 + (if rest.isEmpty then 0 else 2 ^ 62) + m.cls % 8 * 2 ^ 59 + m.bytes % 2 ^ 23 * 2 ^ 32 +
      m.laddr % 2 ^ 32)

/-- RES.QRY (R319): the Lexicon as it stood before the bundle, since no slot sees another's result (R21). -/
def opResQry (d a b : Reg) : SlotOp :=
  { SlotOp.plain (fun s =>
      let (h, t) := resTile (s.g a)
      s.pendG d 40 (resQuery (s.die s.cd).lexicon h t (bits (s.g b) 6 0))) with
    reads := gref a ++ gref b, writes := wr (gref d) 40,
    check := pureCheck (fun s =>
      if bits (s.g a) 63 56 ≠ 0 ∨ 64 < (s.g b).toNat then some (Stop.of 0x04) else none) }
/-- RES.QRY at issue (R319). -/
def execResQry (d a b : Reg) (s : State) : Result := (opResQry d a b).exec s

/-! Descriptors (R309, R310). -/

/-- A field of a little-endian byte string, by its first byte and size. -/
def field (bs : List Byte) (at_ n : Nat) : Nat := leNat ((bs.drop at_).take n)
/-- A 64-bit word of a byte string. -/
def wordAt (bs : List Byte) (at_ : Nat) : W64 := BitVec.ofNat 64 (field bs at_ 8)

/-- A read-tile entry from its twelve bytes, none when unused (Table 16-2). -/
def readTileAt (bs : List Byte) (at_ : Nat) : Option ReadTile :=
  if field bs (at_ + 8) 4 = 0 then none
  else some ⟨field bs (at_ + 4) 3, field bs at_ 4, field bs (at_ + 7) 1 + 1, field bs (at_ + 8) 4⟩

/-- Check 3 of R310. -/
def descMalformed (bs : List Byte) : Bool :=
  let w0 := wordAt bs 0
  let w1 := wordAt bs 8
  let kind := bits w0 61 60
  let ents := (List.range 6).map (fun e => 16 + 12 * e)
  decide (bits w0 63 62 ≠ 0) || decide (bits w1 63 54 ≠ 0) || decide (bits w1 47 44 ≠ 0) ||
  decide (bits w1 31 13 ≠ 0) || decide (kind = 3) ||
  decide (bits w0 55 0 % (if kind = 1 then 64 else 32) ≠ 0) ||
  (!bit w0 59 && decide (bits w1 53 48 ≠ 0)) || (decide (kind = 2) && !bit w0 59) ||
  ents.any (fun a => decide (field bs (a + 8) 4 = 0 ∧ field bs a 12 ≠ 0)) ||
  ents.any (fun a => decide (field bs (a + 8) 4 ≠ 0 ∧ 2 ^ 32 ≤ field bs a 4 + field bs (a + 7) 1)) ||
  (decide (kind = 1) && (ents.any (fun a => decide (field bs (a + 8) 4 ≠ 0)) || decide (bits w1 43 32 ≠ 0)))

/-- Whether an operator block breaks a rule of R312 other than its SPR limit. -/
def blockMalformed (bs : List Byte) : Bool :=
  let w0 := wordAt bs 0
  let w1 := wordAt bs 8
  let nlev := bits w0 58 56
  let counts := (List.range 6).map (fun l => field bs (16 + 4 * l) 4)
  let tmpl := (List.range 6).map (fun e => 64 + 32 * e)
  decide (bits w0 63 59 ≠ 0) || decide (nlev = 0 ∨ nlev = 7) || decide (bits w0 4 0 ≠ 0) ||
  decide (bits w1 63 44 ≠ 0) || decide (bits w1 31 13 ≠ 0) || decide (field bs 40 24 ≠ 0) ||
  (List.range 6).any (fun l => if l < nlev then decide (counts.getD l 0 = 0) else decide (counts.getD l 0 ≠ 0)) ||
  decide (2 ^ 40 < (counts.take nlev).foldl (· * ·) 1) ||
  tmpl.any (fun a => decide (field bs (a + 7) 1 ≠ 0) || decide (field bs (a + 24) 8 ≠ 0) ||
    (decide (field bs (a + 8) 4 = 0) && decide (field bs a 32 ≠ 0)))

/-- A task as a code or handler descriptor gives it (R309, R311). -/
def descTask (bs : List Byte) (va d tid : Nat) (launch : Option Nat) (lid didx : Nat) (gate : Option Nat) (now : Nat) :
    Task :=
  let w0 := wordAt bs 0
  let w1 := wordAt bs 8
  { tid := tid, kind := if bits w0 61 60 = 2 then .handler else .code, desc := va, entry := bits w0 55 0,
    args := (List.range 5).map (fun n => wordAt bs (88 + 8 * n)), prio := bits w0 58 56, donated := 0,
    pin := if bit w0 59 then some (bits w1 53 48) else none, anchor := none, spr := bits w1 43 32, cen := bit w1 12,
    cnt := bits w1 11 0, home := d, launch := launch, launchId := lid, didx := didx,
    reads := (List.range 6).filterMap (fun e => readTileAt bs (16 + 12 * e)),
    phase := (match gate with | some n => .gated n | none => .waiting), readyAt := now, readySeq := tid,
    patience := none, patienceOver := false, restarts := 0, lastCore := 0, lastSlot := 0, priv := false,
    readInputs := false, asked := none, starved := 0, migrated := false, sig := none, folds := [], traps := [], spawnLand := 0, streams := [], arrivals := [],
    late := [], later := [], stopCode := 0 }

/-- An operator as its descriptor and block give it (R312). -/
def blockOperator (desc bs : List Byte) (id : Nat) (launch : Option Nat) (lid didx : Nat) (gate : Option Nat) : Operator :=
  let w0 := wordAt bs 0
  let w1 := wordAt bs 8
  let nlev := bits w0 58 56
  let d0 := wordAt desc 0
  { id := id, block := bits d0 55 0, step := bits w0 55 0, spr := bits w1 43 32, scen := bit w1 12,
    scnt := bits w1 11 0, counts := (List.range nlev).map (fun l => field bs (16 + 4 * l) 4),
    templates := ((List.range 6).map (fun e => 64 + 32 * e)).filterMap (fun a =>
      if field bs (a + 8) 4 = 0 then none
      else some ⟨field bs a 4, field bs (a + 4) 3, field bs (a + 8) 4,
        (List.range 6).map (fun l => (sext64 16 (field bs (a + 12 + 2 * l) 2)).toInt)⟩),
    prio := bits d0 58 56, donated := 0, cen := bit (wordAt desc 8) 12, cnt := bits (wordAt desc 8) 11 0, gate := gate,
    launch := launch, launchId := lid, didx := didx, next := some (List.replicate nlev 0) }

/-- Adds a task to a Cupola and has placement decided (R322). -/
def State.addTask (s : State) (d : Nat) (t : Task) : State :=
  ((s.modDie d (fun x => { x with tasks := x.tasks ++ [t] })).fresh).dueOnce .placementDecision (.n d 0 0)

/-- Enqueues the descriptor at a VA (R310): the code of Table 16-3. A gate whose counter reads 0 gates nothing (R332). -/
def State.enqueue (s : State) (d : Nat) (va : W64) (launch : Option Nat) (lid didx : Nat) (gate : Option Nat) :
    State × Nat :=
  if va.toNat % 128 ≠ 0 then (s, 0x32)
  else
    match s.readVa d va.toNat 128 with
    | (s1, none) => (s1, 0x32)
    | (s1, some bs) =>
      let gate := gate.filter (fun n => decide (s1.counter d n ≠ 0))
      if 2048 < bits (wordAt bs 8) 43 32 then (s1, 0x31)
      else if descMalformed bs then (s1, 0x30)
      else if bits (wordAt bs 0) 61 60 ≠ 1 then
        (s1.addTask d (descTask bs va.toNat d s1.seq launch lid didx gate s1.now), 0)
      else
        match s1.readVa d (bits (wordAt bs 0) 55 0) 256 with
        | (s2, none) => (s2, 0x32)
        | (s2, some ob) =>
          if 2048 < bits (wordAt ob 8) 43 32 then (s2, 0x31)
          else if blockMalformed ob then (s2, 0x30)
          else
            let o := blockOperator bs ob s2.seq launch lid didx gate
            let s3 := (s2.modDie d (fun x => { x with operators := x.operators ++ [o] })).fresh
            ((if gate.isNone then s3.due .tileStepProduce (.n d o.id 0) else s3.dueOnce .placementDecision (.n d 0 0)), 0)

/-! The walker (R313). -/

/-- The next index vector in lexicographic order, the last level varying fastest. -/
def nextIndex (counts iv : List Nat) : Option (List Nat) :=
  match counts, iv with
  | c :: cs, i :: is =>
    match nextIndex cs is with
    | some r => some (i :: r)
    | none => if i + 1 < c then some ((i + 1) :: cs.map (fun _ => 0)) else none
  | _, _ => none

/-- The read-tile entries of a step (R313). -/
def Operator.stepReads (o : Operator) (iv : List Nat) : List ReadTile :=
  o.templates.map (fun t =>
    let off := (List.zipWith (fun (s : Int) (i : Nat) => s * (i : Int)) t.strides iv).foldl (· + ·) 0
    ⟨t.handle, (((t.base : Int) + off) % (2 ^ 32 : Nat)).toNat, 1, t.bytes⟩)

/-- The tile step of an index vector (R313). -/
def Operator.stepTask (o : Operator) (d tid now : Nat) (iv : List Nat) : Task :=
  { tid := tid, kind := .step o.id, desc := o.block, entry := o.step, args := iv.map (BitVec.ofNat 64), prio := o.prio,
    donated := 0, pin := none, anchor := none, spr := o.spr, cen := o.scen, cnt := o.scnt, home := d,
    launch := o.launch, launchId := o.launchId, didx := 0xFFFF, reads := o.stepReads iv, phase := .waiting,
    readyAt := now, readySeq := tid, patience := none, patienceOver := false, restarts := 0, lastCore := 0,
    lastSlot := 0, priv := false, readInputs := false, asked := none, starved := 0, migrated := false, sig := none, folds := [],
    traps := [], spawnLand := 0, streams := [], arrivals := [], late := [], later := [], stopCode := 0 }

/-- Steps of an operator that have not completed, on any die. -/
def State.liveSteps (s : State) (home id : Nat) : List Task :=
  (s.allTasks.map (·.2)).filter (fun t => decide (t.home = home) && decide (t.kind = .step id))

/-- TILE_STEP_PRODUCE of die a, operator b: the walker produces steps while fewer than 64 are unplaced (R313). -/
def execTileStepProduce (s : State) : Result :=
  match s.ev with
  | .n d id _ =>
    match (s.die d).operators.find? (fun o => decide (o.id = id)) with
    | none => .next s
    | some o =>
      match o.gate, o.next with
      | none, some iv =>
        if 64 ≤ (s.liveSteps d id).countP (fun t => decide (t.phase = .waiting)) then .next s
        else
          let s1 := s.addTask d (o.stepTask d s.seq s.now iv)
          let s2 := s1.modDie d (fun x => { x with operators := x.operators.map (fun y =>
            if y.id = id then { y with next := nextIndex o.counts iv } else y) })
          .next (if (nextIndex o.counts iv).isSome then s2.dueOnce .tileStepProduce (.n d id 0) else s2)
      | _, _ => .next s
  | _ => .next s

/-! Placement (R321, R322). -/

/-- A context slot of a core that is free. -/
def State.freeSlot (s : State) (d c : Nat) : Option Nat :=
  ([0, 1, 2, 3].map (fun i => (d * 64 + c) * 4 + i)).find? (fun x => decide ((s.ctx x).phase = .free))
/-- Free context slots of a die. -/
def State.freeSlots (s : State) (d : Nat) : Nat :=
  256 - s.ctxs.countP (fun p => decide (dieOf p.1 = d) && decide (p.2.phase ≠ .free))

/-- Whether a Lexicon entry is one that a read-tile entry names. -/
def ReadTile.names (e : ReadTile) (l : LexEntry) : Bool :=
  decide (l.handle = e.handle) && decide (e.tile ≤ l.tile) && decide (l.tile < e.tile + e.count)

/-- The bytes of the named entries whose key meets a test. -/
def lexBytes (lex : List LexEntry) (e : ReadTile) (p : Nat → Bool) : Nat :=
  lex.foldl (fun n l => if e.names l && p l.key then n + l.bytes else n) 0

/-- SCORE(t, c) of R321. -/
def score (lex : List LexEntry) (reads : List ReadTile) (c : Nat) : Nat :=
  reads.foldl (fun n e => n + 4 * min e.bytes (lexBytes lex e (fun k => decide (k = c))) +
    2 * min e.bytes (lexBytes lex e (fun k => decide (k ≠ c) && decide (k < 64) && decide (k / 4 = c / 4))) +
    min e.bytes (lexBytes lex e (fun k => decide (k = 64)))) 0

/-- The core of highest score among some, ties to the fewest tasks waiting for it under patience and then to the lowest
number (R321). -/
def State.bestCore (s : State) (d : Nat) (t : Task) (cores : List Nat) : Option Nat :=
  let lex := (s.die d).lexicon
  let waiting (c : Nat) : Nat := (s.die d).tasks.countP (fun u => match u.patience with
    | some (k, _) => decide (k = c)
    | none => false)
  match cores with
  | [] => none
  | c :: rest => some (rest.foldl (fun b x =>
      let sb := score lex t.reads b
      let sx := score lex t.reads x
      if sb < sx ∨ (sb = sx ∧ waiting x < waiting b) then x else b) c)

/-- The registers of a task at its start (Table 16-4, R120, R383). -/
def Task.startRegs (t : Task) (c : Nat) : List (Nat × W64) :=
  let base := BitVec.ofNat 64 (coreOf c % 64 * 2 ^ 22 + c % 4 * 2 ^ 20)
  let args := (List.range t.args.length).map (fun i => (i + 1, t.args.getD i 0))
  match t.kind with
  | .code => args ++ [(6, BitVec.ofNat 64 t.desc), (8, base)]
  | .handler => args ++ [(6, BitVec.ofNat 64 t.desc), (8, base)]
  | .step _ => [(1, BitVec.ofNat 64 t.desc)] ++ (List.range t.args.length).map (fun i => (i + 2, t.args.getD i 0)) ++
      [(8, base)]
  | .replay _ => [(1, BitVec.ofNat 64 t.desc)] ++ (List.range t.args.length).map (fun i => (i + 2, t.args.getD i 0)) ++
      [(8, base)]
  | .copyHandler _ _ => args
  | .trapHandler _ _ => args

/-- The context of a task that starts (R177, R288, R311). -/
def Task.startCtx (t : Task) (c now : Nat) : Ctx :=
  let x := (t.startRegs c).foldl (fun x p => x.wg p.1 p.2) Ctx.reset
  { x with pc := t.entry, phase := .ready, priv := t.priv, tid := t.tid, resident := now, traps := t.traps }

/-- Whether no slot of a core holds a context. -/
def State.noneResident (s : State) (k : Nat) : Bool :=
  [0, 1, 2, 3].all (fun i => decide ((s.ctx (k * 4 + i)).phase = .free))

/-- IDLE of a die in reference ticks; 0 acts as 1 (Table 22-6). -/
def State.idleTicks (s : State) (d : Nat) : Nat := 6 * max (bits (s.dieCtl d 0x203) 15 0) 1

/-- A core that a task is about to be placed on leaves retention (R416); one that holds no context, and whose engine holds no
tiles, has entered it IDLE ns after its last stopped, which is worked out here, since nothing shows it before. -/
def State.readyCore (s : State) (k : Nat) : State :=
  let x := s.core k
  let idle := s.noneResident k && x.running.isNone && x.engine.owner.isNone && bit (s.dieCtl (dieOfCore k) 0x203) 63 &&
    decide (x.idleSince + s.idleTicks (dieOfCore k) ≤ s.now)
  (if idle then s.modCore k (fun y => { y with retention := true }) else s).rouse k

/-- Places a task on a context slot: a task that has not run starts, and a saved one is restored from its image (R311,
R322, R389). A step placed prompts the walker of its home die (R313). -/
def State.place (s : State) (d : Nat) (t : Task) (c : Nat) : State :=
  let s := s.readyCore (coreOf c)
  let s0 := match t.kind with
    | .step op => s.dueOnce .tileStepProduce (.n t.home op 0)
    | _ => s
  let s1 := s0.modTask d t.tid (fun u => { u with
    phase := .placed c, patience := none, asked := none, starved := 0, lastCore := coreOf c % 64, lastSlot := c % 4 })
  match t.phase with
  | .saved i =>
    (s1.modCtx c (fun _ => { Ctx.reset with phase := .restoring, tid := t.tid, resident := s.now })).due
      .contextRestore (.n c t.tid i)
  | _ =>
    ((s1.setCtx c (t.startCtx c s.now)).modTask d t.tid (fun u => { u with traps := [] })).dueOnce
      .runningContextChange (.n (coreOf c) 0 0)

/-- Whether a task waits for a slot. -/
def Task.waits (t : Task) : Bool :=
  match t.phase with
  | .waiting => true
  | .saved _ => true
  | _ => false

/-- The order in which waiting tasks are taken: effective priority, then readiness (R322). -/
def Task.before (t u : Task) : Bool := decide (u.eff < t.eff) || (decide (u.eff = t.eff) && decide (t.readySeq < u.readySeq))

/-- Inserts a task into an ordered list. -/
def taskInsert (t : Task) : List Task → List Task
  | [] => [t]
  | u :: rest => if t.before u then t :: u :: rest else u :: taskInsert t rest

/-- The waiting tasks of a die in the order they are taken. -/
def State.waitingTasks (s : State) (d : Nat) : List Task :=
  ((s.die d).tasks.filter Task.waits).foldl (fun l t => taskInsert t l) []

/-- The cores on which a task may be placed (R358). -/
def Task.cores (t : Task) : List Nat :=
  match t.anchor with
  | some (lo, n) => (List.range n).map (fun i => lo + i)
  | none => List.range 64

/-- Step 3 of R322 for one task: placed, in patience, or none free. -/
def State.placeBest (s : State) (d : Nat) (t : Task) : State × Bool :=
  let free := t.cores.filter (fun c => (s.freeSlot d c).isSome)
  match s.bestCore d t free with
  | none => (s, false)
  | some b =>
    let pref := (s.bestCore d t t.cores).getD b
    let lex := (s.die d).lexicon
    let pat := bits (s.dieCtl d 0x190) 15 0
    match s.freeSlot d pref with
    | some c => (s.place d t c, true)
    | none =>
      if pat ≠ 0 ∧ ¬ t.patienceOver ∧ score lex t.reads b < score lex t.reads pref then
        ((s.modTask d t.tid (fun u => { u with patience := some (pref, s.now + 6 * pat) })).after (6 * pat)
          .patienceExpiry (.n d t.tid 0), true)
      else
        match s.freeSlot d b with
        | some c => (s.place d t c, true)
        | none => (s, false)

/-- One placement decision over the waiting tasks in order; it stops at the first task for which no core has a free slot,
and only pinned tasks and tasks in patience are passed over (R322). -/
def State.placeAll (s : State) (d : Nat) : List Task → State
  | [] => s
  | t :: rest =>
    match t.pin with
    | some k =>
      match s.freeSlot d k with
      | some c => (s.place d t c).placeAll d rest
      | none => s.placeAll d rest
    | none =>
      match t.patience with
      | some (k, _) =>
        match s.freeSlot d k with
        | some c => (s.place d t c).placeAll d rest
        | none => s.placeAll d rest
      | none =>
        let (s1, go) := s.placeBest d t
        if go then s1.placeAll d rest else s1

/-- A free image of a die's pool for a save (R387). -/
def State.freeImage (s : State) (d : Nat) : Option Nat :=
  let w := s.dieCtl d 0x1D0
  if !bit w 63 then none
  else (((List.range (bits w 15 0)).drop 256).find? (fun i => decide (i ∉ (s.die d).images))).map (fun i => d * 65536 + i)

/-- Whether a pre-emption may be asked of a context: it is resident, and neither being saved nor restored nor at its end. -/
def CtxPhase.stoppable : CtxPhase → Bool
  | .free => false
  | .stopping => false
  | .restoring => false
  | .done => false
  | _ => true

/-- The context a pre-emption for priority p takes (R336): resident, below p, the lowest priority, then the longest resident, then
the lowest core and slot, whatever core the waiting task is pinned to. One that waits is saved once its wait ends, which is a
pre-emption point (R331). -/
def State.victim (s : State) (d p : Nat) : Option Nat :=
  let cands := (s.ctxs.filter (fun q => decide (dieOf q.1 = d) && q.2.phase.stoppable && !q.2.preempt &&
    decide (s.ctxPrio q.1 < p))).map (·.1)
  match cands with
  | [] => none
  | c :: rest => some (rest.foldl (fun b x =>
      let pb := s.ctxPrio b
      let px := s.ctxPrio x
      if px < pb ∨ (px = pb ∧ (s.ctx x).resident < (s.ctx b).resident) then x else b) c)

/-- Whether the pre-emption that a task asked for is still outstanding: the context has yet to stop or to be saved (R336). -/
def State.askStands (s : State) (t : Task) : Bool :=
  match t.asked with
  | some c => decide ((s.ctx c).phase = .stopping) || (decide ((s.ctx c).phase ≠ .free) && (s.ctx c).preempt)
  | none => false

/-- Requests a pre-emption for each waiting task that has none outstanding, while images are free (R336, R387). -/
def State.askPreempt (s : State) (d : Nat) : List Task → State
  | [] => s
  | t :: rest =>
    if t.patience.isSome ∨ s.askStands t ∨ (s.freeImage d).isNone then s.askPreempt d rest
    else
      match s.victim d t.eff with
      | none => s.askPreempt d rest
      | some c =>
        (((s.modTask d t.tid (fun u => { u with asked := some c })).modCtx c (fun x => { x with preempt := true })).due
          .preemptionRequest (.n c 0 0)).askPreempt d rest

/-- Has every die without a free slot look again for pre-emptions to request, once priorities have risen (R334, R336). -/
def State.askAll (s : State) : State :=
  s.dies.foldl (fun u p => if p.2.online ∧ u.freeSlots p.1 = 0 then u.askPreempt p.1 (u.waitingTasks p.1) else u) s

/-- PREEMPTION_REQUEST of context a (R336): its next pre-emption point, or the bundle it is held at, stops it. -/
def execPreemptionRequest (s : State) : Result :=
  match s.ev with
  | .n c _ _ =>
    let x := s.ctx c
    if x.phase = .free then .next s
    else
      let s1 := (s.modCtx c (fun y => { y with preempt := true })).rouse (coreOf c)
      .next (if x.phase = .ready ∧ x.wdc = 0 ∧ (s.core (coreOf c)).running ≠ some (c % 4) then s1.dueN .preemptStop c
        else s1)
  | _ => .next s

/-- PATIENCE_EXPIRY of die a, task b (R322). -/
def execPatienceExpiry (s : State) : Result :=
  match s.ev with
  | .n d tid _ =>
    match s.task d tid with
    | some t =>
      match t.patience with
      | some (_, dl) =>
        if dl ≤ s.now then
          .next ((s.modTask d tid (fun u => { u with patience := none, patienceOver := true })).dueOnce
            .placementDecision (.n d 0 0))
        else .next s
      | none => .next s
    | none => .next s
  | _ => .next s

/-! The running context (R335). -/

/-- The slots of a core in the order that follows its last running slot. -/
def slotOrder (k last : Nat) : List Nat := [1, 2, 3, 4].map (fun i => k * 4 + (last + i) % 4)

/-- The control-clock cycles that a change of running context inserts: 16, and none where the context that becomes running is
the last that ran or the first (R335, DEDUCED). -/
def Core.changeCycles (x : Core) (tid : Nat) : Nat :=
  if x.lastTid = none ∨ x.lastTid = some tid then 0 else 16

/-- Makes a context the running one; its clock request applies from its first bundle, after the pause (R307, R335, R410). -/
def State.runCtx (s : State) (k c : Nat) : State :=
  let tid := (s.ctx c).tid
  let s1 := s.modCore k (fun x => { x with
    running := some (c % 4), last := c % 4, next := max x.next s.now + s.ticksOf (dieOf c) x.cdiv (x.changeCycles tid), held := none, frozen := 0,
    lastTid := some tid })
  ((s1.retime k).modCtx c (fun x => { x with runSince := s.now, sliceOver := false })).after 60000 .timesliceExpiry (.n c s.now 0)

/-- A core with nothing to run is idle from now on; one with resident contexts, or with a tile owner, may enter retention once it
has been idle for IDLE ns (R416). -/
def State.idleCore (s : State) (k : Nat) : State :=
  let s1 := s.modCore k (fun y => { y with running := none, idleSince := s.now })
  if s.noneResident k && (s.core k).engine.owner.isNone then s1 else s1.after 6 .retentionEntry (.n k s.now 0)

/-- The choice of R335 at a pre-emption point of the running context, or whenever it stops. DESIGN CHOICE: the manual asks for the
outstanding replies of a context at a stop (R81, R183) and is silent on a change of running context; a direct-path tag of the
outgoing one is free once its reply is in, so that no tag of the core waits for a landing of a context that does not run. -/
def State.chooseCtx (s : State) (k : Nat) : State :=
  let x := s.core k
  let ready := (slotOrder k x.last).filter (fun c => decide ((s.ctx c).phase = .ready))
  let best := ready.foldl (fun m c => max m (s.ctxPrio c)) 0
  let top := ready.filter (fun c => decide (s.ctxPrio c = best))
  if x.retention then s
  else
    match top with
    | [] => s.idleCore k
    | c :: _ =>
      match x.running with
      | none => s.runCtx k c
      | some r =>
        let rc := k * 4 + r
        if rc ∈ top ∧ ¬ ((s.ctx rc).sliceOver ∧ 1 < top.length) then s
        else if c = rc then s
        else ((s.leaveTags rc).runCtx k c).stirLate

/-- RUNNING_CONTEXT_CHANGE of core a (R335): due when a context of a core stops, or becomes ready while none runs. -/
def execRunningContextChange (s : State) : Result :=
  match s.ev with
  | .n k _ _ =>
    let wakes := [0, 1, 2, 3].any (fun i => decide ((s.ctx (k * 4 + i)).phase = .ready))
    if (s.core k).retention && wakes then .next (s.dueOnce .retentionExit (.n k 0 0))
    else .next (if (s.core k).running.isNone then s.chooseCtx k else s)
  | _ => .next s

/-- TIMESLICE_EXPIRY of context a, which became running at time b (R335). -/
def execTimesliceExpiry (s : State) : Result :=
  match s.ev with
  | .n c t _ =>
    if (s.core (coreOf c)).running = some (c % 4) ∧ (s.ctx c).runSince = t then
      .next (s.modCtx c (fun x => { x with sliceOver := true }))
    else .next s
  | _ => .next s

/-- WAIT_TIMER_EXPIRY of context a (R302). -/
def execWaitTimerExpiry (s : State) : Result :=
  match s.ev with
  | .n c _ _ =>
    match (s.ctx c).phase with
    | .waitTime t => if t ≤ s.tstamp then .next (s.wake c) else .next s
    | _ => .next s
  | _ => .next s

/-- CLKDIV_PAUSE_END of core a: at the bundle boundary that ends the pause, the divisors in force are those the running context
asked for (R307, R410). -/
def execClkdivPauseEnd (s : State) : Result :=
  match s.ev with
  | .n k _ _ =>
    let x := s.core k
    if x.pausing ∧ s.now < x.next then .next (s.at_ x.next .clkdivPauseEnd (.n k 0 0))
    else
      match x.pausing, x.running with
      | true, some r =>
        let (cd, vd, md) := s.clkOf k (s.ctx (k * 4 + r)).clkreq
        .next ((s.setDivs k cd vd md).modCore k (fun y => { y with pausing := false }))
      | _, _ => .next (s.modCore k (fun y => { y with pausing := false }))
  | _ => .next s

/-! SPAWN (R332). -/

/-- Whether a launch has failed, so that it starts no task (R386). -/
def State.launchFailed (s : State) (launch : Option Nat) : Bool :=
  s.dies.any (fun p => p.2.launches.any (fun l => decide (some l.id = launch) && l.failed.isSome))

/-- A SPAWN of a context is performed: the descriptor is read and checked on the issuing die, the task joins the issuer's launch,
and the write of its number has the code. A task that joins a failed launch is discarded at once (R386). -/
def State.spawnNow (s : State) (c seq : Nat) (desc gate : W64) : State :=
  let d := dieOf c
  let t := s.taskAt c
  let (s1, code) := s.enqueue d desc (t.bind (fun u => u.launch)) ((t.map (fun u => u.launchId)).getD 0)
    0xFFFF (if bit gate 12 then some (bits gate 11 0) else none)
  let s2 := if s.launchFailed (t.bind (fun u => u.launch)) then
      s1.modDie d (fun x => { x with tasks := (s.die d).tasks, operators := (s.die d).operators })
    else s1
  s2.arrive c seq (.scalar (BitVec.ofNat 64 (code * 256)))

/-- SPAWN (R332): performed now, or once the accesses of earlier bundles are, which the core does not wait for; its result lands at
40. -/
def opSpawn (d a : Reg) : SlotOp :=
  { SlotOp.plain (fun s =>
      let seq := s.seq
      let behind := s.priorOpen
      let s1 := (if d = 0 then s.fresh else s.pendRaw d.toNat 40 (.await false) false).modCtx s.iss.ctx (fun x => { x with
        spawnLand := s.iss.cycle + 40 })
      if behind.isEmpty then s1.spawnNow s.iss.ctx seq (s.g a) (s.g (a + 1))
      else s1.postpone s.iss.ctx seq behind (.spawn (s.g a) (s.g (a + 1)))) with
    reads := gref a ++ gref (a + 1), writes := wr (gref d) 40, phase := 1,
    empty := fun s => decide (s.iss.cycle < s.cx.spawnLand),
    check := pureCheck (fun s =>
      if bits (s.g (a + 1)) 63 13 ≠ 0 then some (Stop.of 0x04) else none) }
/-- SPAWN at issue (R332). -/
def execSpawn (d a : Reg) (s : State) : Result := (opSpawn d a).exec s

/-! Team migration (R325, R326). -/

/-- Torus hops between two dies (R8). -/
def hops (a b : Nat) : Nat :=
  let ring (x y : Nat) : Nat := min ((x + 8 - y) % 8) ((y + 8 - x) % 8)
  ring (a % 8) (b % 8) + ring (a / 8) (b / 8)

/-- MIGWAIT of a die, in ticks (Table 16-8). -/
def State.migWait (s : State) (d : Nat) : Nat := bits (s.dieCtl d 0x190) 31 16

/-- Whether a task may leave its die with a team (R325, R326, R358). -/
def State.mayMigrate (s : State) (d : Nat) (t : Task) : Bool :=
  let susp := bit (s.dieCtl d 0x190) 32
  (!t.migrated || decide (s.migWait d * 6000 ≤ s.now - t.readyAt)) &&
  t.pin.isNone && t.anchor.isNone && t.patience.isNone &&
  (match t.phase with | .waiting => true | .saved _ => susp | _ => false) &&
  (List.range 64).all (fun c => decide (score (s.die d).lexicon t.reads c = 0))

/-- A tick's count of how long waiting tasks have waited while no core of the die had a free slot (R325). DEDUCED: the count
begins again at a tick at which a slot is free. -/
def State.starveTick (s : State) (d : Nat) : State :=
  let full := decide (s.freeSlots d = 0)
  s.modDie d (fun x => { x with tasks := x.tasks.map (fun t =>
    { t with starved := if full && t.waits then t.starved + 1 else 0 }) })

/-- Whether a die is overloaded, by its longest-waiting such task (R325). -/
def State.overloaded (s : State) (d : Nat) : Option Task :=
  let w := s.migWait d
  if w = 0 ∨ s.freeSlots d ≠ 0 then none
  else
    let l := (s.die d).tasks.filter (fun t => t.waits && t.pin.isNone && decide (w ≤ t.starved))
    match l with
    | [] => none
    | t :: rest => some (rest.foldl (fun b x => if x.readyAt < b.readyAt then x else b) t)

/-- Inserts a task into a list in readiness order. -/
def readyInsert (t : Task) : List Task → List Task
  | [] => [t]
  | u :: rest => if t.readySeq < u.readySeq then t :: u :: rest else u :: readyInsert t rest

/-- TEAM_MIGRATION of die a (R325): a team of up to 16 tasks of one launch goes to the die with the largest TFREE. -/
def execTeamMigration (s : State) : Result :=
  match s.ev with
  | .n d _ _ =>
    match s.overloaded d with
    | none => .next s
    | some t =>
      let team := (((s.die d).tasks.filter (fun u => decide (u.launch = t.launch) && s.mayMigrate d u)).foldl
        (fun l u => readyInsert u l) []).take 16
      let dests := (s.part (s.partOf d)).dies.filter (fun x => decide (x ≠ d) && decide (mapGet 0 (s.die d).tfree x > 0))
      match team, dests with
      | [], _ => .next s
      | _, [] => .next s
      | _, x :: rest =>
        let free (y : Nat) : Nat := mapGet 0 (s.die d).tfree y
        let dst := rest.foldl (fun b y =>
          if free b < free y ∨ (free b = free y ∧ (hops d y < hops d b ∨ (hops d y = hops d b ∧ y < b))) then y else b) x
        let ids := team.map (fun u => u.tid)
        let s1 := s.modDie d (fun y => { y with tasks := y.tasks.filter (fun u => decide (u.tid ∉ ids)) })
        .next ((s1.modDie dst (fun y => { y with team := y.team ++ [(d, team)] })).due .teamArrival (.n dst 0 0))
  | _ => .next s

/-- TEAM_ARRIVAL of die a: the tasks of the oldest team on its way become ready here (R326). -/
def execTeamArrival (s : State) : Result :=
  match s.ev with
  | .n d _ _ =>
    match (s.die d).team with
    | [] => .next s
    | (_, team) :: rest =>
      let s1 := s.modDie d (fun y => { y with team := rest })
      .next (team.foldl (fun u t =>
        u.addTask d { t with readyAt := s.now, readySeq := u.seq, patience := none, starved := 0, migrated := true }) s1)
  | _ => .next s

end Sys2Proof.Machine
end

