-- ==== Sys2Proof/Machine/Lifetime.lean ====
section
/-! DEFINITION. Gain-cell lifetime (R133 to R158): limits, policies, refresh, expiry, temperature bands, the slice store,
and the lifetime instructions. -/

namespace Sys2Proof.Machine

/-! Bands and limits (R139 to R142). -/

/-- The band of a die (TEMPSTAT.BAND). -/
def State.band (s : State) (d : Nat) : Nat := bits (s.dieCtl d 0x180) 2 0
/-- RET of a band (R140). -/
def State.ret (s : State) (d b : Nat) : Nat := bits (s.dieCtl d (0x178 + b)) 25 16
/-- TMAX of a band (R140). -/
def State.tmax (s : State) (d b : Nat) : Nat := bits (s.dieCtl d (0x178 + b)) 7 0
/-- ELIM of a class in band b (R139). -/
def State.elimIn (s : State) (d b c : Nat) : Nat :=
  let lim := bits (s.dieCtl d (0x170 + c)) 9 0
  let r := s.ret d b - 16
  if lim = 0 then r else min lim r
/-- ELIM of a class in the die's band (R139). -/
def State.elim (s : State) (d c : Nat) : Nat := s.elimIn d (s.band d) c
/-- POLICY of a class (Table 7-1). -/
def State.policy (s : State) (d c : Nat) : Nat := bits (s.dieCtl d (0x170 + c)) 13 12

/-! Expiry (R146). -/

/-- The context slot whose scratchpad allocation holds a row group (R146, R311). -/
def State.rgOwner (s : State) (d g : Nat) : Option Nat :=
  match rgCore g with
  | none => none
  | some k =>
    let c := (d * 64 + k) * 4 + g % 8192 / 2048
    let spr := ((s.taskAt c).map (fun t => t.spr)).getD 0
    if (s.ctx c).phase = .free ∨ spr ≤ g % 2048 then none else some c

/-- EXPINFO after one more expiry, of row group g (Table 7-5). -/
def expInfo (w : W64) (g : Nat) : W64 :=
  if bit w 63 then setBits w 47 32 (min (bits w 47 32 + 1) 65535) else BitVec.ofNat 64 (2 ^ 63 + 2 ^ 32 + g * 512)

/-- Records an expiry in the image of a task whose restore has still to read it: EXPINFO, and the trap for its restore (R146,
R381). -/
def State.expireImage (s : State) (d tid i g : Nat) : State :=
  let at_ := s.imageVa i + 0x40
  match s.readWord d at_ with
  | (s1, some w) =>
    let s2 := (s1.writeVa d at_ (leBytes 8 (expInfo w g).toNat)).1
    if bit w 63 then s2 else s2.modTask d tid (fun t => { t with traps := addTrap t.traps ⟨0x20, 0⟩ })
  | (s1, none) => s1

/-- Raises an expiry trap for a row group (R146): EXPINFO counts, and the first since PEND was clear raises the trap; a row
group of no allocation is reported to the management core. -/
def State.expire (s : State) (d g : Nat) : State :=
  match s.rgOwner d g with
  | none => s.report 0x20 d [g * 512]
  | some c =>
    match (s.taskAt c).bind (fun t => (s.restoresFrom c t).map (fun i => (t.tid, i))) with
    | some (tid, i) => s.expireImage d tid i g
    | none =>
      let w := s.ctxCtl c 0x058
      let s1 := s.setCtxCtl c 0x058 (expInfo w g)
      if bit w 63 then s1 else s1.trapCtx c (fun l => addTrap l ⟨0x20, 0⟩)

/-! Refresh (R143 to R145, R149). -/

/-- Whether a queued refresh still stands: its request has not been withdrawn (R149, R156). DESIGN CHOICE: where an LT.TOUCH
names a row group whose refresh waits or is in progress already, that refresh ends its request, and the entry the LT.TOUCH made
leaves without a second refresh; the manual does not say whether one is made (R144, R156). -/
def State.refreshStands (s : State) (d : Nat) (e : Nat × Option Nat) : Bool := (s.rg d e.1).rfq

/-- Starts the oldest refresh of a core when none is in progress: 64 control-clock cycles (R144). -/
def State.pumpCore (s : State) (k : Nat) : State :=
  let x := s.core k
  if x.refreshing.isSome then s
  else
    match x.refreshQ.filter (s.refreshStands (dieOfCore k)) with
    | [] => s.modCore k (fun y => { y with refreshQ := [] })
    | (g, t) :: rest =>
      (s.modCore k (fun y => { y with refreshing := some g, refreshQ := (g, t) :: rest })).afterCycles (dieOfCore k) x.cdiv 64
        .refreshComplete (.n k g 0)

/-- Starts refreshes of slice scratch while fewer than four are in progress (R144). -/
def State.pumpSlice (s : State) (d : Nat) : State :=
  let x := s.die d
  let q := x.refreshQ.filter (s.refreshStands d)
  let fresh := ((q.map (fun e => e.1)).eraseDups.filter (fun g => decide (g ∉ x.refreshing))).take (4 - x.refreshing.length)
  fresh.foldl (fun u g => u.afterCycles d (s.copyDiv d) 64 .refreshComplete (.n (4096 + d) g 0))
    (s.modDie d (fun y => { y with refreshQ := q, refreshing := y.refreshing ++ fresh }))

/-- Puts a refresh of a row group behind those that wait (R144). -/
def State.askRefresh (s : State) (d g : Nat) (touch : Option Nat) : State :=
  match rgCore g with
  | some k => (s.modCore (d * 64 + k) (fun x => { x with refreshQ := x.refreshQ ++ [(g, touch)] })).pumpCore (d * 64 + k)
  | none => (s.modDie d (fun x => { x with refreshQ := x.refreshQ ++ [(g, touch)] })).pumpSlice d

/-- The refreshes queued where a row group's would be. -/
def State.refreshesOf (s : State) (d g : Nat) : List (Nat × Option Nat) :=
  match rgCore g with
  | some k => (s.core (d * 64 + k)).refreshQ
  | none => (s.die d).refreshQ

/-- Whether a limit request of a row group waits or is in progress (R143). -/
def State.limitAsked (s : State) (d g : Nat) : Bool :=
  (s.rg d g).rfq && (s.refreshesOf d g).any (fun e => decide (e = (g, none)))

/-- A valid row group at or past its effective limit in some band meets its policy (R143); a limit request already made stands
(R149), and a touch request does not keep a row group from TRAP or DROP. -/
def State.limitIn (s : State) (d g : Nat) (bands : List Nat) : State :=
  let x := s.rg d g
  if !x.valid || !bands.any (fun b => decide (s.elimIn d b x.cls ≤ x.age)) || s.limitAsked d g then s
  else if s.policy d x.cls = 0 then (s.setRg d g { x with rfq := true }).askRefresh d g none
  else if s.policy d x.cls = 1 then (s.invalidate d g).expire d g
  else s.invalidate d g

/-- The limit of a row group in the die's band (R143). -/
def State.limitRg (s : State) (d g : Nat) : State := s.limitIn d g [s.band d]

/-- Takes a row group's refresh out of its queue and ends it where it is in progress, so that the next begins. -/
def State.dropRefresh (s : State) (d g : Nat) : State :=
  match rgCore g with
  | some k =>
    let kk := d * 64 + k
    let s1 := (s.callOff .refreshComplete kk g).modCore kk (fun x => { x with
      refreshQ := x.refreshQ.filter (fun e => decide (e.1 ≠ g)),
      refreshing := if x.refreshing = some g then none else x.refreshing })
    s1.pumpCore kk
  | none =>
    ((s.callOff .refreshComplete (4096 + d) g).modDie d (fun x => { x with
      refreshQ := x.refreshQ.filter (fun e => decide (e.1 ≠ g)),
      refreshing := x.refreshing.filter (fun y => decide (y ≠ g)) })).pumpSlice d

/-- A missed refresh (R145): the row group is invalid, leaves the queue, raises an expiry, and RFQSTAT records it. -/
def State.missRg (s : State) (d g : Nat) : State :=
  let s1 := ((s.invalidate d g).dropRefresh d g).expire d g
  match rgCore g with
  | some k => s1.setCoreCtl (d * 64 + k) 0x059 (s1.coreCtl (d * 64 + k) 0x059 ||| 0x10000#64)
  | none => s1

/-- The test of R145 in some bands, each with whether it is one that a step enters (`true`), which does not miss a refresh that
was in progress (`busy`) as the step came. DEDUCED: at an ordinary tick it does, as Tables 7-10 and 28-3 print; `at that moment` of
R145 is the moment of the step. -/
def State.missTest (s : State) (d g : Nat) (busy : Bool) (bands : List (Nat × Bool)) : State :=
  let x := s.rg d g
  if x.valid && x.rfq && bands.any (fun b => decide (s.ret d b.1 - 4 ≤ x.age) && !(b.2 && busy)) then s.missRg d g
  else s

/-- The listed row groups of a die in ascending order. -/
def State.rgList (s : State) (d : Nat) : List Nat :=
  (s.rgs.filter (fun p => decide (p.1 / 2 ^ 23 = d))).map (fun p => p.1 % 2 ^ 23)

/-- The limits, in ascending order of row groups, and then the test for missed refreshes, that a tick boundary and a band step
make together in their bands (R139, R141, R144, R145). -/
def State.limitsAndMisses (s : State) (d : Nat) (bands : List (Nat × Bool)) : State :=
  (s.rgList d).foldl (fun u g => u.missTest d g (s.inRefresh d g) bands)
    ((s.rgList d).foldl (fun u g => u.limitIn d g (bands.map (fun b => b.1))) s)

/-- ROW_GROUP_LIMIT of die a, row group b (R143). -/
def execRowGroupLimit (s : State) : Result :=
  match s.ev with
  | .n d g _ => .next (s.limitRg d g)
  | _ => .next s

/-- MISSED_REFRESH of die a, row group b (R145). -/
def execMissedRefresh (s : State) : Result :=
  match s.ev with
  | .n d g _ => .next (s.missTest d g (s.inRefresh d g) [(s.band d, false)])
  | _ => .next s

/-- A refresh rewrites a valid row group with age 0, or marks it poisoned where its data is uncorrectable (R144). -/
def State.refreshed (s : State) (d g : Nat) (bad : Bool) : State :=
  let x := s.rg d g
  if x.valid then s.setRg d g { x with age := 0, rfq := false, poison := x.poison || bad } else s

/-- REFRESH_COMPLETE of core a, or of the slice scratch of die a − 4096, row group b; c is 1 where the refresh found
uncorrectable data (R144). -/
def execRefreshComplete (s : State) : Result :=
  match s.ev with
  | .n k g f =>
    let bad := decide (f = 1)
    if k < 4096 then
      if (s.core k).refreshing = some g then
        .next (((((s.callOff .refreshComplete k g).refreshed (dieOfCore k) g bad).modCore k (fun x =>
          { x with refreshing := none, refreshQ := x.refreshQ.drop 1 }))).pumpCore k)
      else .next s
    else
      let d := k - 4096
      if g ∈ (s.die d).refreshing then
        .next ((((s.callOff .refreshComplete k g).refreshed d g bad).modDie d (fun x => { x with
          refreshing := x.refreshing.filter (fun y => decide (y ≠ g)),
          refreshQ := x.refreshQ.filter (fun e => decide (e.1 ≠ g)) })).pumpSlice d)
      else .next s
  | _ => .next s

/-! The slice store (R150). -/

/-- A cached line against its thresholds (R76, R150): a dirty one is queued for write-back in the cached class of its port at
the limit less 32 and goes ahead of that class at the limit less 16; at the limit it goes ahead of every request, so it is
written back at once, and the line, clean by then, is dropped. -/
def State.lineStep (s : State) (d l : Nat) : State :=
  match mapFind (s.die d).slice l with
  | none => s
  | some x =>
    let lim := s.ret d (s.band d) - 16
    let put (y : SliceLine) : State := s.modDie d (fun z => { z with slice := mapPut z.slice l y })
    if lim ≤ x.age then s.modDie d (fun z => { z with slice := mapDel z.slice l })
    else if !x.dirty then s
    else if lim - 16 ≤ x.age then (put { x with queued := 2 }).dueOnce .portRequestService (.n d 0 0)
    else if lim - 32 ≤ x.age then (put { x with queued := max x.queued 1 }).dueOnce .portRequestService (.n d 0 0)
    else s

/-- SLICE_LINE_AGE_LIMIT of die a, line b (R150). -/
def execSliceLineAgeLimit (s : State) : Result :=
  match s.ev with
  | .n d l _ => .next (s.lineStep d l)
  | _ => .next s

/-! Ages and bands at a tick boundary (R134, R141). -/

/-- Every valid row group ages by one tick, saturating (R134). -/
def State.ageAll (s : State) : State :=
  { s with rgs := s.rgs.map (fun p => (p.1, if p.2.valid then { p.2 with age := min (p.2.age + 1) 1023 } else p.2)) }

/-- Sets the band of a die: TEMPSTAT shows it and STEP (R141, R142). -/
def State.setBand (s : State) (d b : Nat) : State :=
  s.setDieCtl d 0x180 (setBits (setBits (s.dieCtl d 0x180) 2 0 b) 16 16 1)

/-- The lowest band whose TMAX a reading does not exceed. -/
def State.bandFor (s : State) (d temp : Nat) : Nat :=
  ((List.range 8).find? (fun b => decide (temp ≤ s.tmax d b))).getD 7

/-- The band's course at a tick (R141): up at once; towards a step down, a count of ticks. -/
def State.bandTick (s : State) (d temp : Nat) : State :=
  let s0 := s.setDieCtl d 0x180 (setBits (s.dieCtl d 0x180) 15 8 temp)
  let b := s0.band d
  if s0.tmax d b < temp then
    let nb := s0.bandFor d temp
    let s1 := (s0.setBand d nb).modDie d (fun x => { x with bandTicks := 0 })
    if nb = 7 then s1.due .dieLoss (.n d 0 0) else s1
  else if 0 < b ∧ temp + 3 ≤ s0.tmax d (b - 1) then
    let n := (s0.die d).bandTicks + 1
    let s1 := s0.modDie d (fun x => { x with bandTicks := n })
    if 100 ≤ n then s1.dueOnce .bandStepDown (.n d 0 0) else s1
  else s0.modDie d (fun x => { x with bandTicks := 0 })

/-- The bands in which a tick applies limits and tests for missed refreshes: the one that stood, and one that it steps to
(R139, R141, R145). -/
def tickBands (old new : Nat) : List (Nat × Bool) := if old = new then [(old, false)] else [(old, false), (new, true)]

/-- The lifetime part of a tick on one die (R139, R141, R144, R145, R150): the band's course, then the limits and the missed
refreshes of the band that stood and of one that it steps to, whose requests are of one moment, then the slice store. -/
def State.lifeTick (s : State) (d temp : Nat) : State :=
  let s0 := s.bandTick d temp
  let s1 := s0.limitsAndMisses d (tickBands (s.band d) (s0.band d))
  let s2 := s1.modDie d (fun x => { x with slice := x.slice.map (fun p => (p.1, { p.2 with age := p.2.age + 1 })) })
  ((s2.die d).slice).foldl (fun u p => u.lineStep d p.1) s2

/-! The lifetime instructions (R154 to R158). -/

/-- The operand checks of R155 with the limit on the length. DESIGN CHOICE: with g[b] = 0 and g[a] misaligned or its high half
not zero, check 1 names a fault and the text below says that a range with g[b] = 0 raises none; the checks come first, so that
the fault is raised, and a length of 0 passes check 2. -/
def ltCheck (a b : Reg) (limit : Nat) (s : State) : Option Stop :=
  let x := s.g a
  let y := s.g b
  if bits x 63 32 ≠ 0 ∨ x.toNat % 512 ≠ 0 ∨ y.toNat % 512 ≠ 0 ∨ limit < y.toNat then some (Stop.of 0x04)
  else if y.toNat = 0 then none
  else if !s.localOk s.cd x.toNat y.toNat then some (Stop.localAddr .write x)
  else none

/-- LT.CLASS, LT.TOUCH or LT.FREE over the row groups of its range, in ascending order (R156). DESIGN CHOICE: a queue push of an
earlier bundle that has yet to land (R172) is not waited for; the manual does not say whether it counts among the local accesses
that these follow (R157). -/
def ltOp (a b : Reg) (limit : Nat) (f : State → Nat → State) : SlotOp :=
  { SlotOp.plain (fun s => (rgsOf (s.g a).toNat (s.g b).toNat).foldl f s) with
    reads := gref a ++ gref b, phase := 2, check := pureCheck (ltCheck a b limit) }

/-- LT.CLASS: the class changes at once, and its limit applies (R139, R156). -/
def opLtClass (d a b : Reg) : SlotOp :=
  ltOp a b (2 ^ 22) (fun s g =>
    (s.setRg s.cd g { s.rg s.cd g with cls := d.toNat % 8 }).limitRg s.cd g)
/-- LT.CLASS at issue (R156). -/
def execLtClass (d a b : Reg) (s : State) : Result := (opLtClass d a b).exec s

/-- One row group of an LT.TOUCH: a valid one is requested, behind what waits, and the core waits for its refresh (R144,
R156). -/
def State.touchRg (s : State) (g : Nat) : State :=
  let x := s.rg s.cd g
  if x.valid then (s.setRg s.cd g { x with rfq := true }).askRefresh s.cd g (some (s.ck * 8 + s.iss.slot)) else s

/-- LT.TOUCH: each valid row group is refreshed; the core waits for the last (R156). -/
def opLtTouch (a b : Reg) : SlotOp := ltOp a b 32768 State.touchRg
/-- LT.TOUCH at issue (R156). -/
def execLtTouch (a b : Reg) (s : State) : Result := (opLtTouch a b).exec s

/-- LT.FREE: each valid row group becomes invalid without a trap, its request cancelled (R156). -/
def opLtFree (a b : Reg) : SlotOp :=
  ltOp a b (2 ^ 22) (fun s g => if (s.rg s.cd g).valid then s.invalidate s.cd g else s)
/-- LT.FREE at issue (R156). -/
def execLtFree (a b : Reg) (s : State) : Result := (opLtFree a b).exec s

/-- LT.STAT's result (Table 7-9). -/
def State.ltStat (s : State) (d g : Nat) : W64 :=
  let x := s.rg d g
  BitVec.ofNat 64 (s.policy d x.cls * 2 ^ 29 + s.band d * 2 ^ 26 + s.elim d x.cls * 2 ^ 16 +
    (if x.rfq then 2 ^ 14 else 0) + (if x.valid then 2 ^ 13 else 0) + x.cls * 2 ^ 10 + (if x.valid then x.age else 0))

/-- LT.STAT (R158). DESIGN CHOICE: the state of a row group under refresh is read at once; R149 has accesses wait for the refresh, and
the manual does not say whether a read of the state is one. -/
def opLtStat (d a : Reg) : SlotOp :=
  { SlotOp.plain (fun s => s.pendG d 40 (s.ltStat s.cd ((s.g a).toNat / 512))) with
    reads := gref a, writes := wr (gref d) 40
    check := pureCheck (fun s =>
      let x := s.g a
      if bits x 63 32 ≠ 0 then some (Stop.of 0x04)
      else if !s.localOk s.cd x.toNat 1 then some (Stop.localAddr .read x) else none) }
/-- LT.STAT at issue (R158). -/
def execLtStat (d a : Reg) (s : State) : Result := (opLtStat d a).exec s

end Sys2Proof.Machine
end

