-- ==== Sys2Proof/Machine/Launch.lean ====
section
/-! DEFINITION. Queues in device memory (R129 to R132), launches (R327), the end and the failure of tasks (R311, R386), and
capture windows (R428, R429). -/

namespace Sys2Proof.Machine

/-! The queue protocol (R129 to R132). -/

/-- A queue descriptor as read (Table 6-10). -/
structure QDesc where
  wr : Nat
  rd : Nat
  base : Nat
  ctrl : Nat
deriving DecidableEq, Repr

/-- QLOG of CTRL. -/
def QDesc.qlog (q : QDesc) : Nat := q.ctrl % 32
/-- HALT of CTRL. -/
def QDesc.halt (q : QDesc) : Bool := decide (q.ctrl / 256 % 2 = 1)
/-- Whether CTRL is valid (R129). -/
def QDesc.valid (q : QDesc) : Bool := inRange q.qlog 1 16 && decide (q.ctrl = q.qlog + q.ctrl / 256 % 2 * 256)
/-- The VA of slot w, with wrap at 64 bits (R91). -/
def QDesc.slotVa (q : QDesc) (w : Nat) : Nat := (q.base + 64 * (w % 2 ^ q.qlog)) % 2 ^ 64

/-- Reads a queue's descriptor; none at a translation fault. -/
def State.readDesc (s : State) (q : QueueRef) : State × Option QDesc :=
  match s.readBy (queueReg q).1 true (s.queueDesc q) 64 with
  | (s1, some bs) => (s1, some ⟨field bs 0 8, field bs 8 8, field bs 16 8, field bs 32 4⟩)
  | (s1, none) => (s1, none)

/-- The key of a queue among its die's queues. -/
def queueKey : QueueRef → Nat
  | .copy _ e j => 16 * e + j
  | .launch _ n => 64 + n
  | .coll _ n => 80 + n

/-- How far the device has served a queue. -/
def State.qstate (s : State) (q : QueueRef) : Option QueueState := mapFind (s.die (queueReg q).1).queues (queueKey q)
/-- Records how far the device has served a queue. -/
def State.setQstate (s : State) (q : QueueRef) (x : QueueState) : State :=
  s.modDie (queueReg q).1 (fun y => { y with queues := mapPut y.queues (queueKey q) x })

/-- Sets HALT and ERRSLOT (R129, R132). -/
def State.haltQueue (s : State) (q : QueueRef) (desc : QDesc) (slot : Nat) : State :=
  (s.writeBy (queueReg q).1 true (s.queueDesc q + 32)
    (leBytes 4 (desc.ctrl ||| 256) ++ leBytes 4 (slot % 2 ^ 32))).1

/-- How many slots from `rd` on are complete. -/
def runOf (done : List Nat) (rd : Nat) : Nat → Nat
  | 0 => 0
  | n + 1 => if rd ∈ done then 1 + runOf done (rd + 1) n else 0

/-- Writes a packet's status word into its slot and advances RDIDX past the completed slots; an error code halts the queue
(R132). DESIGN CHOICE: where the descriptor or the slot does not translate then, that write is dropped; the manual gives it no
effect. DESIGN CHOICE: the manual does not speak of a packet outstanding when its register is bound to another descriptor; the slot
of its index under the binding that stands then has the status, and that descriptor's RDIDX advances. -/
def State.endSlot (s : State) (q : QueueRef) (slot : Nat) (status : W64) (err : Bool) : State :=
  match s.readDesc q with
  | (s1, none) => s1
  | (s1, some desc) =>
    let d := (queueReg q).1
    let s2 := (s1.writeBy d true (desc.slotVa slot) (leBytes 8 status.toNat)).1
    let st := (s2.qstate q).getD ⟨desc.rd, [], 0⟩
    let done := slot :: st.done
    let n := runOf done desc.rd done.length
    let s3 := (s2.writeBy d true (s2.queueDesc q + 8) (leBytes 8 (desc.rd + n))).1
    let s4 := s3.setQstate q { st with done := done.filter (fun x => decide (desc.rd + n ≤ x)) }
    if err then s4.haltQueue q desc slot else s4

/-- The LAP that makes a slot ready (R131). -/
def lapOf (h qlog : Nat) : Nat := h / 2 ^ qlog % 255 + 1

/-- Whether an engine's intake has a free entry (R105). -/
def State.intakeFree (s : State) (d e : Nat) : Bool :=
  decide (((mapGet ⟨[], [], []⟩ (s.die d).copy e).packets.countP (fun p => decide (p.phase = .intake))) < 64)

/-- The event that serves a slot of a queue, by the KIND of its word 0 (R108, R327, R365, R428). -/
def slotEvent (q : QueueRef) (kind : Nat) : Instr :=
  match q with
  | .copy _ _ _ => .copyPacketStart
  | .launch _ _ =>
    if kind = 0 then .launchNopPacket else if kind = 2 then .capstart else if kind = 3 then .capstop else .launchPacket
  | .coll _ _ => if kind = 0 then .collectiveNopPacket else .collectivePacket

/-- What looking at a queue finds (R129, R131): nothing to serve, an invalid CTRL, or the next slot with its bytes. -/
inductive SlotLook where
  | nothing
  | invalid (desc : QDesc)
  | ready (desc : QDesc) (slot : Nat) (bytes : List Byte)
deriving DecidableEq, Repr

/-- Looks at a queue's next slot: not past one that is not ready, not while halted, and not on a lost die (R131, R132,
R127). DESIGN CHOICE: a descriptor or a slot that cannot be read, at a translation fault or in uncorrectable data, is not
served until a later look finds it readable; and an invalid CTRL whose HALT is 1 already leaves ERRSLOT as it is. The manual
gives neither case. -/
def State.lookSlot (s : State) (q : QueueRef) : State × SlotLook :=
  if !bit (s.queueCtl q) 63 ∨ !s.dieRuns (queueReg q).1 then (s, .nothing)
  else
    match s.readDesc q with
    | (s1, none) => (s1, .nothing)
    | (s1, some desc) =>
      if !desc.valid then (s1, if desc.halt then .nothing else .invalid desc)
      else if desc.halt then (s1, .nothing)
      else
        let h := ((s1.qstate q).map (fun x => x.taken)).getD desc.rd
        match s1.readBy (queueReg q).1 true (desc.slotVa h) 64 with
        | (s2, none) => (s2, .nothing)
        | (s2, some bs) =>
          if field bs 0 1 = lapOf h desc.qlog then (s2, .ready desc h bs) else (s2, .nothing)

/-- A write of a queue's DOORBELL: the device looks for ready slots (R131). -/
def State.ring (s : State) (q : QueueRef) : State :=
  if bit (s.queueCtl q) 63 then s.dueOnce .queueSlotTake (.queue q) else s

/-- The queue whose DOORBELL word stands at an offset of a function's BAR 0 (R432): 8 bytes each, in binding order. DESIGN
CHOICE: where a partition has several functions, each shows all its queues; the manual does not divide them. -/
def State.bellQueue (s : State) (i off : Nat) : Option QueueRef :=
  if off % 8 ≠ 0 ∨ 4096 ≤ off then none else (s.vf i).part.bind (fun p => (s.part p).bound[off / 8]?)

/-- A byte that a read of a function's BAR 0 returns (R432): its mailbox's answer from 4,096 on, and zero elsewhere; none where the
read completes with Unsupported Request, since the function's TDISP state turns it away (R440). DESIGN CHOICE: the manual gives a
DOORBELL word no value to read; reading changes nothing and is no event. -/
def State.bar0Byte (s : State) (i off : Nat) (tee : Bool) : Option Byte :=
  if (s.vf i).closed tee then none
  else some (if 4096 ≤ off ∧ off < 8192 then (s.vf i).answer.getD (off - 4096) 0 else 0)

/-- DOORBELL_WRITE (R131, R432): of a queue by an agent of the device, or by the host at an offset of a function's BAR 0. -/
def execDoorbellWrite (s : State) : Result :=
  match s.ev with
  | .queue q => .next (s.ring q)
  | .bell i off tee =>
    if 64 ≤ i ∨ (s.vf i).closed tee then .next (s.answer i .unsupportedRequest [])
    else
      match s.bellQueue i off with
      | some q => .next (s.ring q)
      | none => .next s
  | _ => .next s

/-- QUEUE_POLL_TIMER of a queue: the device looks again every 10 µs (R131). -/
def execQueuePollTimer (s : State) : Result :=
  match s.ev with
  | .queue q =>
    if bit (s.queueCtl q) 63 then
      .next ((s.dueOnce .queueSlotTake (.queue q)).after 60000 .queuePollTimer (.queue q))
    else .next s
  | _ => .next s

/-! The end of tasks (R303, R311, R313, R386). -/

/-- Frees an image. -/
def State.freeImg (s : State) (i : Nat) : State :=
  s.modDie (i / 65536) (fun x => { x with images := x.images.filter (fun y => decide (y ≠ i % 65536)) })

/-- Takes an image for a save. -/
def State.takeImg (s : State) (i : Nat) : State :=
  s.modDie (i / 65536) (fun x => { x with images := (i % 65536) :: x.images })

/-- Performs a stream's decrement in the Cupola of the die that opened it (R87). -/
def State.streamDone (s : State) (x : Stream) : State := if x.cen ∧ x.error = 0 then s.decCounter x.die x.cnt else s

/-- Removes a task from its Cupola; streams paused with it end. -/
def State.removeTask (s : State) (d tid : Nat) : State :=
  let paused := ((s.task d tid).map (fun t => t.streams)).getD []
  paused.foldl (fun u p => u.streamDone p.2)
    (s.modDie d (fun x => { x with
      tasks := x.tasks.filter (fun t => decide (t.tid ≠ tid)),
      team := x.team.map (fun p => (p.1, p.2.filter (fun t => decide (t.tid ≠ tid)))) }))

/-- Frees a context slot, and its core and its Cupola choose anew. -/
def State.releaseSlot (s : State) (c : Nat) : State :=
  let k := coreOf c
  let s1 := s.modCore k (fun x => { x with running := if x.running = some (c % 4) then none else x.running })
  ((s1.setCtx c Ctx.reset).dueOnce .placementDecision (.n (dieOf c) 0 0)).dueOnce .runningContextChange (.n k 0 0)

/-- Ends a context: its tiles, the engine's operations for it and its streams end with it (R285, R303). -/
def State.dropCtx (s : State) (c : Nat) : State :=
  let tid := (s.ctx c).tid
  let s1 := s.modCore (coreOf c) (fun x => { x with
    engine := if x.engine.owner = some tid then ⟨none, [], [], []⟩ else x.engine })
  ((s.ctx c).queues.filterMap (fun q => q.2.stream)).foldl State.streamDone (s1.releaseSlot c)

/-- Discards the tiles that a core's engine holds for a task that ends while saved. -/
def State.dropTiles (s : State) (tid : Nat) : State :=
  { s with cores := s.cores.map (fun p =>
      if p.2.engine.owner = some tid then (p.1, { p.2 with engine := ⟨none, [], [], []⟩ }) else p) }

/-- Changes a launch. -/
def State.modLaunch (s : State) (id : Nat) (f : Launch → Launch) : State :=
  { s with dies := s.dies.map (fun p => (p.1, { p.2 with
      launches := p.2.launches.map (fun l => if l.id = id then f l else l) })) }

/-- Whether some task or operator of a launch remains (R327). -/
def State.launchLive (s : State) (id : Nat) : Bool :=
  s.allTasks.any (fun p => decide (p.2.launch = some id)) || s.allOps.any (fun p => decide (p.2.launch = some id))

/-- Has a launch completed when nothing of it remains (R327, R386). -/
def State.launchCheck (s : State) (launch : Option Nat) : State :=
  match launch with
  | none => s
  | some id =>
    if s.launchLive id then s
    else match s.findLaunch id with
      | some (d, _) => s.dueOnce .launchCompletion (.n d id 0)
      | none => s

/-- Ends an operator whose last step has completed (R313). -/
def State.operatorCheck (s : State) (home id : Nat) : State :=
  match (s.die home).operators.find? (fun o => decide (o.id = id)) with
  | none => s
  | some o =>
    if o.next.isSome ∨ s.liveSteps home id ≠ [] then s
    else
      let s1 := s.modDie home (fun x => { x with operators := x.operators.filter (fun y => decide (y.id ≠ id)) })
      (if o.cen then s1.decCounter home o.cnt else s1).launchCheck o.launch

/-- A task completes: its counter is decremented on its home die, then its operator and its launch are looked at (R311,
R313, R327, R329). -/
def State.completeTask (s : State) (d : Nat) (t : Task) : State :=
  let s1 := s.removeTask d t.tid
  let s2 := if t.cen then s1.decCounter t.home t.cnt else s1
  let s3 := match t.kind with
    | .step op => (s2.operatorCheck t.home op).dueOnce .tileStepProduce (.n t.home op 0)
    | _ => s2
  (s3.launchCheck t.launch).dueOnce .placementDecision (.n d 0 0)

/-- Whether a context slot is suspended in WAIT, CNT.WAIT or BAR.WAIT. -/
def CtxPhase.waiting : CtxPhase → Bool
  | .waitTime _ => true
  | .waitCounter _ _ => true
  | .waitBarrier _ _ => true
  | _ => false

/-- Ends a task that is to go wherever it stands, with its context or its image: it decrements no counter (R386). -/
def State.endTask (s : State) (d : Nat) (t : Task) : State :=
  let s1 := s.removeTask d t.tid
  match t.phase with
  | .placed c => s1.dropCtx c
  | ph => match ph.image? with
    | some i => (s1.freeImg i).dropTiles t.tid
    | none => s1

/-- Discards a task of a failed launch: a waiting or suspended one goes at once, and one that runs goes at its next stop
(R386). It decrements no counter. -/
def State.discardTask (s : State) (d : Nat) (t : Task) : State :=
  match t.phase with
  | .placed c => if (s.ctx c).phase.waiting then s.endTask d t else s
  | _ => s.endTask d t

/-- Has priorities donated afresh and pre-emptions looked for on every die, as waiting tasks have gone or slots been taken (R334,
R336). -/
def State.lookPlacement (s : State) : State :=
  match s.dies.find? (fun p => p.2.online) with
  | some (d, _) => s.dueOnce .placementDecision (.n d 0 0)
  | none => s

/-- A launch fails with a status word: the first failure stands, and its tasks and operators are discarded (R386); its waiters are
gone, and images may be free (R334, R336). -/
def State.failLaunch (s : State) (id : Nat) (status : W64) : State :=
  let s1 := s.modLaunch id (fun l => { l with failed := l.failed.or (some status) })
  let s2 : State := { s1 with dies := s1.dies.map (fun p => (p.1, { p.2 with
      operators := p.2.operators.filter (fun o => decide (o.launch ≠ some id)) })) }
  let s3 := (s2.allTasks.filter (fun p => decide (p.2.launch = some id))).foldl (fun u p => u.discardTask p.1 p.2) s2
  (s3.launchCheck (some id)).lookPlacement

/-- The failure causes of Table 20-11. -/
def causeFault : Nat := 1
/-- HANDLER of Table 20-11. -/
def causeHandler : Nat := 2
/-- UNHANDLED of Table 20-11. -/
def causeUnhandled : Nat := 3
/-- INPUTLOST of Table 20-11. -/
def causeInputLost : Nat := 4
/-- RESTARTS of Table 20-11. -/
def causeRestarts : Nat := 5
/-- POOL of Table 20-11. -/
def causePool : Nat := 6
/-- IMGPOOL of Table 20-11. -/
def causeImgPool : Nat := 7
/-- IMGLOST of Table 20-11. -/
def causeImgLost : Nat := 8

/-- The status word of a failed launch (Table 20-11). -/
def failWord (didx cause fcode : Nat) : W64 :=
  BitVec.ofNat 64 (didx % 2 ^ 16 * 2 ^ 48 + cause % 256 * 2 ^ 40 + fcode % 256 * 2 ^ 32 + 0x40 * 2 ^ 8)

/-- A task fails to its launch (R385, R386); the handler of a queue packet, a task of no launch, is discarded and
reported (R120). -/
def State.failTask (s : State) (d : Nat) (t : Task) (cause fcode : Nat) : State :=
  let s2 := s.endTask d t
  let s3 := match t.kind with
    | .trapHandler of i => (s2.freeImg i).removeTask d of
    | _ => s2
  match t.launch with
  | some id => (s3.failLaunch id (failWord t.didx cause fcode)).dueOnce .placementDecision (.n d 0 0)
  | none =>
    let info := match t.kind with
      | .copyHandler e (some (j, slot)) => [e, j, slot]
      | _ => []
    let at_ := match t.phase with
      | .placed c => [(s.ctxCtl c 0x082).toNat]
      | _ => []
    (s3.report 0x78 d (info ++ [cause, fcode] ++ at_)).dueOnce .placementDecision (.n d 0 0)

/-! Launch packets (R327). -/

/-- Whether a packet of a launch queue breaks what R327 asks of every one but its KIND: a bit that must be zero, or NDESC 0. -/
def launchFieldsBad (bs : List Byte) : Bool :=
  let w0 := wordAt bs 0
  decide (bits w0 34 12 ≠ 0) || decide (bits w0 39 36 ≠ 0) || decide (bits w0 63 52 ≠ 0) ||
  decide (bits (wordAt bs 16) 63 16 ≠ 0) || decide (bits (wordAt bs 16) 15 0 = 0) ||
  decide (bits (wordAt bs 24) 63 32 ≠ 0) || decide (field bs 32 32 ≠ 0)

/-- Whether a LAUNCH packet is refused (R327). -/
def launchMalformed (bs : List Byte) : Bool := decide (bits (wordAt bs 0) 11 8 ≠ 1) || launchFieldsBad bs

/-- Enqueues descriptors in order until one is refused (R327): how many were accepted, and the refusal code. -/
def State.enqueueAll (s : State) (d base id lid : Nat) : Nat → Nat → State × Option (Nat × Nat)
  | _, 0 => (s, none)
  | i, n + 1 =>
    match s.enqueue d (BitVec.ofNat 64 (base + 128 * i)) (some id) lid i none with
    | (s1, 0) => s1.enqueueAll d base id lid (i + 1) n
    | (s1, code) => (s1, some (i, code))

/-- Reads the 64 bytes of a taken slot. -/
def State.slotBytes (s : State) (q : QueueRef) (slot : Nat) : State × Option (List Byte) :=
  match s.readDesc q with
  | (s1, none) => (s1, none)
  | (s1, some desc) => s1.readBy (queueReg q).1 true (desc.slotVa slot) 64

/-- Adds a launch to the windows that its queue has armed (R428). -/
def State.captureLaunch (s : State) (d n id : Nat) : State :=
  s.modDie d (fun x => { x with captures := x.captures.map (fun p =>
    if p.2.queue = n ∧ p.2.stops.isEmpty then
      (p.1, { p.2 with launches := p.2.launches ++ [id], live := p.2.live ++ [id] })
    else p) })

/-- LAUNCH_PACKET of die a, launch queue b, slot c (R327): its descriptors are enqueued in order. -/
def execLaunchPacket (s : State) : Result :=
  match s.ev with
  | .n d n slot =>
    let q := QueueRef.launch d n
    match s.slotBytes q slot with
    | (s1, none) => .next s1
    | (s1, some bs) =>
      if launchMalformed bs then .next (s1.endSlot q slot (BitVec.ofNat 64 (0x30 * 256)) true)
      else
        let w0 := wordAt bs 0
        let id := s1.seq
        let l : Launch := ⟨id, n, slot, field bs 24 4, bit w0 35, bits w0 51 40, field bs 8 8, field bs 16 2, 0, none⟩
        let s2 := (s1.modDie d (fun x => { x with launches := x.launches ++ [l] })).fresh.captureLaunch d n id
        match s2.enqueueAll d l.desc id l.launchId 0 l.ndesc with
        | (s3, none) => .next (s3.modLaunch id (fun y => { y with enqueued := l.ndesc }))
        | (s3, some (i, code)) =>
          .next (s3.failLaunch id (BitVec.ofNat 64 (i % 2 ^ 16 * 2 ^ 48 + code * 256)))
  | _ => .next s

/-- LAUNCH_NOP_PACKET of die a, launch queue b, slot c (R327): it completes, or is refused as a LAUNCH is. -/
def execLaunchNopPacket (s : State) : Result :=
  match s.ev with
  | .n d n slot =>
    let q := QueueRef.launch d n
    match s.slotBytes q slot with
    | (s1, none) => .next s1
    | (s1, some bs) =>
      if launchFieldsBad bs then .next (s1.endSlot q slot (BitVec.ofNat 64 (0x30 * 256)) true) else .next (s1.endSlot q slot 0 false)
  | _ => .next s

/-- The capture record of a window (Table 23-6). -/
def captureRecord (x : Capture) (stop : Nat) : List Byte :=
  [x.start, stop, x.cycles, x.frozen, x.filled, x.nops,
    x.launches.length % 2 ^ 16 * 2 ^ 32 + (if x.dbg then 2 else 0) + (if x.pre then 1 else 0), 0].flatMap (leBytes 8)

/-- Ends a window whose CAPSTOP waits and whose launches have all written their status (R428): each CAPSTOP's record and
status are written, and the window is disarmed. -/
def State.captureCheck (s : State) (d w : Nat) : State :=
  match mapFind (s.die d).captures w with
  | none => s
  | some x =>
    if x.stops.isEmpty || !x.live.isEmpty then s
    else
      x.stops.foldl (fun u p => ((u.writeVa d p.2.2 (captureRecord x u.tstamp)).1).endSlot (.launch d p.1) p.2.1 0 false)
        (s.modDie d (fun y => { y with captures := mapDel y.captures w }))

/-- A launch that has written its status leaves its windows' waits. -/
def State.captureDone (s : State) (d id : Nat) : State :=
  let s1 := s.modDie d (fun y => { y with captures := y.captures.map (fun p =>
    (p.1, { p.2 with live := p.2.live.filter (fun x => decide (x ≠ id)) })) })
  ((s1.die d).captures.map (fun p => p.1)).foldl (fun u w => u.captureCheck d w) s1

/-- LAUNCH_COMPLETION of die a, launch b (R327, R386): its slot receives DONE or the first failure, and its counter is
decremented. -/
def execLaunchCompletion (s : State) : Result :=
  match s.ev with
  | .n d id _ =>
    match (s.die d).launches.find? (fun l => decide (l.id = id)) with
    | none => .next s
    | some l =>
      if s.launchLive id then .next s
      else
        let s1 := s.modDie d (fun x => { x with launches := x.launches.filter (fun y => decide (y.id ≠ id)) })
        let s2 := s1.endSlot (.launch d l.queue) l.slot (l.failed.getD 0) l.failed.isSome
        let s3 := if l.cen then s2.decCounter d l.cnt else s2
        .next (s3.captureDone d id)
  | _ => .next s

/-- PROF of the partition's DBGLOCK (Table 23-1). -/
def State.dbgRight (s : State) (d i : Nat) : Bool := bit (s.partCtl (s.partOf d) 0x212) i

/-- Sets aside a window that a CAPSTOP waits for, which ends with its own record when its launches have ended (R428). DESIGN
CHOICE: the manual does not say what a CAPSTART of the same window makes of it. -/
def State.captureAside (s : State) (d w : Nat) : State :=
  match mapFind (s.die d).captures w with
  | none => s
  | some x =>
    if x.stops.isEmpty then s
    else (s.modDie d (fun y => { y with captures := mapPut y.captures (8 + s.seq) x })).fresh

/-- CAPSTART of die a, launch queue b, slot c (R428). -/
def execCapstart (s : State) : Result :=
  match s.ev with
  | .n d n slot =>
    let q := QueueRef.launch d n
    match s.slotBytes q slot with
    | (s1, none) => .next s1
    | (s1, some bs) =>
      if !s1.dbgRight d 1 then .next (s1.endSlot q slot (BitVec.ofNat 64 (0x33 * 256)) true)
      else
        let w := bits (wordAt bs 0) 14 12
        .next (((s1.captureAside d w).modDie d (fun y => { y with
          captures := mapPut y.captures w ⟨n, s1.tstamp, 0, 0, 0, 0, [], [], false, false, []⟩ })).endSlot q slot 0 false)
  | _ => .next s

/-- CAPSTOP of die a, launch queue b, slot c (R428): it waits for the window's launches. -/
def execCapstop (s : State) : Result :=
  match s.ev with
  | .n d n slot =>
    let q := QueueRef.launch d n
    match s.slotBytes q slot with
    | (s1, none) => .next s1
    | (s1, some bs) =>
      let w := bits (wordAt bs 0) 14 12
      let va := field bs 8 8
      if !s1.dbgRight d 1 then .next (s1.endSlot q slot (BitVec.ofNat 64 (0x33 * 256)) true)
      else if (mapFind (s1.die d).captures w).isNone ∨ va % 64 ≠ 0 then
        .next (s1.endSlot q slot (BitVec.ofNat 64 (0x30 * 256)) true)
      else
        let s2 := s1.modDie d (fun y => { y with captures := y.captures.map (fun p =>
          if p.1 = w then (p.1, { p.2 with stops := p.2.stops ++ [(n, slot, va)] }) else p) })
        .next (s2.captureCheck d w)
  | _ => .next s

end Sys2Proof.Machine
end

