-- ==== Sys2Proof/Machine/Copy.lean ====
section
/-! DEFINITION. Copy engines (R105 to R127): packets and their checks, the copy instructions, starts, units, multicast,
completion, suspension, and the slots a queue gives. -/

namespace Sys2Proof.Machine

/-! The packet (R107). -/

/-- Word n of a packet. -/
def Packet.w (p : Packet) (n : Nat) : W64 := p.words.getD n 0
/-- KIND of a header (Table 6-2). -/
def pkKind (h : W64) : Nat := bits h 11 8
/-- CONV. -/
def pkConv (h : W64) : Nat := bits h 15 12
/-- SFMT. -/
def pkSfmt (h : W64) : Nat := bits h 19 16
/-- DFMT. -/
def pkDfmt (h : W64) : Nat := bits h 23 20
/-- RMODE. -/
def pkRmode (h : W64) : Nat := bits h 26 24
/-- NPL. -/
def pkNpl (h : W64) : Nat := bits h 30 27
/-- ORD. -/
def pkOrd (h : W64) : Bool := bit h 31
/-- REG. -/
def pkReg (h : W64) : Bool := bit h 32
/-- HEN. -/
def pkHen (h : W64) : Bool := bit h 33
/-- MC. -/
def pkMc (h : W64) : Bool := bit h 34
/-- CEN. -/
def pkCen (h : W64) : Bool := bit h 35
/-- RSVFEN. -/
def pkRsvfen (h : W64) : Bool := bit h 36
/-- SSP: the source is local. -/
def pkSsp (h : W64) : Bool := bit h 37
/-- DSP: the destination is local. -/
def pkDsp (h : W64) : Bool := bit h 38
/-- CNT. -/
def pkCnt (h : W64) : Nat := bits h 51 40

/-- SRC. -/
def Packet.src (p : Packet) : W64 := p.w 1
/-- DST. -/
def Packet.dst (p : Packet) : W64 := p.w 2
/-- ROWS. -/
def Packet.rows (p : Packet) : Nat := bits (p.w 3) 47 32
/-- COLS. -/
def Packet.cols (p : Packet) : Nat := bits (p.w 3) 31 0
/-- SSTRIDE. -/
def Packet.sstride (p : Packet) : Int := (sext64 32 (p.w 4).toNat).toInt
/-- DSTRIDE. -/
def Packet.dstride (p : Packet) : Int := (sext64 32 (bits (p.w 4) 63 32)).toInt
/-- The header. -/
def Packet.h (p : Packet) : W64 := p.w 0

/-- The format of a code is one of some codes. -/
def inCodes (c : Nat) (l : List Nat) : Bool := decide (c ∈ l)

/-- The element size that alignment follows: 1 for sub-byte formats (R112). -/
def elemAlign (conv fmt : Nat) : Nat := if conv = 3 then 8 else max (codeSize fmt) 1

/-- Table 6-3: the pairs of formats of a conversion. -/
def pairOk (conv sf df : Nat) : Bool :=
  match conv with
  | 0 => decide (sf ≠ 0xF) && decide (df = sf)
  | 1 => inCodes sf [2, 1, 0, 3, 4, 5, 0xB, 0xC, 0xD] && decide (df = 0xF)
  | 2 => decide (sf = 0xD) && inCodes df [5, 2, 0]
  | 3 => decide (sf = 0xE) && decide (df = 0xE)
  | 4 => (decide (sf = 0) && inCodes df [1, 2, 3, 4, 5, 6, 7, 8, 9]) || (decide (sf = 9) && inCodes df [5, 6, 7, 8])
  | 5 => inCodes sf [1, 2, 3, 4] && decide (df = 0)
  | _ => false

/-- NPL under PLANE (R110). -/
def nplOk (sf npl : Nat) : Bool :=
  match sf with
  | 5 => decide (npl = 7)
  | 0xB => decide (npl = 3)
  | 0xC => decide (npl = 1)
  | 0xD => decide (npl = 1)
  | _ => decide (1 ≤ npl)

/-- What R112 asks of both kinds that move or signal: reserved fields, and words no flag uses. DESIGN CHOICE: with HEN and
DSP set, HCORE may hold anything: DST names the core then (R120), and the manual does not say whether HCORE counts as an
unused field. -/
def headMalformed (w : Nat → W64) : Bool :=
  let h := w 0
  decide (bits h 63 52 ≠ 0) || bit h 39 || decide (bits (w 3) 63 51 ≠ 0) || decide (bits (w 5) 63 60 ≠ 0) ||
  (!pkCen h && decide (pkCnt h ≠ 0)) || (!pkHen h && decide (bits (w 3) 50 48 ≠ 0)) ||
  (pkHen h && (decide (bits (w 6) 63 62 ≠ 0) || decide (bits (w 6) 4 0 ≠ 0))) ||
  (!pkHen h && !pkMc h && decide (w 6 ≠ 0)) || (!pkMc h && decide (w 7 ≠ 0))

/-- A SIGNAL is refused (R108, R112): a field R108 does not list is not zero. -/
def signalMalformed (w : Nat → W64) : Bool :=
  let h := w 0
  headMalformed w || pkMc h || pkReg h || pkRsvfen h || pkSsp h || decide (bits h 30 12 ≠ 0) || decide (w 1 ≠ 0) ||
  decide (bits (w 3) 47 0 ≠ 0) || decide (w 4 ≠ 0) || bit (w 5) 59 || (!pkHen h && decide (w 5 ≠ 0)) ||
  (pkDsp h && !pkHen h) || (!pkDsp h && decide (w 2 ≠ 0)) || (pkDsp h && decide (bits (w 2) 63 28 ≠ 0))

/-- A COPY is refused (R110, R112). -/
def copyMalformed (w : Nat → W64) : Bool :=
  let h := w 0
  let p : Packet := ⟨0, (List.range 8).map w, none, none, 0, 0, .intake, 0, 0, 0, false, false, false, false, [], [], 0,
    none, none, 0, false, [], 0⟩
  let sa : Int := elemAlign (pkConv h) (pkSfmt h)
  let da : Int := elemAlign (pkConv h) (pkDfmt h)
  headMalformed w || decide (5 < pkConv h) || !pairOk (pkConv h) (pkSfmt h) (pkDfmt h) ||
  (if pkConv h = 4 then decide (4 < pkRmode h) else decide (pkRmode h ≠ 0)) ||
  (if pkConv h = 1 then !nplOk (pkSfmt h) (pkNpl h) else decide (pkNpl h ≠ 0)) ||
  decide (p.rows = 0) || decide (p.cols = 0) || (decide (pkConv h = 3) && decide (p.cols % 256 ≠ 0)) ||
  decide ((p.src.toNat : Int) % sa ≠ 0) || decide (p.sstride % sa ≠ 0) ||
  decide ((p.dst.toNat : Int) % da ≠ 0) || decide (p.dstride % da ≠ 0) ||
  (decide (pkConv h = 1) && (decide (p.dst.toNat % 64 ≠ 0) || decide (p.dstride ≠ 0))) ||
  (!pkReg h && !pkHen h && !bit (w 5) 59 && decide (w 5 ≠ 0)) || (pkHen h && pkMc h) ||
  (pkMc h && (!pkDsp h || bit (w 2) 28 || decide (w 7 = 0))) || ((pkReg h || bit (w 5) 59) && !pkDsp h)

/-- CHECK of R112: a NOP is never refused. DESIGN CHOICE: R113 has CPY.MC reject a g[b] of zero, and R112 never refuses a NOP, every
field of which but KIND and LAP is ignored; a NOP that CPY.MC issues with a g[b] of zero is accepted. -/
def pktMalformed (ws : List W64) : Bool :=
  let w (n : Nat) : W64 := ws.getD n 0
  match pkKind (w 0) with
  | 0 => false
  | 1 => copyMalformed w
  | 2 => signalMalformed w
  | _ => true

/-! Geometry (R109, R117). -/

/-- The bytes of a row of a format (R56, R58, R61, R109). -/
def fmtRow (fmt cols : Nat) : Nat :=
  match fmt with
  | 0xB => (cols + 1) / 2
  | 0xC => (cols + 3) / 4
  | 0xD => (cols + 4) / 5
  | 0xE => (cols + 255) / 256 * 136
  | f => cols * codeSize f

/-- The bytes of one destination row; PLANE has one (R123). -/
def Packet.rowLen (p : Packet) : Nat :=
  if pkConv p.h = 1 then (p.rows + 63) / 64 * p.cols * (8 * (pkNpl p.h + 3)) else fmtRow (pkDfmt p.h) p.cols
/-- The destination rows. -/
def Packet.dstRows (p : Packet) : Nat := if pkConv p.h = 1 then 1 else p.rows
/-- Bytes of the destination in all. -/
def Packet.total (p : Packet) : Nat := p.rowLen * p.dstRows
/-- The bytes of a unit (R117). -/
def Packet.unitLen (p : Packet) : Nat :=
  if pkConv p.h = 1 then 8 * (pkNpl p.h + 3) else if pkConv p.h = 3 then 136 else 512
/-- How many units a packet has. -/
def Packet.nUnits (p : Packet) : Nat := (p.total + p.unitLen - 1) / p.unitLen
/-- PROG: the units below the lowest one not yet written (R117). -/
def Packet.prog (p : Packet) : Nat := ((List.range p.nUnits).find? (fun u => decide (u ∉ p.units))).getD p.nUnits

/-- A 64-bit address some bytes from another. -/
def addrPlus (a : W64) (x : Int) : Nat := (a + BitVec.ofInt 64 x).toNat

/-- A piece of a destination row: row, offset within the row, length. -/
structure Piece where
  row : Nat
  off : Nat
  len : Nat
deriving DecidableEq, Repr

/-- The pieces of the destination rows that `n` bytes from `at_` of the row-major order take. -/
def piecesFrom (rowLen : Nat) : Nat → Nat → Nat → List Piece
  | 0, _, _ => []
  | fuel + 1, at_, n =>
    if n = 0 then []
    else
      let off := at_ % rowLen
      let len := min n (rowLen - off)
      ⟨at_ / rowLen, off, len⟩ :: piecesFrom rowLen fuel (at_ + len) (n - len)

/-- The pieces of a unit. -/
def Packet.pieces (p : Packet) (u : Nat) : List Piece :=
  let at_ := u * p.unitLen
  let n := min p.unitLen (p.total - at_)
  piecesFrom (max p.rowLen 1) (n + 1) at_ n

/-- The distance between destination rows: DSTRIDE, but that the whole destination of a Q4PASS is one contiguous row
(R123). -/
def Packet.dstStep (p : Packet) : Int := if pkConv p.h = 3 then (p.rowLen : Int) else p.dstride

/-- The address of a byte of a destination row at a receiver; a multicast replaces the core field of DST (R121). DESIGN
CHOICE: of a multicast's DST the bits above the core field are ignored as well; the manual does not say that they make the
address one that R92 rejects. -/
def Packet.dstAt (p : Packet) (rcv : Option Nat) (row off : Nat) : Nat :=
  let a := addrPlus p.dst ((row : Int) * p.dstStep + (off : Int))
  match rcv with
  | none => a
  | some k => k * 2 ^ 22 + addrPlus (BitVec.ofNat 64 (bits p.dst 21 0)) ((row : Int) * p.dstStep + (off : Int))

/-- Whether one contiguous row holds the whole destination (R123). -/
def Packet.oneRow (p : Packet) : Bool := decide (p.dstRows = 1) || decide (pkConv p.h = 3)
/-- The bytes that count as one row for R123. -/
def Packet.span (p : Packet) : Nat := if p.oneRow then p.total else p.rowLen

/-! Reading and converting (R109, R110, R116). -/

/-- Why a unit is not written: a translation fault (R124), an error code of Table 6-6, or a row group under refresh, for
which it waits (R149). -/
inductive CopyStop where
  | transl (va kind acc : Nat)
  | code (c : Nat)
  | refresh
deriving DecidableEq, Repr

/-- What forming some bytes comes to: the bytes, whether the conversion changed an element, and whether a reserved TERN
byte was read. -/
structure Formed where
  bytes : List Byte
  inex : Bool
  rsv : Bool
deriving DecidableEq, Repr

/-- A read of source bytes (R123, R124); local bytes may lie in any scratchpads of the die (R92). -/
def State.copyRead (s : State) (d : Nat) (p : Packet) (a n : Nat) : State × Except CopyStop (List Byte) :=
  if pkSsp p.h then
    if 2 ^ 32 ≤ a ∨ s.localMapped d a n = false then (s, .error (.code 0x22))
    else if (rgsOf a n).any (s.inRefresh d) then (s, .error .refresh)
    else match s.readFault d [a] n with
      | some st => (s, .error (.code (if st.code = 0x08 then 0x23 else 0x21)))
      | none => (s, .ok (s.lbytes d a n))
  else
    match s.spanBy d none true a n .read with
    | (s1, .bad va k _) => (s1, .error (.transl va k 0))
    | (s1, .ok keys _) => if s1.uncorr keys then (s1, .error (.code 0x21)) else (s1.cacheFill keys false, .ok (s1.mbytes keys))

/-- Reads source bytes and forms something from them. -/
def State.readMap {α : Type} (s : State) (d : Nat) (p : Packet) (a n : Nat) (f : List Byte → Except CopyStop α) :
    State × Except CopyStop α :=
  match s.copyRead d p a n with
  | (s1, .ok bs) => (s1, f bs)
  | (s1, .error e) => (s1, .error e)

/-- The exact value of an element held in memory. -/
def memValue (fmt x : Nat) : FVal :=
  match numFmt fmt with
  | .float f => f.decode x
  | .int f => .fin (Ex.ofInt (intVal f x))
  | _ => .fin (Ex.ofInt 0)

/-- One element converted by NARROW or WIDEN: its bytes and whether it changed (R109, R110). -/
def convOne (mode : RMode) (sf df x : Nat) : List Byte × Bool :=
  let v := memValue sf x
  match numFmt df with
  | .float f =>
    let y := finFloat f mode v
    (leBytes (f.width / 8) y, !(decide (v = .nan) || FVal.eqv (f.decode y) v))
  | .int f =>
    let (y, _) := finInt f mode v
    (leBytes (f.width / 8) (intBits f.width y), !(FVal.eqv (.fin (Ex.ofInt y)) v))
  | _ => ([], false)

/-- The reserved TERN bytes (R59). -/
def ternReserved (b : Byte) : Bool := decide (243 ≤ b.toNat)

/-- Digit i of a run of TERN bytes (R58). -/
def ternAt (bs : List Byte) (i : Nat) : Int := ternDigit (bs.getD (i / 5) 0).toNat (i % 5)

/-- The source bytes of one piece of a destination row under CONV 0, 2, 3, 4 or 5: their address and how many. -/
def Packet.pieceSource (p : Packet) (x : Piece) : Nat × Nat :=
  let h := p.h
  let base : W64 := BitVec.ofNat 64 (addrPlus p.src ((x.row : Int) * p.sstride))
  let conv := pkConv h
  let ds := max (codeSize (pkDfmt h)) 1
  let e0 := x.off / ds
  let n := x.len / ds
  let ss := max (codeSize (pkSfmt h)) 1
  if conv = 0 ∨ conv = 3 then (addrPlus base (x.off : Int), x.len)
  else if conv = 2 then (addrPlus base ((e0 / 5 : Nat) : Int), (e0 + n + 4) / 5 - e0 / 5)
  else (addrPlus base ((e0 * ss : Nat) : Int), n * ss)

/-- The bytes of one piece of a destination row under CONV 0, 2, 3, 4 or 5. -/
def State.formPiece (s : State) (d : Nat) (p : Packet) (x : Piece) : State × Except CopyStop Formed :=
  let h := p.h
  let (at_, len) := p.pieceSource x
  let conv := pkConv h
  if conv = 0 ∨ conv = 3 then s.readMap d p at_ len (fun bs => .ok ⟨bs, false, false⟩)
  else
    let ds := max (codeSize (pkDfmt h)) 1
    let e0 := x.off / ds
    let n := x.len / ds
    if conv = 2 then
      let b0 := e0 / 5
      s.readMap d p at_ len (fun bs =>
        let rsv := bs.any ternReserved
        if rsv && pkRsvfen h then .error (.code 0x20)
        else
          .ok ⟨(List.range n).flatMap (fun i =>
            let v := ternAt bs (e0 + i - 5 * b0)
            (convOne .rne 9 (pkDfmt h) (intBits 32 v)).1), false, rsv⟩)
    else
      let ss := max (codeSize (pkSfmt h)) 1
      let mode := (rmode (pkRmode h)).getD .rne
      s.readMap d p at_ len (fun bs =>
        let l := (List.range n).map (fun i => convOne mode (pkSfmt h) (pkDfmt h) (leNat ((bs.drop (i * ss)).take ss)))
        .ok ⟨l.flatMap (·.1), l.any (·.2) && decide (conv = 4), false⟩)

/-- Runs a state-passing reader over a list as far as the first stop: what it read, and the stop. -/
def formAll {α β : Type} (f : State → α → State × Except CopyStop β) (s : State) :
    List α → State × List β × Option CopyStop
  | [] => (s, [], none)
  | a :: t =>
    match f s a with
    | (s1, .error e) => (s1, [], some e)
    | (s1, .ok x) =>
      let r := formAll f s1 t
      (r.1, x :: r.2.1, r.2.2)

/-- The source bytes of element c of row r of a PLANE: their address and how many. -/
def Packet.planeSource (p : Packet) (c r : Nat) : Nat × Nat :=
  let sf := pkSfmt p.h
  let base : W64 := BitVec.ofNat 64 (addrPlus p.src ((r : Int) * p.sstride))
  let size := max (codeSize sf) 1
  let (off, n) := if sf = 0xB then (c / 2, 1) else if sf = 0xC then (c / 4, 1) else if sf = 0xD then (c / 5, 1) else (c * size, size)
  (addrPlus base (off : Int), n)

/-- Element c of row r of a PLANE source: its value, and whether a reserved TERN byte was read. -/
def State.planeElem (s : State) (d : Nat) (p : Packet) (c r : Nat) : State × Except CopyStop (FVal × Bool) :=
  let h := p.h
  let sf := pkSfmt h
  let (at_, n) := p.planeSource c r
  let packed (per w : Nat) : State × Except CopyStop (FVal × Bool) :=
    s.readMap d p at_ n (fun bs =>
      .ok (.fin (Ex.ofInt (intVal ⟨w, true⟩ (leNat bs / 2 ^ (w * (c % per)) % 2 ^ w))), false))
  if sf = 0xB then packed 2 4
  else if sf = 0xC then packed 4 2
  else if sf = 0xD then
    s.readMap d p at_ n (fun bs =>
      let rsv := bs.any ternReserved
      if rsv && pkRsvfen h then .error (.code 0x20) else .ok (.fin (Ex.ofInt (ternAt bs (c % 5))), rsv))
  else
    s.readMap d p at_ n (fun bs => .ok (memValue sf (leNat bs), false))

/-- Sets bit k of a plane word for each element k that a test marks. -/
def planeWord (n : Nat) (f : Nat → Bool) : Nat :=
  (List.range n).foldl (fun x k => if f k then x + 2 ^ k else x) 0

/-- An AP block of n planes from its valid elements (R62, R63, R64): the image and ST. Integer sources keep their integers
and XB = n − 2. -/
def apForm (n : Nat) (intSrc : Bool) (xs : List FVal) : List Byte × Bool :=
  let special (x : FVal) : Bool := match x with | .fin _ => false | _ => true
  let xb : Int := if intSrc then (n : Int) - 2 else alignExp xs
  let q (x : FVal) : Int :=
    match x with
    | .fin e => if intSrc then rint .rtz e else truncScale e ((n : Int) - 2 - xb)
    | .inf neg => if neg then -1 else 1
    | .nan => 0
  let held (x : FVal) : Bool :=
    match x with
    | .fin _ => FVal.eqv (.fin { Ex.ofInt (q x) with exp := xb - (n : Int) + 2 }) x
    | _ => true
  let st := !intSrc && xs.any (fun x => !held x)
  let sp := xs.filter special
  let sv := if sp.isEmpty then 0 else if sp.all (fun x => decide (x = .inf false)) then 1
    else if sp.all (fun x => decide (x = .inf true)) then 2 else 3
  let hd := intBits 10 xb + 2 ^ 10 * (n - 1) + 2 ^ 14 * sv + (if st then 2 ^ 16 else 0) + 2 ^ 17 * xs.length
  let qs := xs.map (fun x => intBits n (q x))
  let planes := (List.range n).flatMap (fun i =>
    leBytes 8 (planeWord xs.length (fun k => decide (qs.getD k 0 / 2 ^ i % 2 = 1))))
  (leBytes 8 hd ++ planes ++ leBytes 8 (planeWord xs.length (fun k => special (xs.getD k .nan))), st)

/-- Whether a PLANE source is an integer format (R64). -/
def planeInt (sf : Nat) : Bool := inCodes sf [5, 0xB, 0xC, 0xD]

/-- Whether the reads of a unit met a reserved TERN byte before it stopped: one that RSVFEN makes a layout fault, or one read
before another stop (R59). -/
def rsvBefore (read : Bool) (e : CopyStop) : Bool := read || decide (e = .code 0x20)

/-- The rows, within its block of 64, of a unit of a PLANE (R109, R117). -/
def Packet.planeRows (p : Packet) (u : Nat) : List Nat := List.range (min 64 (p.rows - 64 * (u / max p.cols 1)))

/-- The bytes of a unit (R109, R117), or why it stops, with whether a reserved TERN byte had been read (R59). -/
def State.formUnit (s : State) (d : Nat) (p : Packet) (u : Nat) : State × Except (CopyStop × Bool) Formed :=
  if pkConv p.h = 1 then
    let kb := u / max p.cols 1
    let c := u % max p.cols 1
    match formAll (fun t k => t.planeElem d p c (64 * kb + k)) s (p.planeRows u) with
    | (s1, l, some e) => (s1, .error (e, rsvBefore (l.any (·.2)) e))
    | (s1, l, none) =>
      let (bs, st) := apForm (pkNpl p.h + 1) (planeInt (pkSfmt p.h)) (l.map (·.1))
      (s1, .ok ⟨bs, st, l.any (·.2)⟩)
  else
    match formAll (fun t x => t.formPiece d p x) s (p.pieces u) with
    | (s1, l, some e) => (s1, .error (e, rsvBefore (l.any (·.rsv)) e))
    | (s1, l, none) => (s1, .ok ⟨l.flatMap (·.bytes), l.any (·.inex), l.any (·.rsv)⟩)

/-! Writing (R121, R123). -/

/-- The row groups that a destination row covers from first byte to last, of those a piece touches (R123). -/
def Packet.coveredBy (p : Packet) (rcv : Option Nat) (x : Piece) : List Nat :=
  let row := if p.oneRow then 0 else x.row
  let lo := p.dstAt rcv row 0
  (rgsOf (p.dstAt rcv x.row x.off) x.len).filter (fun g =>
    decide (lo ≤ g * 512) && decide (g * 512 + 512 ≤ lo + p.span))

/-- The units that hold the bytes of a covered row group. -/
def Packet.unitsOf (p : Packet) (rcv : Option Nat) (row g : Nat) : List Nat :=
  let r := if p.oneRow then 0 else row
  let at_ := r * p.rowLen + (g * 512 - p.dstAt rcv r 0)
  let u0 := at_ / p.unitLen
  (List.range ((at_ + 511) / p.unitLen - u0 + 1)).map (fun i => u0 + i)

/-- Writes a piece at one receiver or at the destination. DESIGN CHOICE: a multicast piece that runs past the 4 MiB of its
receiver's scratchpad ends the packet with LOCALADDR; the manual is silent on it (R121). A row group that the row covers becomes one
full write when the last of its units arrives (R123). -/
def State.writePiece (s : State) (d : Nat) (p : Packet) (u : Nat) (rcv : Option Nat) (x : Piece) (bs : List Byte) :
    State × Option CopyStop :=
  let a := p.dstAt rcv x.row x.off
  if pkDsp p.h then
    if 2 ^ 32 ≤ a ∨ s.localMapped d a x.len = false ∨
        (rcv.isSome ∧ (rcv ≠ some (a / 2 ^ 22) ∨ rcv ≠ some ((a + x.len - 1) / 2 ^ 22))) then (s, some (.code 0x22))
    else
      let s1 := s.localWrite d a bs false
      ((p.coveredBy rcv x).foldl (fun t g =>
        if (p.unitsOf rcv x.row g).all (fun v => decide (v = u) || decide (v ∈ p.units)) then t.fullWrite d g else t) s1,
        none)
  else
    match s.spanBy d none true a x.len .write with
    | (s1, .bad va k _) => (s1, some (.transl va k 1))
    | (s1, .ok keys _) => ((((s1.cacheFill keys true).portWrite keys bs).1).prompt keys 24, none)

/-- Writes the pieces of a unit in order. -/
def State.writePieces (s : State) (d : Nat) (p : Packet) (u : Nat) (rcv : Option Nat) :
    List Piece → List Byte → State × Option CopyStop
  | [], _ => (s, none)
  | x :: t, bs =>
    match s.writePiece d p u rcv x (bs.take x.len) with
    | (s1, none) => s1.writePieces d p u rcv t (bs.drop x.len)
    | (s1, some e) => (s1, some e)

/-- The receivers a multicast's unit goes to, or the one destination. -/
def Packet.targets (p : Packet) : List (Option Nat) :=
  if pkMc p.h then (p.rcvs.filter (fun r => decide (r < 64))).map some else [none]

/-- Writes a unit at every target. -/
def State.writeTargets (s : State) (d : Nat) (p : Packet) (u : Nat) (bs : List Byte) :
    List (Option Nat) → State × Option CopyStop
  | [] => (s, none)
  | r :: t =>
    match s.writePieces d p u r (p.pieces u) bs with
    | (s1, none) => s1.writeTargets d p u bs t
    | (s1, some e) => (s1, some e)

/-! Packets of an engine; engine e of die d is numbered 4d + e. -/

/-- A copy engine. -/
def State.cengine (s : State) (en : Nat) : CopyEngine := mapGet ⟨[], [], []⟩ (s.die (en / 4)).copy (en % 4)
/-- Changes a copy engine. -/
def State.modCengine (s : State) (en : Nat) (f : CopyEngine → CopyEngine) : State :=
  s.modDie (en / 4) (fun x => { x with copy := mapPut x.copy (en % 4) (f (mapGet ⟨[], [], []⟩ x.copy (en % 4))) })
/-- A packet of an engine. -/
def State.packet (s : State) (en ref : Nat) : Option Packet :=
  (s.cengine en).packets.find? (fun p => decide (p.ref = ref))
/-- Changes a packet of an engine. -/
def State.modPacket (s : State) (en ref : Nat) (f : Packet → Packet) : State :=
  s.modCengine en (fun x => { x with packets := x.packets.map (fun p => if p.ref = ref then f p else p) })

/-- Packets that run or wait for a suspend slot: at most sixteen (R106, R124). -/
def CopyEngine.running (e : CopyEngine) : Nat :=
  e.packets.countP (fun p => decide (p.phase = .running) || decide (p.phase = .waitSlot))

/-- NOREG of a status word (Table 6-5): REG was set, and no entry was made, as at an error that ends a packet that has started. -/
def Packet.unregistered (p : Packet) (code : Nat) : Bool :=
  p.noreg || (pkReg p.h && decide (pkKind p.h ≠ 0) && decide (0x20 ≤ code))

/-- The status word of a packet (Table 6-5). -/
def Packet.status (p : Packet) (code : Nat) : W64 :=
  BitVec.ofNat 64 ((if pkKind p.h = 1 then p.prog % 2 ^ 36 else 0) * 2 ^ 28 + p.tfk % 16 * 2 ^ 24 + p.tfa % 4 * 2 ^ 22 +
    (if p.bcv then 2 ^ 21 else 0) + (if p.unregistered code then 2 ^ 20 else 0) + (if p.rsv then 2 ^ 19 else 0) +
    (if p.inex then 2 ^ 18 else 0) + code % 256 * 2 ^ 8)

/-- Whether two packets have the same source: the issuing context's task, or the queue (R108). -/
def Packet.sameSource (p q : Packet) : Bool :=
  match p.queue, q.queue with
  | some x, some y => decide (x.1 = y.1)
  | none, none => decide (p.tid = q.tid)
  | _, _ => false

/-- Whether a packet has ORD; every field of a NOP but KIND and LAP is ignored (R108). -/
def Packet.ord (p : Packet) : Bool := pkOrd p.h && decide (pkKind p.h ≠ 0)

/-- Whether an access that a packet follows is not performed yet (R114). -/
def State.pushesWait (s : State) (p : Packet) : Bool := s.anyOpen p.behind

/-- Whether an engine other than its own still has an earlier packet of the source of an ORD packet, a context that has moved
(R119). -/
def State.ordElsewhere (s : State) (en : Nat) (p : Packet) : Bool :=
  p.ord && p.tid.isSome && s.dies.any (fun x => x.2.copy.any (fun e =>
    decide (x.1 * 4 + e.1 ≠ en) && e.2.packets.any (fun q => decide (q.tid = p.tid) && decide (q.ref < p.ref))))

/-- Whether a packet of the intake waits for what lies outside its engine. -/
def State.startWaits (s : State) (en : Nat) (p : Packet) : Bool :=
  decide (p.phase = .intake) && (s.pushesWait p || s.ordElsewhere en p)

/-- Whether a packet of the intake may start, by the packets before it (R119). -/
def mayStart (before : List Packet) (p : Packet) : Bool :=
  decide (p.phase = .intake) &&
  !(before.any (fun q => q.sameSource p && (p.ord || (decide (q.phase = .intake) && decide (q.eff = p.eff)))))

/-- The packet an engine starts next: the highest effective priority, then arrival (R106); `held` are those that wait for
what lies outside the engine. -/
def pickStart (held : Packet → Bool) : List Packet → List Packet → Option Packet → Option Packet
  | _, [], best => best
  | before, p :: t, best =>
    let best' := if mayStart before p && !held p then
        match best with
        | none => some p
        | some b => if b.eff < p.eff then some p else some b
      else best
    pickStart held (before ++ [p]) t best'

/-- The cores a multicast names, in order (R121). -/
def Packet.mask (p : Packet) : List Nat := (List.range 64).filter (fun i => bit (p.w 7) i)

/-- Has the next unit of a packet written in the time its engine's share of 256 destination bytes a copy clock gives (R117).
DESIGN CHOICE: the manual fixes no time. -/
def State.nextUnit (s : State) (en ref : Nat) : State :=
  match s.packet en ref with
  | none => s
  | some p =>
    let d := en / 4
    if p.nUnits ≤ p.prog then s.due .copyCompletion (.n en ref 0)
    else s.afterCycles d (s.copyDiv d) (2 * max (s.cengine en).running 1) .copyUnitWrite (.n en ref p.prog)

/-- Has the queues of an engine looked at again. -/
def State.lookQueues (s : State) (en : Nat) : State :=
  (List.range 16).foldl (fun u j =>
    if bit (u.dieCtl (en / 4) (0x110 + 16 * (en % 4) + j)) 63 then
      u.dueOnce .queueSlotTake (.queue (.copy (en / 4) (en % 4) j))
    else u) s

/-- Has an engine look again a copy-clock period later, where a packet waits for what lies outside it. -/
def State.lookAgain (s : State) (en : Nat) : State :=
  if s.timers.any (fun t => decide (t.2 = ⟨.copyPacketStart, .n en 0 0⟩)) then s
  else s.afterCycles (en / 4) (s.copyDiv (en / 4)) 1 .copyPacketStart (.n en 0 0)

/-- COPY_PACKET_START of engine a (R106, R119): a NOP or a SIGNAL completes when it starts, a multicast waits for LAND at
its receivers (R121), and another COPY begins its units. -/
def execCopyPacketStart (s : State) : Result :=
  match s.ev with
  | .n en _ _ =>
    let s0 := s.redonate
    let e := s0.cengine en
    if 16 ≤ e.running ∨ e.packets.any (fun p => decide (p.phase = .waitSlot)) then .next s0
    else
      match pickStart (s0.startWaits en) [] e.packets none with
      | none => .next (if e.packets.any (s0.startWaits en) then s0.lookAgain en else s0)
      | some p =>
        let s1 := s0.modPacket en p.ref (fun q => { q with phase := .running })
        let s2 :=
          if pkKind p.h ≠ 1 then s1.due .copyCompletion (.n en p.ref 0)
          else if pkMc p.h then
            let land := 6 * (p.w 6).toNat
            p.mask.foldl (fun u r =>
              if land ≤ u.now then u.due .multicastLanding (.n en p.ref r)
              else u.at_ land .multicastLanding (.n en p.ref r)) s1
          else s1.nextUnit en p.ref
        .next ((s2.dueOnce .copyPacketStart (.n en 0 0)).lookQueues en)
  | _ => .next s

/-- Ends a packet with a code: its completion is due. -/
def State.endPacket (s : State) (en ref code : Nat) : State :=
  (s.modPacket en ref (fun p => { p with code := code })).due .copyCompletion (.n en ref 0)

/-- Whether a unit is written to a row group under refresh (R149), or to a page that a checkpoint has yet to stream (R408). -/
def State.unitWaits (s : State) (d : Nat) (p : Packet) (u : Nat) : Bool :=
  p.targets.any (fun r => (p.pieces u).any (fun x =>
    let a := p.dstAt r x.row x.off
    if pkDsp p.h then (rgsOf a x.len).any (s.inRefresh d) else s.cutHolds d a x.len))

/-- The places in device memory that a unit reads and writes. -/
def State.unitKeys (s : State) (d : Nat) (p : Packet) (u : Nat) : List Nat :=
  let at_ (acc : Acc) (x : Nat × Nat) : List Nat :=
    match (s.spanBy d none true x.1 x.2 acc).2 with
    | .ok keys _ => keys
    | .bad _ _ _ => []
  let src := if pkConv p.h = 1 then (p.planeRows u).map (fun k => p.planeSource (u % max p.cols 1) (64 * (u / max p.cols 1) + k))
    else (p.pieces u).map p.pieceSource
  (if pkSsp p.h then [] else src.flatMap (at_ .read)) ++
  (if pkDsp p.h then [] else p.targets.flatMap (fun r => (p.pieces u).flatMap (fun x => at_ .write (p.dstAt r x.row x.off, x.len))))

/-- A unit takes its turn at each line for which requests wait at an atomic engine, and goes on then (R353): none where it need not
wait. -/
def State.unitTurn (s : State) (en ref u : Nat) (p : Packet) : Option State :=
  if p.turn = u + 1 then none
  else
    match s.takeTurns (fun h => sourceAt h (en / 4) (64 + en % 4)) (s.unitKeys (en / 4) p u) with
    | (_, []) => none
    | (s1, turns) => some (((s1.modPacket en ref (fun q => { q with turn := u + 1 })).postpone 16384 s1.seq turns
        (.event ⟨.copyUnitWrite, .n en ref u⟩)).fresh)

/-- COPY_UNIT_WRITE of engine a, packet b, unit c (R109, R117, R123, R124, R353). -/
def execCopyUnitWrite (s : State) : Result :=
  match s.ev with
  | .n en ref u =>
    match s.packet en ref with
    | none => .next s
    | some p =>
      let d := en / 4
      if p.phase ≠ .running ∨ p.nUnits ≤ u ∨ p.code ≠ 0 ∨ pkKind p.h ≠ 1 ∨
          (pkMc p.h ∧ (p.mask.length ≠ p.rcvs.length ∨ s.tstamp < (p.w 6).toNat)) then .next s
      else if u ∈ p.units then .next s
      else
      match s.unitTurn en ref u p with
      | some s1 => .next s1
      | none =>
        let stop (t : State) (e : CopyStop) : State :=
          match e with
          | .transl va k a =>
            (t.modPacket en ref (fun q => { q with phase := .waitSlot, tfk := k, tfa := a, tfva := va })).dueOnce
              .suspendSlotTake (.n en ref 0)
          | .code c => t.endPacket en ref c
          | .refresh => t.afterCycles d (t.copyDiv d) 1 .copyUnitWrite (.n en ref u)
        let note (t : State) (r : Bool) : State := t.modPacket en ref (fun q => { q with rsv := q.rsv || r })
        match s.formUnit d p u with
        | (s1, .error (e, r)) => .next (stop (note s1 r) e)
        | (s1, .ok f) =>
          if s1.unitWaits d p u then .next (stop s1 .refresh)
          else
            match s1.writeTargets d p u f.bytes p.targets with
            | (s2, some e) => .next (stop (note s2 f.rsv) e)
            | (s2, none) =>
              .next ((s2.modPacket en ref (fun q =>
                { q with units := u :: q.units, inex := q.inex || f.inex, rsv := q.rsv || f.rsv, turn := 0 })).nextUnit en ref)
  | _ => .next s

/-! Traps of a task, wherever it is (R124, R381). -/

/-- Records an asynchronous trap for a task: in its context, or with the task while it is saved or being restored. -/
def State.trapTask (s : State) (tid : Nat) (t : AsyncTrap) : State :=
  match s.allTasks.find? (fun p => decide (p.2.tid = tid)) with
  | none => s
  | some (d, x) =>
    let keep := s.modTask d tid (fun y => { y with traps := addTrap y.traps t })
    match x.phase with
    | .placed c =>
      if (s.ctx c).phase = .restoring then keep else s.trapCtx c (fun l => addTrap l t)
    | _ => keep

/-! Multicast (R121, R122). -/

/-- The landing windows of a core that a packet's landing overlaps and that are enabled. -/
def State.windowsHit (s : State) (k : Nat) (p : Packet) (rcv : Nat) : List Nat :=
  let gs := (List.range p.dstRows).flatMap (fun r => rgsOf (p.dstAt (some rcv) r 0 % 2 ^ 22) p.rowLen)
  [0, 1, 2, 3].filter (fun n =>
    let w := s.coreCtl k (0x050 + n)
    bit w 62 && gs.any (fun g => decide (bits w 12 0 ≤ g) && decide (g < bits w 12 0 + bits w 45 32)))

/-- Tells a context slot of a refused landing, or the packet's launch where the slot is empty (R122). DESIGN CHOICE: where the
slot is empty and the packet came from a queue, which has no launch, the management core is told; the manual names nobody
then. DESIGN CHOICE: the manual gives the launch's status no DIDX and no CAUSE for that trap, whose slot holds no task; they are
0xFFFF and FAULT. -/
def State.contractTrap (s : State) (c n : Nat) (p : Packet) (d : Nat) : State :=
  if (s.ctx c).phase = .free then
    match p.launch with
    | some id => s.failLaunch id (failWord 0xFFFF causeFault 0x22)
    | none => s.report 0x22 d [c, n]
  else if (s.ctx c).phase = .restoring then s.trapTask (s.ctx c).tid ⟨0x22, n⟩
  else s.trapCtx c (fun l => addTrap l ⟨0x22, n⟩)

/-- MULTICAST_LANDING of engine a, packet b, receiver c (R121, R122): the first byte reaches the receiver, which takes the
landing or refuses it. -/
def execMulticastLanding (s : State) : Result :=
  match s.ev with
  | .n en ref r =>
    match s.packet en ref with
    | none => .next s
    | some p =>
      let d := en / 4
      let k := d * 64 + r
      if p.phase ≠ .running ∨ ¬ pkMc p.h ∨ s.tstamp < (p.w 6).toNat ∨ r ∉ p.mask ∨ r ∈ p.rcvs ∨ (64 + r) ∈ p.rcvs then
        .next s
      else
        let ws := s.windowsHit k p r
        let (s1, code) := match ws.find? (fun n => bit (s.coreCtl k (0x050 + n)) 63) with
          | none => (s, r)
          | some n =>
            ((s.modPacket en ref (fun q => { q with bcv := true })).contractTrap
              (k * 4 + bits (s.coreCtl k (0x050 + n)) 61 60) n p d, 64 + r)
        let s2 := s1.modPacket en ref (fun q => { q with rcvs := q.rcvs ++ [code] })
        .next (if p.rcvs.length + 1 = p.mask.length then s2.nextUnit en ref else s2)
  | _ => .next s

/-! Completion (R118, R120, R126, R132). -/

/-- The receivers of a completed copy with a local destination. -/
def Packet.landed (p : Packet) : List (Option Nat) := p.targets

/-- The row groups covered entirely at a receiver (R123). -/
def Packet.allCovered (p : Packet) (rcv : Option Nat) : List Nat :=
  let rows := if p.oneRow then [0] else List.range p.dstRows
  rows.flatMap (fun r =>
    let lo := p.dstAt rcv r 0
    (rgsOf lo p.span).filter (fun g => decide (lo ≤ g * 512) && decide (g * 512 + 512 ≤ lo + p.span)))

/-- Class assignment under LCEN (R118, R123). -/
def State.copyClass (s : State) (d : Nat) (p : Packet) : State :=
  if bit (p.w 5) 59 then
    p.landed.foldl (fun t r => (p.allCovered r).foldl (fun u g =>
      (u.setRg d g { u.rg d g with cls := bits (p.w 5) 58 56 }).limitRg d g) t) s
  else s

/-- Registration under REG (R126), as RES.REG makes an entry, of at most 4 MiB (R317): whether every entry was made, one at
least. -/
def State.copyRegister (s : State) (d : Nat) (p : Packet) : State × Bool :=
  if pkReg p.h then
    p.landed.foldl (fun t r =>
      let a := p.dstAt r 0 0
      if decide (p.total ≤ 2 ^ 22) && t.1.localOk d a p.total && t.1.validRange d a p.total then
        let (u, code) := t.1.lexMake d (bits (p.w 5) 23 0) (bits (p.w 5) 55 24) a p.total
        (u, t.2 && decide (code < 2))
      else (t.1, false)) (s, !p.landed.isEmpty)
  else (s, true)

/-- INUSE of every overlapped enabled window once the landing's last byte is written (R122). -/
def State.windowsUse (s : State) (d : Nat) (p : Packet) : State :=
  if pkMc p.h then
    (p.rcvs.filter (fun r => decide (r < 64))).foldl (fun t r =>
      (t.windowsHit (d * 64 + r) p r).foldl (fun u n =>
        u.setCoreCtl (d * 64 + r) (0x050 + n) (u.coreCtl (d * 64 + r) (0x050 + n) ||| BitVec.ofNat 64 (2 ^ 63))) t) s
  else s

/-- The handler start of R120: a task pinned to one core, of the issuer's launch, or of none. DESIGN CHOICE: Table 20-11 gives DIDX
as 0xFFFF for a task of SPAWN or of the walker and does not name a copy's handler, which no descriptor of the launch made; its
failure shows 0xFFFF too. DESIGN CHOICE: the manual is silent where the issuer's launch has completed when the packet does; the
handler starts all the same, as a task of a launch that is no more, and its failure reaches nobody. -/
def State.copyHandler (s : State) (en : Nat) (p : Packet) (status : W64) : State :=
  let d := en / 4
  let failed : Bool := match p.launch with
    | some id => (s.findLaunch id).any (fun l => l.2.failed.isSome)
    | none => false
  if failed then s
  else
    let core := if pkDsp p.h then bits p.dst 27 22 else bits (p.w 6) 61 56
    let t : Task :=
      { tid := s.seq, kind := .copyHandler en (p.queue.map (fun q => q)), desc := 0, entry := bits (p.w 6) 55 0,
        args := [p.dst, status, p.w 5], prio := bits (p.w 3) 50 48, donated := 0, pin := some core, anchor := none,
        spr := 0, cen := false, cnt := 0, home := d, launch := p.launch, launchId := p.lid, didx := 0xFFFF, reads := [],
        phase := .waiting, readyAt := s.now, readySeq := s.seq, patience := none, patienceOver := false, restarts := 0,
        lastCore := 0, lastSlot := 0, priv := false, readInputs := false, asked := none, starved := 0, migrated := false, sig := none, folds := [], traps := [],
        spawnLand := 0, streams := [], arrivals := [], late := [], later := [], stopCode := 0 }
    s.addTask d t

/-- Keeps the final status of a CPYW in its engine (R113, R115): the pending write that waits for it may land, and stays a
reference until it does. -/
def State.cpywStatus (s : State) (en ref : Nat) (status : W64) : State :=
  let s1 := s.modCengine en (fun e => { e with statuses := mapPut e.statuses ref status })
  match s1.ctxs.find? (fun x => x.2.pend.any (fun w => decide (w.payload = .cpyw en ref))) with
  | some (c, _) =>
    s1.modCtx c (fun x => { x with pend := x.pend.map (fun w =>
      if w.payload = .cpyw en ref then { w with arrived := true } else w) })
  | none => s1

/-- What follows once a packet has left its engine: its status goes where it is awaited, and the engine looks for more. -/
def State.packetOut (s : State) (en : Nat) (p : Packet) (code : Nat) : State :=
  let d := en / 4
  let st := p.status code
  let s1 := s.modCengine en (fun e => { e with packets := e.packets.filter (fun q => decide (q.ref ≠ p.ref)) })
  let s2 := if p.wait then s1.cpywStatus en p.ref st else s1
  let s3 := match p.queue with
    | some (j, slot) => s2.endSlot (.copy d (en % 4) j) slot st (decide (code ≠ 0))
    | none => s2
  let s4 := match p.tid, code with
    | some tid, n + 1 => if p.refetch.isSome then s3 else s3.trapTask tid ⟨0x21, en % 4 * 256 + (n + 1)⟩
    | _, _ => s3
  let s5 := match p.refetch with
    | some c => s4.due .phaseRefetchComplete (.n c code 0)
    | none => s4
  (s5.dueOnce .copyPacketStart (.n en 0 0)).lookQueues en

/-- COPY_COMPLETION of engine a, packet b (R118): class, registration, the counter, the handler; with an error, none of
them. -/
def execCopyCompletion (s : State) : Result :=
  match s.ev with
  | .n en ref _ =>
    match s.packet en ref with
    | none => .next s
    | some p =>
      let d := en / 4
      if p.phase ≠ .running then .next s
      else if p.code ≠ 0 then .next (s.packetOut en p p.code)
      else if pkKind p.h = 1 ∧ p.prog < p.nUnits then .next s
      else if pkKind p.h = 0 then .next (s.packetOut en p 0)
      else
        let isCopy := decide (pkKind p.h = 1)
        let s1 := if isCopy && pkDsp p.h then (s.windowsUse d p).copyClass d p else s
        let (s2, made) := if isCopy then s1.copyRegister d p else (s1, true)
        let p' := { p with noreg := !made }
        let s3 := if pkCen p.h then s2.decCounter d (pkCnt p.h) else s2
        let s4 := if pkHen p.h then s3.copyHandler en p (p'.status 0) else s3
        .next (s4.packetOut en p' 0)
  | _ => .next s

/-! Suspension (R124, R125, R392). -/

/-- The lowest free suspend slot of an engine. -/
def CopyEngine.freeSlot (e : CopyEngine) : Option Nat :=
  (List.range 8).find? (fun i => e.packets.all (fun p => decide (p.phase ≠ .suspended i)))

/-- SUSPEND_SLOT_TAKE of engine a, packet b (R124): a packet that waits takes a free slot and reports. -/
def execSuspendSlotTake (s : State) : Result :=
  match s.ev with
  | .n en ref _ =>
    match s.packet en ref, (s.cengine en).freeSlot with
    | some p, some i =>
      if p.phase = .waitSlot then
        .next (((s.modPacket en ref (fun q => { q with phase := .suspended i })).report 0x02 (en / 4)
          [en % 4, i, (p.status 0x02).toNat, p.tfva]).dueOnce .copyPacketStart (.n en 0 0))
      else .next s
    | _, _ => .next s
  | _ => .next s

/-- Resumes the packet in a suspend slot from its progress mark (R125). -/
def State.resumeSlot (s : State) (en i : Nat) : State :=
  match (s.cengine en).packets.find? (fun p => decide (p.phase = .suspended i)) with
  | none => s
  | some p =>
    let s1 := s.modPacket en p.ref (fun q => { q with
      phase := .running, tfk := 0, tfa := 0, tfva := 0, units := List.range q.prog })
    let s2 := s1.nextUnit en p.ref
    ((s2.cengine en).packets.filter (fun q => decide (q.phase = .waitSlot))).foldl
      (fun u q => u.dueOnce .suspendSlotTake (.n en q.ref 0)) s2

/-- CERESUME_WRITE of engine a with the mask of slots b (R125). -/
def execCeresumeWrite (s : State) : Result :=
  match s.ev with
  | .n en m _ =>
    .next ((List.range 8).foldl (fun u i => if m.testBit i then u.resumeSlot en i else u) s)
  | _ => .next s

/-- Ends every packet of an engine with ABORTED (R127). -/
def State.abortEngine (s : State) (en : Nat) : State :=
  (s.cengine en).packets.foldl (fun u p => u.packetOut en { p with phase := .running } 0x24) s

/-! Issue from a core (R113). -/

/-- The words of a packet in registers g[a] to g[a + 7]. -/
def State.pktWords (s : State) (a : Reg) : List W64 :=
  (List.range 8).map (fun i => s.cx.rg (a.toNat + i))

/-- The engine of the issuing core (R105). -/
def State.myEngine (s : State) : Nat := s.cd * 4 + s.ck % 64 / 16

/-- The priority that a context gives the packets it issues: its task's own (R106, R333). -/
def State.ownPrio (s : State) (c : Nat) : Nat := ((s.taskAt c).map (fun t => t.prio)).getD 0

/-- A packet as it enters an engine's intake. -/
def newPacket (ref : Nat) (ws : List W64) (tid : Option Nat) (queue : Option (Nat × Nat)) (prio : Nat)
    (launch : Option Nat) (lid : Nat) (wait : Bool) : Packet :=
  ⟨ref, ws, tid, queue, prio, 0, .intake, 0, 0, 0, false, false, false, false, [], [], 0, none, launch, lid, wait, [], 0⟩

/-- Puts a packet into an intake. -/
def State.intakePut (s : State) (en : Nat) (p : Packet) : State :=
  (s.modCengine en (fun e => { e with packets := e.packets ++ [p] })).fresh.dueOnce .copyPacketStart (.n en 0 0)

/-- A copy instruction: the packet is read at issue; a full intake holds the bundle; a refused packet's status, an accepted
one's ACCEPTED, or the final status of a CPYW lands at 40 or later (R113); the packet follows every access of the bundles
before, for which it waits in the intake (R114). -/
def copyOp (d a : Reg) (more : List Reg) (ws : State → List W64) (wait : Bool) : SlotOp :=
  { SlotOp.plain (fun s =>
      let l := ws s
      let en := s.myEngine
      let s1 := s.modCengine en (fun e => { e with waiting := e.waiting.filter (fun c => decide (c.1 ≠ s.iss.ctx)) })
      if pktMalformed l then s1.pendG d 40 (BitVec.ofNat 64 (0x10 * 256))
      else
        let t := s1.taskAt s1.iss.ctx
        let ref := s1.seq
        let p := newPacket ref l (some s1.cx.tid) none (s1.ownPrio s1.iss.ctx)
          (t.bind (fun u => u.launch)) ((t.map (fun u => u.launchId)).getD 0) wait
        let s2 := s1.intakePut en { p with behind := s1.priorOpen }
        if wait then s2.pendRaw d.toNat 40 (.cpyw en ref) false
        else s2.pendG d 40 (BitVec.ofNat 64 (0x01 * 256))) with
    reads := (List.range 8).map (fun i => RegRef.g (a.toNat + i)) ++ more.flatMap gref,
    writes := wr (gref d) 40, phase := 1,
    hold := fun s => !s.intakeFree s.cd (s.ck % 64 / 16) }

/-- CPY (R113). -/
def opCpy (d a : Reg) : SlotOp := copyOp d a [] (fun s => s.pktWords a) false
/-- CPY at issue (R113). -/
def execCpy (d a : Reg) (s : State) : Result := (opCpy d a).exec s

/-- CPY.MC: MC is set and word 7 is g[b] (R113). -/
def opCpyMc (d a b : Reg) : SlotOp :=
  copyOp d a [b] (fun s =>
    let l := s.pktWords a
    (l.getD 0 0 ||| 0x400000000#64) :: ((l.drop 1).take 6) ++ [s.g b]) false
/-- CPY.MC at issue (R113). -/
def execCpyMc (d a b : Reg) (s : State) : Result := (opCpyMc d a b).exec s

/-- CPYW (R113). -/
def opCpyw (d a : Reg) : SlotOp := copyOp d a [] (fun s => s.pktWords a) true
/-- CPYW at issue (R113). -/
def execCpyw (d a : Reg) (s : State) : Result := (opCpyw d a).exec s

/-! Slots of a queue (R131). -/

/-- Whether a context still holds the bundle that waits for an entry of an intake (R105). -/
def State.intakeWaiter (s : State) (w : Nat × Nat × Nat) : Bool :=
  let x := s.ctx w.1
  decide (x.phase = .ready) && decide ((s.core (coreOf w.1)).running = some (w.1 % 4)) && decide (x.tid = w.2.1) &&
    decide (x.pc = w.2.2) && (s.core (coreOf w.1)).held.isSome

/-- QUEUE_SLOT_TAKE of a queue (R131): its next ready slot is taken; a copy packet is checked and enters the intake while an
entry is free and no instruction waits for it (R105), and a launch or collective slot is served. -/
def execQueueSlotTake (s : State) : Result :=
  match s.ev with
  | .queue q =>
    let d := (queueReg q).1
    let room := match q with
      | .copy _ e _ => s.intakeFree d e && !(s.cengine (d * 4 + e)).waiting.any s.intakeWaiter
      | _ => true
    if !room then .next s
    else
      match s.lookSlot q with
      | (s1, .nothing) => .next s1
      | (s1, .invalid desc) => .next (s1.haltQueue q desc desc.rd)
      | (s1, .ready desc slot bs) =>
        let st := (s1.qstate q).getD ⟨desc.rd, [], 0⟩
        let s2 := s1.setQstate q { st with taken := slot + 1 }
        let s3 := match q with
          | .copy _ e j =>
            let ws := (List.range 8).map (fun i => wordAt bs (8 * i))
            if pktMalformed ws then s2.endSlot q slot (BitVec.ofNat 64 (0x10 * 256)) true
            else
              s2.intakePut (d * 4 + e) (newPacket s2.seq ws none (some (j, slot)) (bits (s2.queueCtl q) 62 60) none 0
                false)
          | .launch _ n => s2.due (slotEvent q (pkKind (wordAt bs 0))) (.n d n slot)
          | .coll _ n => s2.due (slotEvent q (pkKind (wordAt bs 0))) (.n d n slot)
        .next (s3.dueOnce .queueSlotTake (.queue q))
  | _ => .next s

end Sys2Proof.Machine
end

