-- ==== Sys2Proof/Machine/Turret.lean ====
section
/-! DEFINITION. Queue rings (R169 to R176) and the Turret that streams them to and from device memory (R83 to R89). -/

namespace Sys2Proof.Machine

/-- The queue register number of a queue-only field (R29). -/
def qnum (r : Reg) : Nat := r.toNat - 56

/-! Binding and status (R169, R173). -/

/-- The scratchpad allocation of a context: its base and its bytes (R311). -/
def State.alloc (s : State) (c : Nat) : Nat × Nat :=
  (coreOf c % 64 * 2 ^ 22 + c % 4 * 2 ^ 20, 512 * ((s.taskAt c).map (fun t => t.spr)).getD 0)

/-- The illegal operands of QCFG (R169). -/
def State.qcfgBad (s : State) (qn : Nat) (x : W64) : Bool :=
  let dir := bits x 55 54
  let n := bits x 43 32
  let base := bits x 31 0
  let (lo, len) := s.alloc s.iss.ctx
  ((s.cx.queue qn).stream.isSome || decide (bits x 53 44 ≠ 0)) ||
  (if dir = 0 then decide (x ≠ 0)
   else !inRange n 1 2048 || decide (base % 512 ≠ 0) || decide (base / 2 ^ 22 ≠ s.ck % 64) ||
     decide (2 ^ 22 < base % 2 ^ 22 + 512 * n) || decide (base < lo) || decide (lo + len < base + 512 * n))

/-- QCFG (R169). DESIGN CHOICE: R169's effect names HEAD, COUNT and the ring's state, and not the CODE and SLOTS that QSTAT shows
(Table 8-8); the new binding has neither, and both are 0. -/
def opQcfg (d a : Reg) : SlotOp :=
  { SlotOp.plain (fun s => s.modCtx s.iss.ctx (fun x => x.setQueue (qnum d) { Queue.reset with cfg := s.g a })) with
    reads := gref a, phase := 1,
    check := pureCheck (fun s => if s.qcfgBad (qnum d) (s.g a) then some (Stop.of 0x04) else none) }
/-- QCFG at issue (R169). -/
def execQcfg (d a : Reg) (s : State) : Result := (opQcfg d a).exec s

/-- QSTAT's result (Table 8-8). -/
def Queue.statWord (q : Queue) : W64 :=
  let st := match q.stream with | some x => x.next | none => q.slots
  BitVec.ofNat 64 (st % 2 ^ 24 * 2 ^ 40 + q.code % 16 * 2 ^ 36 +
    (if (q.stream.map (fun x => x.suspended)).getD false then 2 ^ 35 else 0) + (if q.stream.isSome then 2 ^ 34 else 0) +
    (if q.dir = 0 then 0 else if q.closed then 2 else 1) * 2 ^ 32 + q.dir * 2 ^ 30 + q.count % 2 ^ 12 * 2 ^ 16 +
    q.head % 2 ^ 12)

/-- The record of a queue as the issuing bundle found it, before any pop of the bundle (R21). -/
def State.ringNow (s : State) (qn : Nat) : Queue := (mapFind s.iss.rings qn).getD (s.cx.queue qn)

/-- QSTAT (R173): the ring as it stood before the bundle's pops. -/
def opQstat (d a : Reg) : SlotOp := scalarOp d [] 40 (fun s => (s.ringNow (qnum a)).statWord)
/-- QSTAT at issue (R173). -/
def execQstat (d a : Reg) (s : State) : Result := (opQstat d a).exec s

/-! Streams (R83 to R88). -/

/-- Slots of a stream in all (R83). -/
def Stream.total (x : Stream) : Nat := x.nRows * x.rowLen / 512
/-- The address of slot j (R83). -/
def Stream.slotVa (x : Stream) (j : Nat) : Nat :=
  addrPlus (BitVec.ofNat 64 x.va) ((512 * j / max x.rowLen 1 : Nat) * x.stride + (512 * j % max x.rowLen 1 : Nat))

/-- Every attached stream: those of resident contexts, and those paused with a saved task and not ended since (R84,
R176). -/
def State.allStreams (s : State) : List Stream :=
  s.ctxs.flatMap (fun p => p.2.queues.filterMap (fun q => q.2.stream)) ++
  s.allTasks.flatMap (fun p => (p.2.streams.map (fun q => q.2)).filter (fun x => decide (x.error = 0)))

/-- Ends the stream of a queue: the ring closes, with a code unless it is 0, ATT falls, and the counter is decremented
(R87). -/
def State.endStream (s : State) (c qn code : Nat) : State :=
  let q := (s.ctx c).queue qn
  match q.stream with
  | none => s
  | some x =>
    (s.modCtx c (fun y => y.setQueue qn { q with
      closed := true, code := (if code = 0 then q.code else code), stream := none, slots := x.next })).streamDone x

/-- Changes the stream of a queue. -/
def State.modStream (s : State) (c qn : Nat) (f : Stream → Stream) : State :=
  s.modCtx c (fun y => let q := y.queue qn; y.setQueue qn { q with stream := q.stream.map f })

/-- Suspends a stream at a translation fault and reports it (R88). -/
def State.suspendStream (s : State) (c qn : Nat) (x : Stream) (va kind acc : Nat) : State :=
  ((s.modStream c qn (fun y => { y with suspended := true, lastTry := s.now })).report 0x03 x.die
    [coreOf c, qn, x.next, va, kind, acc]).after 600000 .streamRetry (.n c qn 0)

/-- Whether a stream may move: its context is resident and is not being saved, which pauses it (R176), and it is neither
suspended nor ended. DESIGN CHOICE: R176 pauses a stream `when a context stops`; one whose context waits in its slot, of a WAIT,
a CNT.WAIT or a BAR.WAIT, goes on, since such a context is not restored, which is when R176 has a stream resume. -/
def State.streamLive (s : State) (c qn : Nat) : Option Stream :=
  match (s.ctx c).phase with
  | .free => none
  | .restoring => none
  | .stopping => none
  | _ => match ((s.ctx c).queue qn).stream with
    | some x => if x.suspended then none else some x
    | none => none

/-- Where the next slot of a stream lies, while it translates. -/
def State.slotKeys (s : State) (x : Stream) : List Nat :=
  match (s.span x.die none (x.slotVa x.next) 512 (if x.outbound then .write else .read)).2 with
  | .ok keys _ => keys
  | .bad _ _ _ => []

/-! The classes of a port (R76): 0 cached fills and write-backs, 1 direct-path requests, 2 Turret requests. -/

/-- Whether a class has a request pending at a port. -/
def State.classDue (s : State) (home : Nat) : Nat → Bool
  | 0 => (s.die home).fills.any (fun f => decide (⟨.lateItemArrival, .n f.1 f.2 0⟩ ∈ s.agenda)) ||
      decide (0 < (s.die home).misses) || (s.die home).slice.any (fun e => decide (1 ≤ e.2.queued))
  | 1 => (s.die home).ports.any (fun r => r.served.isNone)
  | _ => s.agenda.any (fun x => (decide (x.ev = .turretSlotLoad) || decide (x.ev = .turretSlotStore)) &&
      (match x.arg with
        | .n c qn _ => match s.streamLive c qn with
          | some y => decide ((s.slotKeys y).head?.map homeOf = some home)
          | none => false
        | _ => false))

/-- Whether a class is the next that a port grants: every class that comes before it in rotating order has nothing
pending. -/
def State.portTurn (s : State) (home cls : Nat) : Bool :=
  let g := (s.die home).grant
  (([(g + 1) % 3, (g + 2) % 3, g % 3]).takeWhile (fun c => decide (c ≠ cls))).all (fun c => !s.classDue home c)

/-- Notes the class a port grants. -/
def State.granted (s : State) (home cls : Nat) : State := s.modDie home (fun x => { x with grant := cls })

/-- A Turret request waits for its turn at a port, whose other classes are served before it (R76). -/
def State.awaitPort (s : State) (home : Nat) (ev : Instr) (c qn : Nat) : State :=
  (s.dueOnce .portRequestService (.n home 0 0)).dueOnce ev (.n c qn 0)

/-- Whether the accesses that a stream's fork follows are not all performed yet (R349). -/
def State.forkWaits (s : State) (x : Stream) : Bool := s.anyOpen x.behind

/-- TURRET_SLOT_LOAD of context a, queue b (R76, R85, R88, R149, R349): in its port's turn, once the accesses that its fork follows are
performed and no refresh of its row group is in progress, the next slot arrives in one burst, and after the last the loader closes the
ring; the loss of the slot's home die ends the stream. DEDUCED: a ring that was closed when the stream was attached stays closed, since
R174 opens none. -/
def execTurretSlotLoad (s : State) : Result :=
  match s.ev with
  | .n c qn _ =>
    match s.streamLive c qn with
    | none => .next s
    | some x =>
      let q := (s.ctx c).queue qn
      if x.outbound ∨ q.nslot ≤ q.count ∨ x.total ≤ x.next then .next s
      else if s.forkWaits x then .next (s.afterCycles (dieOf c) (s.copyDiv (dieOf c)) 1 .turretSlotLoad (.n c qn 0))
      else
        match s.span x.die none (x.slotVa x.next) 512 .read with
        | (s1, .bad va k _) => .next (s1.suspendStream c qn x va k 0)
        | (s1, .ok keys _) =>
          let home := homeOf (keys.headD 0)
          if keys.any (s1.homeLost x.die) then .next (s1.endStream c qn 5)
          else if (rgsOf (q.pos (q.head + q.count)) 512).any (s.inRefresh (dieOf c)) then
            .next (s.after 6 .turretSlotLoad (.n c qn 0))
          else if !s.portTurn home 2 then .next (s.awaitPort home .turretSlotLoad c qn)
          else if s1.uncorr keys then .next ((s1.granted home 2).endStream c qn 4)
          else
            let s2 := (s1.granted home 2).localWrite (dieOf c) (q.pos (q.head + q.count)) (s1.mbytes keys) true
            let s3 := s2.modCtx c (fun y => y.setQueue qn { q with
              count := q.count + 1, closed := q.closed || decide (x.total = x.next + 1),
              stream := some { x with next := x.next + 1 } })
            .next (if x.total = x.next + 1 then s3.due .streamCompletion (.n c qn 0)
              else s3.dueOnce .turretSlotLoad (.n c qn 0))
  | _ => .next s

/-- TURRET_SLOT_STORE of context a, queue b (R76, R86, R88, R149, R174): in its port's turn, and once no refresh of its row group is
in progress, the head slot is written out and its
space is freed. DESIGN CHOICE: a slot pushed past the stream's last has no address and is never stored (R83, R87 say nothing
of it), so that after SUB.CLOSE a ring that holds one does not drain and its stream does not complete. -/
def execTurretSlotStore (s : State) : Result :=
  match s.ev with
  | .n c qn _ =>
    match s.streamLive c qn with
    | none => .next s
    | some x =>
      let q := (s.ctx c).queue qn
      if x.outbound ∧ q.closed ∧ q.count = 0 then .next (s.dueOnce .streamCompletion (.n c qn 0))
      else if ¬ x.outbound ∨ q.count = 0 ∨ x.total ≤ x.next then .next s
      else if s.forkWaits x then .next (s.afterCycles (dieOf c) (s.copyDiv (dieOf c)) 1 .turretSlotStore (.n c qn 0))
      else
        let a := q.pos q.head
        if (rgsOf a 512).any (s.inRefresh (dieOf c)) then .next (s.after 6 .turretSlotStore (.n c qn 0)) else
        match s.readFault (dieOf c) [a] 512 with
        | some st => .next (s.endStream c qn (if st.code = 0x08 then 6 else 4))
        | none =>
          if s.cutHolds x.die (x.slotVa x.next) 512 then
            .next (s.afterCycles (dieOf c) (s.copyDiv (dieOf c)) 1 .turretSlotStore (.n c qn 0))
          else
          match s.span x.die none (x.slotVa x.next) 512 .write with
          | (s1, .bad va k _) => .next (s1.suspendStream c qn x va k 1)
          | (s1, .ok keys _) =>
            let home := homeOf (keys.headD 0)
            if keys.any (s1.homeLost x.die) then .next (s1.endStream c qn 5)
            else if !s.portTurn home 2 then .next (s.awaitPort home .turretSlotStore c qn)
            else
            let s2 := (((s1.granted home 2).portWrite keys (s1.lbytes (dieOf c) a 512)).1).prompt keys 24
            let s3 := s2.modCtx c (fun y => y.setQueue qn { q with
              head := (q.head + 1) % max q.nslot 1, count := q.count - 1, stream := some { x with next := x.next + 1 } })
            .next (if q.closed ∧ q.count = 1 then s3.due .streamCompletion (.n c qn 0)
              else s3.dueOnce .turretSlotStore (.n c qn 0))
  | _ => .next s

/-- STREAM_RETRY of context a, queue b (R88): a suspended stream tries its slot again. -/
def execStreamRetry (s : State) : Result :=
  match s.ev with
  | .n c qn _ =>
    match ((s.ctx c).queue qn).stream with
    | none => .next s
    | some x =>
      if ¬ x.suspended then .next s
      else
        match s.span x.die none (x.slotVa x.next) 512 (if x.outbound then .write else .read) with
        | (s1, .bad _ _ _) =>
          .next ((s1.modStream c qn (fun y => { y with lastTry := s.now })).after 600000 .streamRetry (.n c qn 0))
        | (s1, .ok _ _) =>
          .next ((s1.modStream c qn (fun y => { y with suspended := false })).dueOnce
            (if x.outbound then .turretSlotStore else .turretSlotLoad) (.n c qn 0))
  | _ => .next s

/-- STREAM_COMPLETION of context a, queue b (R87): an inbound stream whose last slot is in a closed ring, or an outbound one
whose closed ring is drained. -/
def execStreamCompletion (s : State) : Result :=
  match s.ev with
  | .n c qn _ =>
    let q := (s.ctx c).queue qn
    match q.stream with
    | none => .next s
    | some x =>
      if q.closed ∧ (if x.outbound then q.count = 0 else x.next = x.total) then .next (s.endStream c qn 0) else .next s
  | _ => .next s

/-- Whether a stream that has slots left has lost the home of its next one, or the die whose Turret serves it (R88). -/
def State.streamLost (s : State) (x : Stream) : Bool :=
  decide (x.error = 0 ∧ x.next < x.total) && (s.dieLost x.die || (s.slotKeys x).any (s.homeLost x.die))

/-- Ends every stream that a loss meets with HOMELOSS (R87, R88): the ring closes with its code, or will when the saved
context it waits with is restored, and its counter is decremented. -/
def State.endLostStreams (s : State) : State :=
  let s1 := s.ctxs.foldl (fun u p => p.2.queues.foldl (fun w q =>
    match q.2.stream with
    | some x => if w.streamLost x then w.endStream p.1 q.1 5 else w
    | none => w) u) s
  s1.allTasks.foldl (fun u p => p.2.streams.foldl (fun w q =>
    if w.streamLost q.2 then
      (w.streamDone q.2).modTask p.1 p.2.tid (fun t => { t with
        streams := mapPut t.streams q.1 { q.2 with error := 5 } })
    else w) u) s1

/-- Has the streams of a context go on that are not suspended (R176). -/
def State.kickStreams (s : State) (c : Nat) : State :=
  (s.ctx c).queues.foldl (fun u q =>
    match q.2.stream with
    | none => u
    | some x =>
      if x.suspended then u else u.dueOnce (if x.outbound then .turretSlotStore else .turretSlotLoad) (.n c q.1 0)) s

/-! SUB.OPEN and SUB.CLOSE (R174, R175). -/

/-- A stream as its descriptor gives it, or none where it breaks R83. -/
def streamOf (bs : List Byte) (die core now : Nat) : Option Stream :=
  let w0 := wordAt bs 0
  let w1 := wordAt bs 8
  let rowLen := field bs 16 4
  let nRows := field bs 20 4
  let c := field bs 24 4
  if bits w0 63 56 ≠ 0 ∨ bits w0 5 0 ≠ 0 ∨ w1.toNat % 64 ≠ 0 ∨ rowLen = 0 ∨ rowLen % 512 ≠ 0 ∨ nRows = 0 ∨
      c / 2 ^ 12 % 2 ^ 18 ≠ 0 ∨ field bs 28 36 ≠ 0 then none
  else some { va := bits w0 55 0, stride := w1.toInt, rowLen := rowLen, nRows := nRows, outbound := decide (2 ^ 31 ≤ c),
              cen := decide (c / 2 ^ 30 % 2 = 1), cnt := c % 2 ^ 12, die := die, core := core, next := 0,
              suspended := false, lastTry := now, error := 0, behind := [] }

/-- Whether the Turret of a die's stack, or its port, serves no further stream (R84). -/
def State.turretFull (s : State) (d : Nat) : Bool :=
  decide (64 ≤ s.allStreams.countP (fun x => decide (x.die / 2 = d / 2))) ||
  decide (32 ≤ s.allStreams.countP (fun x => decide (x.die = d)))

/-- The effect of SUB.OPEN with the descriptor's bytes (R174); the stream follows the accesses `behind` (R349). -/
def State.subOpen (s : State) (c qn : Nat) (bs : Option (List Byte)) (behind : List Nat) : State :=
  let d := dieOf c
  let q := (s.ctx c).queue qn
  let refuse (code : Nat) : State := s.modCtx c (fun y => y.setQueue qn { q with code := code })
  if q.stream.isSome then refuse 1
  else
    match bs.bind (fun b => streamOf b d (coreOf c) s.now) with
    | none => refuse 2
    | some x =>
      if (x.outbound ∧ q.dir ≠ 3) ∨ (¬ x.outbound ∧ q.dir ≠ 2) then refuse 3
      else if s.turretFull d then refuse 1
      else
        (s.modCtx c (fun y => y.setQueue qn { q with stream := some { x with behind := behind }, code := 0, slots := 0 })).dueOnce
          (if x.outbound then .turretSlotStore else .turretSlotLoad) (.n c qn 0)

/-- SUB.OPEN (R174). DESIGN CHOICE: where M0 of the bundle holds a QCFG of the same queue, the manual leaves open whether R21's rule,
that a bundle's reads come before its writes, or the slot order of R171 decides; the two are performed in slot order, so that
SUB.OPEN, and SUB.CLOSE likewise, finds the new binding. DESIGN CHOICE: where a store in M0 writes the descriptor's bytes, they are
read after it for the same reason. The bundle waits for accesses of earlier bundles to the descriptor's bytes that are not performed
yet. -/
def opSubOpen (d a : Reg) : SlotOp :=
  { SlotOp.plain (fun s =>
      match s.span s.cd (some s.ck) (s.g a).toNat 64 .read with
      | (s1, .ok keys _) =>
        s1.subOpen s1.iss.ctx (qnum d) (if s1.uncorr keys then none else some (s1.mbytes keys)) s1.priorOpen
      | (s1, .bad _ _ _) => s1) with
    reads := gref a, phase := 1, after := fun s => s.earlierOn (s.g a).toNat 64 .read, check := globalCheck .read 64 64 (fun s => s.g a) }
/-- SUB.OPEN at issue (R174). -/
def execSubOpen (d a : Reg) (s : State) : Result := (opSubOpen d a).exec s

/-- SUB.CLOSE on a ring (R175). -/
def State.subClose (s : State) (c qn : Nat) : State :=
  let q := (s.ctx c).queue qn
  let close := s.modCtx c (fun y => y.setQueue qn { q with closed := true })
  if q.dir = 0 then s
  else if q.dir = 2 ∧ q.stream.isSome then
    (if q.closed && q.stream.all (fun x => decide (x.total ≤ x.next)) then s else s.endStream c qn 8)
  else if q.dir = 3 ∧ q.stream.isSome then
    if q.count = 0 then close.due .streamCompletion (.n c qn 0) else close.dueOnce .turretSlotStore (.n c qn 0)
  else close

/-- SUB.CLOSE (R175). -/
def opSubClose (d : Reg) : SlotOp :=
  { SlotOp.plain (fun s => s.subClose s.iss.ctx (qnum d)) with phase := 1 }
/-- SUB.CLOSE at issue (R175). -/
def execSubClose (d : Reg) (s : State) : Result := (opSubClose d).exec s

/-! Pushes (R170, R172). -/

/-- A push of 128 lanes, write `id`, at its landing: full writes at the next position (R170). -/
def State.pushRing (s : State) (c qn id : Nat) (l : Table Elem) : State :=
  let q := (s.ctx c).queue qn
  let bs := lanes.flatMap (fun i => leBytes 4 (mapGet Elem.zero l i).val.toNat)
  let a := q.pos (q.head + q.count)
  let s1 := (s.localWrite (dieOf c) a bs true).foldNow (dieOf c) (s.ctx c).tid id [(a, bs)]
  let s2 := s1.modCtx c (fun y => y.setQueue qn { q with count := q.count + 1 })
  (if q.dir = 3 ∧ q.stream.isSome then s2.dueOnce .turretSlotStore (.n c qn 0) else s2).stirLate

end Sys2Proof.Machine
end

