-- ==== Sys2Proof/Machine/Sync.lean ====
section
/-! DEFINITION. Atomics, futures, fences, barriers and counters (R329 to R331, R337 to R339, R345 to R358), the
invalidations of translations and code lines (R104, R424), and the events that bring late results. -/

namespace Sys2Proof.Machine

/-! The atomics (R345, R347, R354). -/

/-- The ordering sides of an operation's ord field: whether it acquires, and whether it releases (R32, R346). -/
def acquires (ord : BitVec 2) : Bool := ord.getLsbD 0
def releases (ord : BitVec 2) : Bool := ord.getLsbD 1

/-- An atomic (R354): g[d] receives the old value at 40, and ACAS reads it as cmp. It follows the context's own accesses to its line,
and, with a release side, every access of earlier bundles; with an acquire side every later access waits for it; both sides are
dropped where the location is not in scope (R345, R347). -/
def atomicOp (op size : Nat) (d base : Reg) (src : BitVec 5) (ord : BitVec 2) (sc : BitVec 3) : SlotOp :=
  let ea (s : State) : W64 := s.g base
  { SlotOp.plain (fun s =>
      match s.span s.cd (some s.ck) (ea s).toNat size .atomic with
      | (s1, .ok (key :: rest) _) =>
        let seq := s1.seq
        let near := inScope sc.toNat (homeOf key) s1.cd
        let so := s1.isSo (ea s).toNat size .atomic
        let behind := s1.priors (key :: rest) false none true so (near && releases ord)
        let s2 := (s1.scopeCheck sc.toNat (homeOf key)).pendRaw d.toNat 40 (.await false) false
        (s2.noteOrder seq so (near && acquires ord)).sendAtomic s2.iss.ctx
          ⟨seq, .write s2.iss.ctx seq, op, size, key, s1.cx.rg src.toNat, s1.g d, atomicSource (homeOf key) s1.ck,
            s1.copyCycle (homeOf key)⟩ behind
      | (s1, _) => s1) with
    reads := gref base ++ (if src = 0 then [] else [.g src.toNat]) ++ (if op = 10 then gref d else []),
    writes := wr (gref d) 40, phase := 1, hold := fun s => s.cutHolds s.cd (ea s).toNat size,
    check := globalCheck .atomic size size ea }

/-- AADD.w (R354). -/
def opAaddW (d base : Reg) (src : BitVec 5) (ord : BitVec 2) (sc : BitVec 3) : SlotOp :=
  atomicOp 0 4 d base src ord sc
/-- AADD.W at issue (R354). -/
def execAaddW (d base : Reg) (src : BitVec 5) (ord : BitVec 2) (sc : BitVec 3) (s : State) : Result := (opAaddW d base src ord sc).exec s

/-- AADD.d (R354). -/
def opAaddD (d base : Reg) (src : BitVec 5) (ord : BitVec 2) (sc : BitVec 3) : SlotOp :=
  atomicOp 0 8 d base src ord sc
/-- AADD.D at issue (R354). -/
def execAaddD (d base : Reg) (src : BitVec 5) (ord : BitVec 2) (sc : BitVec 3) (s : State) : Result := (opAaddD d base src ord sc).exec s

/-- AFADD.w (R355). -/
def opAfaddW (d base : Reg) (src : BitVec 5) (ord : BitVec 2) (sc : BitVec 3) : SlotOp :=
  atomicOp 1 4 d base src ord sc
/-- AFADD.W at issue (R355). -/
def execAfaddW (d base : Reg) (src : BitVec 5) (ord : BitVec 2) (sc : BitVec 3) (s : State) : Result := (opAfaddW d base src ord sc).exec s

/-- AMIN.w (R354). -/
def opAminW (d base : Reg) (src : BitVec 5) (ord : BitVec 2) (sc : BitVec 3) : SlotOp :=
  atomicOp 2 4 d base src ord sc
/-- AMIN.W at issue (R354). -/
def execAminW (d base : Reg) (src : BitVec 5) (ord : BitVec 2) (sc : BitVec 3) (s : State) : Result := (opAminW d base src ord sc).exec s

/-- AMIN.d (R354). -/
def opAminD (d base : Reg) (src : BitVec 5) (ord : BitVec 2) (sc : BitVec 3) : SlotOp :=
  atomicOp 2 8 d base src ord sc
/-- AMIN.D at issue (R354). -/
def execAminD (d base : Reg) (src : BitVec 5) (ord : BitVec 2) (sc : BitVec 3) (s : State) : Result := (opAminD d base src ord sc).exec s

/-- AMAX.w (R354). -/
def opAmaxW (d base : Reg) (src : BitVec 5) (ord : BitVec 2) (sc : BitVec 3) : SlotOp :=
  atomicOp 3 4 d base src ord sc
/-- AMAX.W at issue (R354). -/
def execAmaxW (d base : Reg) (src : BitVec 5) (ord : BitVec 2) (sc : BitVec 3) (s : State) : Result := (opAmaxW d base src ord sc).exec s

/-- AMAX.d (R354). -/
def opAmaxD (d base : Reg) (src : BitVec 5) (ord : BitVec 2) (sc : BitVec 3) : SlotOp :=
  atomicOp 3 8 d base src ord sc
/-- AMAX.D at issue (R354). -/
def execAmaxD (d base : Reg) (src : BitVec 5) (ord : BitVec 2) (sc : BitVec 3) (s : State) : Result := (opAmaxD d base src ord sc).exec s

/-- AMINU.w (R354). -/
def opAminuW (d base : Reg) (src : BitVec 5) (ord : BitVec 2) (sc : BitVec 3) : SlotOp :=
  atomicOp 4 4 d base src ord sc
/-- AMINU.W at issue (R354). -/
def execAminuW (d base : Reg) (src : BitVec 5) (ord : BitVec 2) (sc : BitVec 3) (s : State) : Result := (opAminuW d base src ord sc).exec s

/-- AMINU.d (R354). -/
def opAminuD (d base : Reg) (src : BitVec 5) (ord : BitVec 2) (sc : BitVec 3) : SlotOp :=
  atomicOp 4 8 d base src ord sc
/-- AMINU.D at issue (R354). -/
def execAminuD (d base : Reg) (src : BitVec 5) (ord : BitVec 2) (sc : BitVec 3) (s : State) : Result := (opAminuD d base src ord sc).exec s

/-- AMAXU.w (R354). -/
def opAmaxuW (d base : Reg) (src : BitVec 5) (ord : BitVec 2) (sc : BitVec 3) : SlotOp :=
  atomicOp 5 4 d base src ord sc
/-- AMAXU.W at issue (R354). -/
def execAmaxuW (d base : Reg) (src : BitVec 5) (ord : BitVec 2) (sc : BitVec 3) (s : State) : Result := (opAmaxuW d base src ord sc).exec s

/-- AMAXU.d (R354). -/
def opAmaxuD (d base : Reg) (src : BitVec 5) (ord : BitVec 2) (sc : BitVec 3) : SlotOp :=
  atomicOp 5 8 d base src ord sc
/-- AMAXU.D at issue (R354). -/
def execAmaxuD (d base : Reg) (src : BitVec 5) (ord : BitVec 2) (sc : BitVec 3) (s : State) : Result := (opAmaxuD d base src ord sc).exec s

/-- AAND.w (R354). -/
def opAandW (d base : Reg) (src : BitVec 5) (ord : BitVec 2) (sc : BitVec 3) : SlotOp :=
  atomicOp 6 4 d base src ord sc
/-- AAND.W at issue (R354). -/
def execAandW (d base : Reg) (src : BitVec 5) (ord : BitVec 2) (sc : BitVec 3) (s : State) : Result := (opAandW d base src ord sc).exec s

/-- AAND.d (R354). -/
def opAandD (d base : Reg) (src : BitVec 5) (ord : BitVec 2) (sc : BitVec 3) : SlotOp :=
  atomicOp 6 8 d base src ord sc
/-- AAND.D at issue (R354). -/
def execAandD (d base : Reg) (src : BitVec 5) (ord : BitVec 2) (sc : BitVec 3) (s : State) : Result := (opAandD d base src ord sc).exec s

/-- AOR.w (R354). -/
def opAorW (d base : Reg) (src : BitVec 5) (ord : BitVec 2) (sc : BitVec 3) : SlotOp :=
  atomicOp 7 4 d base src ord sc
/-- AOR.W at issue (R354). -/
def execAorW (d base : Reg) (src : BitVec 5) (ord : BitVec 2) (sc : BitVec 3) (s : State) : Result := (opAorW d base src ord sc).exec s

/-- AOR.d (R354). -/
def opAorD (d base : Reg) (src : BitVec 5) (ord : BitVec 2) (sc : BitVec 3) : SlotOp :=
  atomicOp 7 8 d base src ord sc
/-- AOR.D at issue (R354). -/
def execAorD (d base : Reg) (src : BitVec 5) (ord : BitVec 2) (sc : BitVec 3) (s : State) : Result := (opAorD d base src ord sc).exec s

/-- AXOR.w (R354). -/
def opAxorW (d base : Reg) (src : BitVec 5) (ord : BitVec 2) (sc : BitVec 3) : SlotOp :=
  atomicOp 8 4 d base src ord sc
/-- AXOR.W at issue (R354). -/
def execAxorW (d base : Reg) (src : BitVec 5) (ord : BitVec 2) (sc : BitVec 3) (s : State) : Result := (opAxorW d base src ord sc).exec s

/-- AXOR.d (R354). -/
def opAxorD (d base : Reg) (src : BitVec 5) (ord : BitVec 2) (sc : BitVec 3) : SlotOp :=
  atomicOp 8 8 d base src ord sc
/-- AXOR.D at issue (R354). -/
def execAxorD (d base : Reg) (src : BitVec 5) (ord : BitVec 2) (sc : BitVec 3) (s : State) : Result := (opAxorD d base src ord sc).exec s

/-- AXCHG.w (R354). -/
def opAxchgW (d base : Reg) (src : BitVec 5) (ord : BitVec 2) (sc : BitVec 3) : SlotOp :=
  atomicOp 9 4 d base src ord sc
/-- AXCHG.W at issue (R354). -/
def execAxchgW (d base : Reg) (src : BitVec 5) (ord : BitVec 2) (sc : BitVec 3) (s : State) : Result := (opAxchgW d base src ord sc).exec s

/-- AXCHG.d (R354). -/
def opAxchgD (d base : Reg) (src : BitVec 5) (ord : BitVec 2) (sc : BitVec 3) : SlotOp :=
  atomicOp 9 8 d base src ord sc
/-- AXCHG.D at issue (R354). -/
def execAxchgD (d base : Reg) (src : BitVec 5) (ord : BitVec 2) (sc : BitVec 3) (s : State) : Result := (opAxchgD d base src ord sc).exec s

/-- ACAS.w (R354). -/
def opAcasW (d base : Reg) (src : BitVec 5) (ord : BitVec 2) (sc : BitVec 3) : SlotOp :=
  atomicOp 10 4 d base src ord sc
/-- ACAS.W at issue (R354). -/
def execAcasW (d base : Reg) (src : BitVec 5) (ord : BitVec 2) (sc : BitVec 3) (s : State) : Result := (opAcasW d base src ord sc).exec s

/-- ACAS.d (R354). -/
def opAcasD (d base : Reg) (src : BitVec 5) (ord : BitVec 2) (sc : BitVec 3) : SlotOp :=
  atomicOp 10 8 d base src ord sc
/-- ACAS.D at issue (R354). -/
def execAcasD (d base : Reg) (src : BitVec 5) (ord : BitVec 2) (sc : BitVec 3) (s : State) : Result := (opAcasD d base src ord sc).exec s

/-! Futures (R337 to R339). -/

/-- Whether a future's state word breaks its layout (R337). -/
def futBad (w : W64) : Bool :=
  decide (bits w 63 28 ≠ 0) || decide (bits w 7 2 ≠ 0) || (bit w 0 && bit w 1)

/-- The state word and the value of a future at some places. -/
def State.futWords (s : State) (keys : List Nat) : W64 × W64 := (wordAt (s.mbytes keys) 0, wordAt (s.mbytes keys) 8)

/-- Whether a future's state word, where it can be read, breaks its layout (R337, R354). -/
def State.futBroken (s : State) (keys : List Nat) : Bool := !s.uncorr keys && futBad (s.futWords keys).1

/-- Where a FUT.RD finds its future: the places, and whether the state word is not FULL, so that D of its page has been set, for the
link, by a walk that may fault (R97, R338). -/
def State.futFind (s : State) (va : Nat) (acc : Acc) : State × Except Stop (List Nat × Bool) :=
  match s.span s.cd (some s.ck) va 16 acc with
  | (s1, .bad a k l) => (s1, .error (Stop.transl acc a k l))
  | (s1, .ok keys _) =>
    if acc = .futRead ∧ !s1.uncorr keys ∧ !bit (s1.futWords keys).1 0 ∧ !s1.futBroken keys then
      match s1.span s1.cd (some s1.ck) va 16 .futLink with
      | (s2, .bad a k l) => (s2, .error (Stop.transl .futLink a k l))
      | (s2, .ok keys2 _) => (s2, .ok (keys2, true))
    else (s1, .ok (keys, false))

/-- The check of a FUT operation: alignment to 16, translation, permission, and the state word's layout (R337, R338). -/
def futCheck (acc : Acc) (ea : State → W64) (s : State) : State × Option Stop :=
  if misaligned (ea s) 16 then (s, some (Stop.of 0x05))
  else
    match s.futFind (ea s).toNat acc with
    | (s1, .error st) => (s1, some st)
    | (s1, .ok (keys, _)) => (s1, if s1.futBroken keys then some (Stop.of 0x0D) else none)

/-- A free continuation record of a die's pool of 16,384 (R337). -/
def State.freeRecord (s : State) (d : Nat) : Option Nat :=
  (List.range 16384).find? (fun i => (mapFind (s.die d).records i).isNone)

/-- A record by die × 2^14 + index. -/
def State.record (s : State) (r : Nat) : Option ContRec := mapFind (s.die (r / 16384)).records (r % 16384)

/-- Frees a record. -/
def State.freeRec (s : State) (r : Nat) : State :=
  s.modDie (r / 16384) (fun x => { x with records := mapDel x.records (r % 16384) })

/-- Whether a saved task still waits for some future: a write it keeps has no value yet. -/
def State.futWaits (s : State) (tid : Nat) : Bool :=
  s.allTasks.any (fun p => decide (p.2.tid = tid) && p.2.late.any (fun w => match w.payload with | .fut _ => true | _ => false))

/-- Makes a saved task whose futures are filled ready on its home die (R338). DEDUCED: an outstanding arrival at CORE, QUAD or DIE
scope ties it to an instance on the die that holds it, and it is ready there (R358). -/
def State.readyHome (s : State) (d tid : Nat) (ph : TaskPhase) : State :=
  match (s.die d).tasks.find? (fun t => decide (t.tid = tid)) with
  | none => s
  | some t =>
    if t.home = d ∨ t.anchor.isSome then s.readyTask d tid ph
    else
      ((s.modDie d (fun x => { x with tasks := x.tasks.filter (fun u => decide (u.tid ≠ tid)) })).modDie t.home (fun x =>
        { x with tasks := x.tasks ++ [t] })).readyTask t.home tid ph

/-- Gives a record's value to the write that waits for it: in its context, or with its saved task, whose restore may be under way, and
which is ready on its home die once it waits for no other (R338). -/
def State.futDeliver (s : State) (r : Nat) (v : W64) : State :=
  match s.record r with
  | none => s
  | some c =>
    let s1 := s.freeRec r
    match s1.allTasks.find? (fun p => decide (p.2.tid = c.tid)) with
    | none => s1
    | some (d, t) =>
      let fill (w : Pend) : Pend := if w.payload = .fut r then { w with payload := .scalar v, arrived := true } else w
      let s2 := s1.modTask d t.tid (fun u => { u with late := u.late.map fill })
      match t.phase with
      | .placed k => s2.modCtx k (fun x => { x with pend := x.pend.map fill })
      | .futureWait i _ => if s2.futWaits t.tid then s2 else s2.readyHome d t.tid (.saved i)
      | _ => s2

/-- Walks a future's list from a record, in list order (R338). -/
def State.futWalk (s : State) (v : W64) : Nat → Option Nat → State
  | _, none => s
  | 0, _ => s
  | n + 1, some r => (s.futDeliver r v).futWalk v n ((s.record r).bind (fun c => c.next))

/-- The record a state word names first. -/
def futHead (d : Nat) (s : State) (w : W64) : Option Nat :=
  if bit w 1 then (s.phys d (bits w 27 22)).map (fun x => x * 16384 + bits w 21 8) else none

/-- Takes a write out of a context's pending writes: that of an operation that gives no value. -/
def State.dropPend (s : State) (c seq : Nat) : State :=
  s.modCtx c (fun x => { x with pend := x.pend.filter (fun w => decide (w.seq ≠ seq)) })

/-- FUT.RD of context c, whose write is `w`, links a record on a future whose state word is `word` (R338): the context stops before its
next bundle, SUSPEND; with no free record its task fails, and the future is as it was. -/
def State.futLink (s : State) (c : Nat) (w : Pend) (word : W64) (keys : List Nat) : State :=
  let d := dieOf c
  match s.freeRecord d with
  | none => (s.dropPend c w.seq).modCtx c (fun x => { x with futStop := some (8 + w.slot, w.pc) })
  | some i =>
    let r := d * 16384 + i
    let rec_ : ContRec :=
      { tid := (s.ctx c).tid, seq := w.seq, next := futHead d s word, image := 0,
        launchId := ((s.taskAt c).map (fun t => t.launchId)).getD 0,
        prio := ((s.taskAt c).map (fun t => t.prio)).getD 0, slot := w.slot, reg := w.reg, rem := 0 }
    let s1 := s.modDie d (fun x => { x with records := mapPut x.records i rec_ })
    let head : W64 := BitVec.ofNat 64 (s.logical d * 2 ^ 22 + i * 2 ^ 8 + 2)
    let s2 := s1.setMbytes (keys.take 8) (leBytes 8 head.toNat)
    s2.modCtx c (fun x => { x with
      pend := x.pend.map (fun p => if p.seq = w.seq then { p with payload := .fut r } else p)
      futStop := x.futStop.or (some (w.slot, w.pc)) })

/-- A FUT operation of context c is performed (R337, R338, R354); `w` is its pending write. An uncorrectable future faults at the
landing. DESIGN CHOICE: so does a layout that breaks between the issue, whose check found it right, and this point; and where a FUT.RD
whose future was FULL at issue finds it empty, the walk that sets D for its link comes now, its fault falls at the landing, and the
operation goes on at the places that this walk gives. Where the context was discarded meanwhile, FUT.FILL and FUT.RESET change the
future all the same. -/
def State.performFut (s : State) (r : AtomicReq) (c : Nat) (w : Option Pend) : State :=
  let keys := (List.range 16).map (fun i => r.key + i)
  let s0 := s.useEntry (homeOf r.key) (placeOf r.key / 64)
  let reply (u : State) (p : Payload) : State := (w.map (fun q => u.arrive c q.seq p)).getD u
  let fault (u : State) (st : Stop) : State := reply u (.fault st (some 0))
  let gone (u : State) : State := (w.map (fun q => u.dropPend c q.seq)).getD u
  if s0.uncorr keys then fault s0 (Stop.of 0x09)
  else
    let (word, v) := s0.futWords keys
    if futBad word then fault s0 (Stop.of 0x0D)
    else
      match r.op with
      | 11 =>
        if bit word 0 then reply s0 (.scalar v)
        else if r.x = 1 then (w.map (fun q => s0.futLink c q word keys)).getD s0
        else if w.isNone then s0
        else
          match s0.span (dieOf c) (some (coreOf c)) r.cmp.toNat 16 .futLink with
          | (s1, .bad a k l) => fault s1 (Stop.transl .futLink a k l)
          | (s1, .ok keys2 _) => s1.askAtomic { r with key := keys2.headD 0, x := 1, cycle := s1.copyCycle (homeOf (keys2.headD 0)) }
      | 12 =>
        let s1 := gone s0
        if bit word 0 then (if w.isSome then s1.setStat c 128 else s1)
        else (s1.setMbytes keys (leBytes 8 1 ++ leBytes 8 r.x.toNat)).futWalk r.x 1048576 (futHead (dieOf c) s1 word)
      | _ =>
        let s1 := gone s0
        if bit word 0 then s1.setMbytes keys (leBytes 16 0) else s1

/-- A FUT operation goes to the engine of its future's home die (R337): FUT.RD acquires, FUT.FILL releases, at PKG scope (R346). What
is pending until it is performed gives FUT.RD its value, and the other two nothing but the fault of R354. -/
def futOp (op : Nat) (reg : Reg) (acc : Acc) (ea : State → W64) (val : State → W64) (reads : List RegRef) (lat : Nat) : SlotOp :=
  { SlotOp.plain (fun s =>
      match s.futFind (ea s).toNat acc with
      | (s1, .ok (key :: rest, link)) =>
        let seq := s1.seq
        let so := s1.isSo (ea s).toNat 16 acc
        let behind := s1.priors (key :: rest) false none true so (decide (op = 12))
        let s2 := s1.pendRaw reg.toNat lat (if op = 11 then .state else .await false) false
        (s2.noteOrder seq so (decide (op = 11))).sendAtomic s2.iss.ctx
          ⟨seq, .write s2.iss.ctx seq, op, 16, key, if op = 11 then (if link then 1 else 0) else val s, ea s,
            atomicSource (homeOf key) s1.ck, s1.copyCycle (homeOf key)⟩ behind
      | (s1, _) => s1) with
    reads := reads, phase := 1, after := fun s => s.earlierOn (ea s).toNat 16 acc,
    hold := fun s => s.cutHolds s.cd (ea s).toNat 16, check := futCheck acc ea }

/-- FUT.RD (R338). -/
def opFutRd (d base : Reg) (off : Imm10) : SlotOp :=
  { futOp 11 d .futRead (fun s => s.ea base off 16) (fun _ => 0) (gref base) 40 with writes := wr (gref d) 40 }
/-- FUT.RD at issue (R338). -/
def execFutRd (d base : Reg) (off : Imm10) (s : State) : Result := (opFutRd d base off).exec s

/-- FUT.FILL (R338). -/
def opFutFill (d base : Reg) (off : Imm10) : SlotOp :=
  futOp 12 0 .futWrite (fun s => s.ea base off 16) (fun s => s.g d) (gref d ++ gref base) 40
/-- FUT.FILL at issue (R338). -/
def execFutFill (d base : Reg) (off : Imm10) (s : State) : Result := (opFutFill d base off).exec s

/-- FUT.RESET (R338). -/
def opFutReset (base : Reg) (off : Imm10) : SlotOp :=
  futOp 13 0 .futWrite (fun s => s.ea base off 16) (fun _ => 0) (gref base) 40
/-- FUT.RESET at issue (R338). -/
def execFutReset (base : Reg) (off : Imm10) (s : State) : Result := (opFutReset base off).exec s

/-! The engine's cycle (R352, R353). -/

/-- Performs a request: an atomic (R354), a FUT operation of a context (R338), or the turn of another access, which is over. -/
def State.performReq (s : State) (r : AtomicReq) : State :=
  if r.op < 11 then s.doAtomic r
  else
    match r.asker with
    | .write c seq => s.performFut r c ((s.ctx c).pend.find? (fun w => decide (w.seq = seq)))
    | _ => s

/-- Performs the first of some requests of a die's engine. -/
def State.performFirst (s : State) (home : Nat) (l : List AtomicReq) : State :=
  match firstRequest l with
  | none => s
  | some r => (s.modDie home (fun x => { x with atomics := x.atomics.erase r })).performReq r

/-- ATOMIC_ENGINE_PERFORM of die a: one cycle of its engine (R352, R353). -/
def execAtomicEnginePerform (s : State) : Result :=
  match s.ev with
  | .n home _ _ =>
    let l := cycleRequests (s.copyCycle home) 4 (admitted (s.die home).atomics)
    let s1 := l.foldl (fun u r => u.performFirst home [r]) s
    .next ((if (s1.die home).atomics.isEmpty then s1 else s1.nextCycle home).stirLate)
  | _ => .next s

/-! FENCE (R348). -/

/-- Whether a request at an engine reads for its context: an atomic or a FUT.RD (R348). -/
def AtomicReq.isRead (r : AtomicReq) : Bool := decide (r.op ≤ 11)

/-- Those of the issuing context's accesses of earlier bundles that are not performed yet and are loads, atomics or FUT.RDs (R348). -/
def State.earlierReads (s : State) : List Nat :=
  let c := s.iss.ctx
  (s.dies.flatMap (fun p =>
    (p.2.ports.filter (fun r => r.served.isNone && r.store.isNone && decide (r.ctx = c))).map (fun r => r.seq) ++
    (p.2.atomics.filter (fun r => r.of c && r.isRead)).map (fun r => r.id)) ++
  (s.lateOps.filter (fun o => decide (o.ctx = c) && (o.act.reads ||
    (match o.act with
      | .atomic r => r.isRead
      | _ => false)))).map (fun o => o.id)).filter (fun n => decide (n < s.iss.base))

/-- FENCE (R348): the first later bundle with a memory access waits for the accesses of earlier bundles that are not performed yet; at
.acq for the loads, atomics and FUT.RDs among them; at LANE scope for nothing. -/
def opFence (ord : BitVec 2) (sc : BitVec 3) : SlotOp :=
  { SlotOp.plain (fun s =>
      if sc = 0 then s
      else
        let l := if releases ord then s.priorOpen else s.earlierReads
        s.modCtx s.iss.ctx (fun x => { x with order := x.order.filter s.accessOpen ++ l })) with phase := 2 }
/-- FENCE at issue (R348). -/
def execFence (ord : BitVec 2) (sc : BitVec 3) (s : State) : Result := (opFence ord sc).exec s

/-! Barriers (R356, R357). -/

/-- The key of a barrier: its partition, scope, instance and number. -/
def barKeyOf (part sc inst n : Nat) : Nat := ((part * 8 + sc) * 4096 + inst) * 16 + n

/-- The key of barrier n of a scope's instance: the partition and the instance within it. -/
def State.barKey (s : State) (sc n : Nat) : Nat :=
  let k := s.ck
  let inst := match sc with
    | 1 => k
    | 2 => k / 4
    | 3 => k / 64
    | _ => 0
  barKeyOf (s.partOf s.cd) sc inst n

/-- The arrival record's index: 16 × (scope − 1) + NUM, the bit of Table 20-13. -/
def arrIdx (sc n : Nat) : Nat := 16 * (sc - 1) + n

/-- Whether a barrier operand is illegal (R356). -/
def barBad (x : W64) : Bool := decide (bits x 15 4 ≠ 0) || decide (bits x 63 32 ≠ 0) || decide (bits x 31 16 = 0)

/-- A barrier. -/
def State.barrier (s : State) (key : Nat) : Barrier := mapGet ⟨0, 0, 0⟩ s.barriers key

/-- Whether an arrival of a context at a barrier has yet to be counted: it follows accesses that are not performed yet. -/
def State.arrivesLate (s : State) (c key : Nat) : Bool :=
  s.lateOps.any (fun o => decide (o.ctx = c) && (match o.act with
    | .arrive k _ _ _ => decide (k = key)
    | _ => false))

/-- Completes a generation: every waiter is released, at a pre-emption point, and its arrival cleared (R331, R357). -/
def State.barRelease (s : State) (key idx : Nat) : State :=
  (s.ctxs.filter (fun p => (match p.2.phase with
    | .waitBarrier k _ => decide (k = key)
    | _ => false) && !s.arrivesLate p.1 key)).foldl
    (fun u p => (u.modCtx p.1 (fun x => { x with arrivals := mapDel x.arrivals idx, wdc := 0 })).wake p.1) s

/-- Counts an arrival at a barrier, whose generation the last one completes (R357). -/
def State.arriveAt (s : State) (key idx count : Nat) : State :=
  let b := s.barrier key
  let need := if b.arrived = 0 then count else b.gcount
  if b.arrived + 1 = need then ({ s with barriers := mapPut s.barriers key ⟨0, 0, b.gen + 1⟩ }).barRelease key idx
  else { s with barriers := mapPut s.barriers key ⟨b.arrived + 1, need, b.gen⟩ }

/-- An arrival of a context takes place: its record names the generation that counts it, and at POD scope the pod is told of it, by the
barrier's number (R12, R357). -/
def State.arriveNow (s : State) (c key idx count : Nat) (pod : Option Nat) : State :=
  let s1 := s.modCtx c (fun y => { y with arrivals := mapPut y.arrivals idx (s.barrier key).gen })
  let s2 := match pod with
    | some n => s1.tellPod (s1.partOf (dieOf c)) (.arrive n count)
    | none => s1
  s2.arriveAt key idx count

/-- BAR.ARR (R357): the arrival is a release, which takes place once every access of earlier bundles is performed. At POD scope it
is also told to the other modules of the pod, whose contexts are members (R12).
DESIGN CHOICE: each module keeps the tally of its partition of the same PTAG, and hears of each arrival once. -/
def opBarArr (base : Reg) (sc : BitVec 3) : SlotOp :=
  { SlotOp.plain (fun s =>
      if sc = 0 then s
      else
        let x := s.g base
        let n := bits x 3 0
        let key := s.barKey sc.toNat n
        let idx := arrIdx sc.toNat n
        let pod := if sc = 5 ∧ bit (s.modCtl 0x1B4) 63 then some n else none
        let behind := s.priorOpen
        if behind.isEmpty then s.arriveNow s.iss.ctx key idx (bits x 31 16) pod
        else
          (s.fresh.modCtx s.iss.ctx (fun y => { y with arrivals := mapPut y.arrivals idx (s.barrier key).gen })).postpone
            s.iss.ctx s.seq behind (.arrive key idx (bits x 31 16) pod)) with
    reads := gref base, phase := 1,
    check := pureCheck (fun s =>
      if sc = 0 then none
      else
        let x := s.g base
        let n := bits x 3 0
        let b := s.barrier (s.barKey sc.toNat n)
        if barBad x || (mapFind s.cx.arrivals (arrIdx sc.toNat n)).isSome ||
            (decide (b.arrived ≠ 0) && decide (b.gcount ≠ bits x 31 16)) then some (Stop.of 0x04)
        else none) }
/-- BAR.ARR at issue (R357). -/
def execBarArr (base : Reg) (sc : BitVec 3) (s : State) : Result := (opBarArr base sc).exec s

/-- BAR.WAIT (R357). -/
def opBarWait (base : Reg) (sc : BitVec 3) : SlotOp :=
  { afterOp [base] (fun s =>
      if sc = 0 then s
      else
        let n := bits (s.g base) 3 0
        let key := s.barKey sc.toNat n
        let i := arrIdx sc.toNat n
        match mapFind s.cx.arrivals i with
        | none => s
        | some gen =>
          if gen < (s.barrier key).gen ∧ !s.arrivesLate s.iss.ctx key then
            s.modCtx s.iss.ctx (fun x => { x with arrivals := mapDel x.arrivals i })
          else s.park (.waitBarrier key gen)) with
    check := pureCheck (fun s =>
      let x := s.g base
      if sc = 0 then none
      else if barBad x || (mapFind s.cx.arrivals (arrIdx sc.toNat (bits x 3 0))).isNone then some (Stop.of 0x04)
      else none) }
/-- BAR.WAIT at issue (R357). -/
def execBarWait (base : Reg) (sc : BitVec 3) (s : State) : Result := (opBarWait base sc).exec s

/-! Counters (R330, R331). -/

/-- Whether a counter operand is illegal (R330). -/
def State.cntBad (s : State) (x : W64) : Bool := decide (bits x 63 18 ≠ 0) || (s.phys s.cd (bits x 17 12)).isNone

/-- The die a counter operand names. -/
def State.cntDie (s : State) (x : W64) : Nat := (s.phys s.cd (bits x 17 12)).getD 0

/-- Those of a context's additions to a counter that follow accesses not performed yet. -/
def State.lateAdds (s : State) (c die n : Nat) : List Nat :=
  (s.lateOps.filter (fun o => decide (o.ctx = c) && (match o.act with
    | .count d m _ => decide (d = die) && decide (m = n)
    | _ => false))).map (fun o => o.id)

/-- CNT.ADD (R331): the value changes now, or, with a release side in scope, once every access of earlier bundles is performed (R347);
a context's additions to one counter take place in its order. -/
def opCntAdd (base : Reg) (src : BitVec 5) (ord : BitVec 2) (sc : BitVec 3) : SlotOp :=
  { SlotOp.plain (fun s =>
      let x := s.g base
      let die := s.cntDie x
      let v : BitVec 32 := (s.cx.rg src.toNat).setWidth 32
      let s1 := s.scopeCheck sc.toNat die
      let behind := (if releases ord && inScope sc.toNat die s.cd then s.priorOpen else []) ++ s.lateAdds s.iss.ctx die (bits x 11 0)
      if src = 0 then s1
      else if behind.isEmpty then s1.addCounter die (bits x 11 0) v
      else s1.fresh.postpone s.iss.ctx s1.seq behind (.count die (bits x 11 0) v)) with
    reads := gref base ++ (if src = 0 then [] else [.g src.toNat]), phase := 1,
    check := pureCheck (fun s => if s.cntBad (s.g base) then some (Stop.of 0x04) else none) }
/-- CNT.ADD at issue (R331). -/
def execCntAdd (base : Reg) (src : BitVec 5) (ord : BitVec 2) (sc : BitVec 3) (s : State) : Result := (opCntAdd base src ord sc).exec s

/-- CNT.WAIT is performed after the other slots of its bundle, and after the context's own additions to its counter (R331). -/
def opCntWait (base : Reg) (_ord : BitVec 2) (sc : BitVec 3) : SlotOp :=
  { afterOp [base] (fun s =>
      let x := s.g base
      let s1 := s.scopeCheck sc.toNat (s.cntDie x)
      if s1.counter (s.cntDie x) (bits x 11 0) ≠ 0 then
        let s2 := s1.park (.waitCounter (s.cntDie x) (bits x 11 0))
        s2.redonate.askAll
      else s1) with
    after := fun s => s.lateAdds s.iss.ctx (s.cntDie (s.g base)) (bits (s.g base) 11 0),
    check := pureCheck (fun s => if s.cntBad (s.g base) then some (Stop.of 0x04) else none) }
/-- CNT.WAIT at issue (R331). -/
def execCntWait (base : Reg) (_ord : BitVec 2) (sc : BitVec 3) (s : State) : Result := (opCntWait base _ord sc).exec s

/-! Invalidations (R104, R424). -/

/-- The cores of a scope of the issuing core. -/
def State.scopeCores (s : State) (sc : Nat) : List Nat :=
  let k := s.ck
  match sc with
  | 1 => [k]
  | 2 => (List.range 4).map (fun i => k / 4 * 4 + i)
  | 3 => (List.range 64).map (fun i => k / 64 * 64 + i)
  | _ => (s.part (s.partOf s.cd)).dies.flatMap (fun d => (List.range 64).map (fun i => d * 64 + i))

/-- A 128-byte line leaves the instruction caches of some cores (R424). -/
def State.dropCode (s : State) (line : Nat) (cores : List Nat) : State :=
  cores.foldl (fun u k =>
    if (u.core k).icache.isEmpty then u else u.modCore k (fun x => { x with icache := mapDel x.icache line })) s

/-- The next bundle, and every later one, waits for some accesses (R104, R424). -/
def State.stallFor (s : State) (l : List Nat) : State :=
  if l.isEmpty then s
  else
    s.modCtx s.iss.ctx (fun x => { x with stall := match x.stall with
      | some (n, m) => some (n, m ++ l)
      | none => some (s.iss.slot, l) })

/-- Those of some accesses that wait for queue pushes of the issuing context: no stall of its core would end the wait. -/
def State.behindPushes (s : State) (l : List Nat) : List Nat := l.filter (fun n => s.pushBound [n])

/-- ICINV (R424): the 128-byte line leaves the instruction caches of the scope once every access of earlier bundles is performed, and
the core stalls until it has. DESIGN CHOICE: a queue push lands in an issue cycle, which a stalled core does not have, so that the
bundle itself waits, with empty cycles, for earlier pushes and what waits for them. -/
def opIcinv (base : Reg) (sc : BitVec 3) : SlotOp :=
  { SlotOp.plain (fun s =>
      let line := (s.g base).toNat / 128
      let behind := s.priorOpen
      if behind.isEmpty then s.dropCode line (s.scopeCores sc.toNat)
      else (s.fresh.postpone s.iss.ctx s.seq behind (.codeLine line (s.scopeCores sc.toNat))).stallFor [s.seq]) with
    reads := gref base, phase := 2, after := fun s => s.behindPushes s.priorOpen,
    check := pureCheck (fun s =>
      if sc = 0 ∨ 5 ≤ sc.toNat ∨ bits (s.g base) 63 56 ≠ 0 then some (Stop.of 0x04) else none) }
/-- ICINV at issue (R424). -/
def execIcinv (base : Reg) (sc : BitVec 3) (s : State) : Result := (opIcinv base sc).exec s

/-- Removes from a TLB the entries that a TLBINV names (R104). -/
def tlbDrop (mode va : Nat) (t : List TlbEntry) : List TlbEntry :=
  if mode = 1 then [] else t.filter (fun e => decide (e.va / 2 ^ e.lg ≠ va / 2 ^ e.lg))

/-- The effect of TLBINV on the TLBs of a scope, after which suspended streams it reaches try again (R88, R104). -/
def State.tlbInvalidate (s : State) (sc mode va : Nat) : State :=
  let d := s.cd
  let dies := if sc = 4 then (s.part (s.partOf d)).dies else [d]
  let cores := if sc = 1 then [s.ck] else s.scopeCores sc
  let s1 := dies.foldl (fun u x => u.modDie x (fun y => { y with tlb := tlbDrop mode va y.tlb })) s
  let s2 := cores.foldl (fun u k =>
    if (u.core k).tlb.isEmpty then u else u.modCore k (fun y => { y with tlb := tlbDrop mode va y.tlb })) s1
  s2.ctxs.foldl (fun u p => p.2.queues.foldl (fun w q =>
    match q.2.stream with
    | some x => if x.suspended ∧ x.die ∈ dies then w.dueOnce .streamRetry (.n p.1 q.1 0) else w
    | none => w) u) s2

/-- The accesses, not performed yet, that a TLB of a TLBINV's scope may have translated: those of the contexts of its cores, of the
whole die at CORE scope, whose shared TLB serves them all (R104). -/
def State.scopeOpen (s : State) (sc : Nat) : List Nat :=
  let ks := s.scopeCores (if sc = 1 then 3 else sc)
  let mine (c : Nat) : Bool := decide (coreOf c ∈ ks)
  s.dies.flatMap (fun p => (p.2.ports.filter (fun r => r.served.isNone && mine r.ctx)).map (fun r => r.seq) ++
    (p.2.atomics.filter (fun r => match r.asker with
      | .write c _ => mine c
      | _ => false)).map (fun r => r.id)) ++
  (s.lateOps.filter (fun o => mine o.ctx)).map (fun o => o.id)

/-- TLBINV (R104): the entries go, and the core stalls until every access that they may have translated is performed. DESIGN CHOICE:
the bundle itself waits, with empty cycles, for the context's own accesses that wait for its queue pushes, as at ICINV. -/
def opTlbinv (a b : Reg) : SlotOp :=
  { SlotOp.plain (fun s =>
      let y := s.g b
      (s.tlbInvalidate (bits y 6 4) (bits y 3 0) (s.g a).toNat).stallFor (s.scopeOpen (bits y 6 4))) with
    reads := gref a ++ gref b, phase := 2,
    after := fun s => s.behindPushes ((s.lateOps.filter (fun o => decide (o.ctx = s.iss.ctx))).map (fun o => o.id)),
    before := fun s => if s.cx.priv then none else some (Stop.of 0x03),
    check := pureCheck (fun s =>
      let y := s.g b
      if decide (1 < bits y 3 0) || !(decide (bits y 6 4 ∈ [1, 3, 4])) || decide (bits y 63 7 ≠ 0) ||
          (decide (bits y 3 0 = 0) && decide (bits (s.g a) 63 56 ≠ 0)) then some (Stop.of 0x04) else none) }
/-- TLBINV at issue (R104). -/
def execTlbinv (a b : Reg) (s : State) : Result := (opTlbinv a b).exec s

/-! Events that bring late results (R75, R77, R95, R182). -/

/-- Marks a result that has its value as arrived (R182). -/
def State.itemArrives (s : State) (c seq : Nat) : State :=
  s.modCtx c (fun x => { x with pend := x.pend.map (fun w =>
    match w.payload with
    | .await _ => w
    | .state => w
    | .fut _ => w
    | .cpyw _ _ => w
    | _ => if w.seq = seq then { w with arrived := true } else w) })

/-- The port at which the fill of a cached load waits (R76). -/
def State.fillHome (s : State) (c seq : Nat) : Option Nat :=
  (s.dies.find? (fun p => decide ((c, seq) ∈ p.2.fills))).map (fun p => p.1)

/-- Whether a line whose write-back goes ahead of the cached class waits at a port (R76, R150). -/
def State.urgentLine (s : State) (home : Nat) : Bool := (s.die home).slice.any (fun e => decide (2 ≤ e.2.queued))

/-- Performs an operation whose earlier accesses have been performed. -/
def State.performLate (s : State) (o : LateOp) : State :=
  match o.act with
  | .load keys size signed vec => s.loadNow o.ctx o.id keys size signed vec
  | .store keys bs => s.storeNow keys bs
  | .direct r => s.atPort r
  | .atomic r => s.askAtomic { r with cycle := s.copyCycle (homeOf r.key) }
  | .count die n v => s.addCounter die n v
  | .arrive key idx count pod => s.arriveNow o.ctx key idx count pod
  | .spawn desc gate => s.spawnNow o.ctx o.id desc gate
  | .codeLine line cores => s.dropCode line cores
  | .event x => s.due x.ev x.arg

/-- Performs the operations that wait for no access any more, the first issued first. -/
def State.settleLate : Nat → State → State
  | 0, s => s
  | n + 1, s =>
    match s.lateOps.find? (fun o => !s.anyOpen o.behind) with
    | none => s
    | some o => settleLate n (({ s with lateOps := s.lateOps.filter (fun q => decide (q.id ≠ o.id)) }).performLate o)

/-- LATE_ITEM_ARRIVAL of context a, write b: the item has arrived (R182), a cached fill once its port grants it (R76), after
every write-back that goes ahead of its class (R150). With c = 1 it is the turn of the operations that follow others (R347). -/
def execLateItemArrival (s : State) : Result :=
  match s.ev with
  | .n _ _ 1 => .next (State.settleLate s.lateOps.length s)
  | .n c seq _ =>
    match s.fillHome c seq with
    | none => .next (s.itemArrives c seq)
    | some h =>
      if s.urgentLine h ∨ !s.portTurn h 0 then
        .next ((s.due .lateItemArrival (.n c seq 0)).dueOnce .portRequestService (.n h 0 0))
      else
        .next (((s.granted h 0).modDie h (fun x => { x with fills := x.fills.filter (fun f => decide (f ≠ (c, seq))) })).itemArrives
          c seq)
  | _ => .next s

/-- The line whose write-back a port makes next: one within 16 ticks of its limit, or, with no fill pending, another that
waits (R76, R150). -/
def State.writeBackNext (s : State) (home : Nat) : Option Nat :=
  let q (n : Nat) : Option Nat := ((s.die home).slice.find? (fun e => decide (n ≤ e.2.queued))).map (fun e => e.1)
  match q 2 with
  | some l => some l
  | none =>
    if decide (0 < (s.die home).misses) ||
      (s.die home).fills.any (fun f => decide (⟨.lateItemArrival, .n f.1 f.2 0⟩ ∈ s.agenda)) then none else q 1

/-- Writes a line back: it is clean and stays (R150). -/
def State.writeBack (s : State) (home l : Nat) : State :=
  s.modDie home (fun x =>
    match mapFind x.slice l with
    | some y => { x with slice := mapPut x.slice l { y with dirty := false, queued := 0 } }
    | none => x)

/-- Serves the oldest direct-path request of a port that is not served, and its answer is due (R75, R77, R79). -/
def State.serveOldest (s : State) (home : Nat) : State :=
  match (s.die home).ports.find? (fun r => r.served.isNone) with
  | none => s
  | some r =>
    let (s1, r1) := s.serveReq r
    let s2 := s1.modDie home (fun x => { x with ports := x.ports.map (fun q =>
      if q.core = r.core ∧ q.tag = r.tag then r1 else q) })
    s2.stirLate.due (if r.store.isSome then .directStoreAck else .directReplyArrival) (.n r.core r.tag 0)

/-- Whether a port has a request that its own event grants: a direct-path one, a fill that no load waits for, or a
write-back. -/
def State.portWork (s : State) (home : Nat) : Bool :=
  (s.die home).ports.any (fun q => q.served.isNone) || decide (0 < (s.die home).misses) ||
    (s.die home).slice.any (fun e => decide (1 ≤ e.2.queued))

/-- PORT_REQUEST_SERVICE of port a (R75 to R77, R79, R150): the class whose turn it is has a request granted; while that is the
turn of a load's fill or of a Turret request, the port waits for it. -/
def execPortRequestService (s : State) : Result :=
  match s.ev with
  | .n home _ _ =>
    let again (t : State) : State := if t.portWork home then t.dueOnce .portRequestService (.n home 0 0) else t
    let direct := (s.die home).ports.any (fun q => q.served.isNone)
    match s.writeBackNext home with
    | some l =>
      if (s.die home).grant = 0 ∧ direct ∧ s.portTurn home 1 then .next (again ((s.serveOldest home).granted home 1))
      else if s.portTurn home 0 then .next (again ((s.writeBack home l).granted home 0))
      else .next (again s)
    | none =>
      if direct ∧ s.portTurn home 1 then .next (again ((s.serveOldest home).granted home 1))
      else if 0 < (s.die home).misses ∧ s.portTurn home 0 then
        .next (again ((s.modDie home (fun x => { x with misses := x.misses - 1 })).granted home 0))
      else .next (again s)
  | _ => .next s

/-- The served request of a core's tag. -/
def State.answered (s : State) (core tag : Nat) (store : Bool) : Option DirectReq :=
  (s.dies.flatMap (fun p => p.2.ports)).find? (fun r =>
    decide (r.core = core) && decide (r.tag = tag) && r.served.isSome && decide (r.store.isSome = store))

/-- DIRECT_REPLY_ARRIVAL of core a, tag b (R77). -/
def execDirectReplyArrival (s : State) : Result :=
  match s.ev with
  | .n core tag _ => .next (match s.answered core tag false with | some r => s.replyArrives r | none => s)
  | _ => .next s

/-- DIRECT_STORE_ACK of core a, tag b (R77). -/
def execDirectStoreAck (s : State) : Result :=
  match s.ev with
  | .n core tag _ => .next (match s.answered core tag true with | some r => s.replyArrives r | none => s)
  | _ => .next s

/-- PAGE_WALK of core a, for address x and access b: 0 read, 1 write, 2 fetch, 3 atomic (R95, R97, R99). -/
def execPageWalk (s : State) : Result :=
  match s.ev with
  | .word k a x =>
    let acc : Acc := match a with | 0 => .read | 1 => .write | 2 => .fetch | _ => .atomic
    if x.toNat / 2 ^ 56 ≠ 0 then .next s
    else .next (s.walk (dieOfCore k) (some k) x.toNat acc).1
  | _ => .next s

end Sys2Proof.Machine
end

