-- ==== Sys2Proof/Machine/Image.lean ====
section
/-! DEFINITION. The context image (R388): the register area and its landing-queue entries (R186, R187), the sequencer
record (R288, R289), queue records, the row table, and the tile area (R286); and local memory as an audit's replay sees it (R404). -/

namespace Sys2Proof.Machine

/-! Bytes of an image. -/

/-- The number whose bit i is `f i`, for i below `n`. -/
def natBits (n : Nat) (f : Nat → Bool) : Nat := (List.range n).foldl (fun x i => if f i then x + 2 ^ i else x) 0

/-- Writes a long run of bytes in pieces of 512: false at a translation fault. -/
def State.writeLong (s : State) (d : Nat) : Nat → Nat → List Byte → State × Bool
  | 0, _, _ => (s, true)
  | n + 1, va, bs =>
    if bs.isEmpty then (s, true)
    else
      match s.writeVa d va (bs.take 512) with
      | (s1, true) => s1.writeLong d n (va + 512) (bs.drop 512)
      | (s1, false) => (s1, false)

/-- Writes bytes at a VA, a long run in pieces. -/
def State.writeRun (s : State) (d va : Nat) (bs : List Byte) : State × Bool := s.writeLong d (bs.length / 512 + 1) va bs

/-- Writes some runs of bytes in order, up to the first that fails. -/
def State.writeRuns (s : State) (d va : Nat) : List (Nat × List Byte) → State × Bool
  | [] => (s, true)
  | (off, bs) :: t =>
    match s.writeRun d (va + off) bs with
    | (s1, true) => s1.writeRuns d va t
    | (s1, false) => (s1, false)

/-- Reads a long run of bytes in pieces of 512: none at a fault or uncorrectable data. -/
def State.readLong (s : State) (d : Nat) : Nat → Nat → Nat → State × Option (List Byte)
  | 0, _, _ => (s, some [])
  | fuel + 1, va, n =>
    if n = 0 then (s, some [])
    else
      match s.readVa d va (min n 512) with
      | (s1, none) => (s1, none)
      | (s1, some bs) =>
        match s1.readLong d fuel (va + 512) (n - 512) with
        | (s2, some more) => (s2, some (bs ++ more))
        | (s2, none) => (s2, none)

/-- Reads a run of bytes at a VA. -/
def State.readRun (s : State) (d va n : Nat) : State × Option (List Byte) := s.readLong d (n / 512 + 1) va n

/-! The register area (Table 9-2 to Table 9-4). -/

/-- The 32-byte image of a predicate register. -/
def predImage (f : Nat → PBit) : List Byte :=
  leBytes 16 (natBits 128 (fun i => (f i).value)) ++ leBytes 16 (natBits 128 (fun i => (f i).doubt))

/-- The lanes a predicate image holds. -/
def predLanes (bs : List Byte) : Table PBit :=
  lanes.map (fun i => (i, ⟨(field bs 0 16).testBit i, (field bs 16 16).testBit i⟩))

/-- The header of a landing-queue entry of a kind (Table 9-3). -/
def entryHead (w : Pend) (kind rem : Nat) : List Byte := leBytes 8 (w.slot * 2 ^ 21 + w.reg * 2 ^ 15 + kind * 2 ^ 8 + rem)

/-- A landing-queue entry (Table 9-4); a packet reference holds the engine's number and its die with the packet's. -/
def entryBytes (w : Pend) (rem : Nat) : List Byte :=
  match w.payload with
  | .scalar x => entryHead w 0 rem ++ leBytes 8 x.toNat
  | .lanes l => entryHead w 1 rem ++ zeros 8 ++ leBytes 16 (natBits 128 (fun i => (mapFind l i).isSome)) ++
      spillImage (fun i => mapGet Elem.zero l i)
  | .pred l => entryHead w 2 rem ++ zeros 8 ++ predImage (fun i => mapGet PBit.zero l i)
  | .fmt x => entryHead w 3 rem ++ leBytes 8 x.toNat
  | .cpyw e r => entryHead w 4 rem ++ leBytes 8 (e % 4 * 2 ^ 62 + (r * 64 + e / 4) % 2 ^ 62)
  | _ => []

/-- Whether an entry of the landing queue can hold a pending write. -/
def Pend.imageable (w : Pend) : Bool :=
  match w.payload with
  | .scalar _ => decide (w.reg ≠ 0)
  | .lanes _ => true
  | .pred _ => true
  | .fmt _ => true
  | .cpyw _ _ => true
  | _ => false

/-- Puts a pending write into landing order, after those of its cycle (R181). -/
def pendInsert (w : Pend) : List Pend → List Pend
  | [] => [w]
  | x :: t => if w.land < x.land then w :: x :: t else x :: pendInsert w t

/-- Pending writes in landing order. -/
def pendSort (l : List Pend) : List Pend := l.foldl (fun m w => pendInsert w m) []

/-- The register area of a context stopped at issue cycle `cyc` (Table 9-2). -/
def regArea (x : Ctx) (chk : W64) (entries : List Pend) (cyc : Nat) : List Byte :=
  (List.range 64).flatMap (fun n => leBytes 8 (x.rg n).toNat) ++
  (List.range 16).flatMap (fun n => predImage (x.rk n)) ++
  (List.range 56).flatMap (fun n => spillImage (x.rv n)) ++
  leBytes 8 x.fmt.toNat ++ leBytes 8 chk.toNat ++ leBytes 8 entries.length ++ zeros 8 ++
  entries.flatMap (fun w => entryBytes w (w.land - cyc))

/-- CHKCTL as an image may hold it: reserved bits zero and MODE not 3 (Table 9-6). -/
def chkOk (x : W64) : Bool :=
  decide (bits x 63 32 = 0) && decide (bits x 23 17 = 0) && decide (bits x 15 2 = 0) && decide (bits x 1 0 ≠ 3)

/-- A landing-queue entry from its header and what follows it; none where R187 rejects it. -/
def parseEntry (h : W64) (rest : List Byte) : Option Pend :=
  let kind := bits h 11 8
  let reg := bits h 20 15
  let w (p : Payload) : Option Pend := some ⟨bits h 7 0, 0, bits h 23 21, reg, 0, p, true⟩
  if bits h 63 24 ≠ 0 ∨ bits h 14 12 ≠ 0 ∨ ¬ inRange (bits h 7 0) 1 40 then none
  else
    match kind with
    | 0 => if reg = 0 then none else w (.scalar (wordAt rest 0))
    | 1 =>
      let mask := field rest 8 16
      let es := spillElems (rest.drop 24)
      if field rest 0 8 ≠ 0 then none else w (.lanes (es.filter (fun p => mask.testBit p.1)))
    | 2 => if 16 ≤ reg ∨ field rest 0 8 ≠ 0 then none else w (.pred (predLanes (rest.drop 8)))
    | 3 => if reg ≠ 0 ∨ ¬ fmtOk (wordAt rest 0) then none else w (.fmt (wordAt rest 0))
    | 4 =>
      let x := (wordAt rest 0).toNat
      some ⟨bits h 7 0, 0, bits h 23 21, reg, 0, .cpyw (x % 64 * 4 + x / 2 ^ 62) (x % 2 ^ 62 / 64), false⟩
    | _ => none

/-- The bytes that follow the header of an entry of a kind (Table 9-4). -/
def entryRest (kind : Nat) : Nat := if kind = 1 then 552 else if kind = 2 then 40 else 8

/-- Reads `n` landing-queue entries from a VA, none where one is rejected (R187). -/
def State.readEntries (s : State) (d : Nat) : Nat → Nat → State × Option (List Pend)
  | 0, _ => (s, some [])
  | n + 1, va =>
    match s.readVa d va 8 with
    | (s1, none) => (s1, none)
    | (s1, some hb) =>
      let h := wordAt hb 0
      match s1.readRun d (va + 8) (entryRest (bits h 11 8)) with
      | (s2, none) => (s2, none)
      | (s2, some rest) =>
        match parseEntry h rest with
        | none => (s2, none)
        | some w =>
          match s2.readEntries d n (va + 8 + entryRest (bits h 11 8)) with
          | (s3, some ws) => (s3, some (w :: ws))
          | (s3, none) => (s3, none)

/-- Whether pending writes stand in landing order. -/
def inLandingOrder : List Pend → Bool
  | x :: y :: t => decide (x.land ≤ y.land) && inLandingOrder (y :: t)
  | _ => true

/-- The registers, predicates and FMT a register area holds; g0 is ignored. -/
def regsOf (bs : List Byte) (x : Ctx) : Ctx :=
  let g : Table W64 := (List.range 64).foldl (fun t n => if n = 0 then t else mapSet 0 t n (wordAt bs (8 * n))) []
  let k : Table PBit := (List.range 16).foldl (fun t n =>
    (predLanes (bs.drop (512 + 32 * n))).foldl (fun u p => mapSet PBit.zero u (n * 128 + p.1) p.2) t) []
  let v : Table Elem := (List.range 56).foldl (fun t n =>
    (spillElems (bs.drop (1024 + 528 * n))).foldl (fun u p => mapSet Elem.zero u (n * 128 + p.1) p.2) t) []
  { x with g := g, k := k, v := v, fmt := wordAt bs 0x7780 }

/-! The sequencer record (Table 15-1, Table 15-2). -/

/-- A loop entry's 24 bytes. -/
def loopBytes (e : LoopEntry) : List Byte :=
  leBytes 8 (e.last % 2 ^ 12 * 2 ^ 51 + e.start / 32 % 2 ^ 51) ++ leBytes 8 e.count ++ leBytes 8 e.index

/-- The sequencer record; the loop stack holds its top entry first, and the record its outermost. -/
def seqRecord (pc cycles wdc clkreq : Nat) (loops : List LoopEntry) : List Byte :=
  leBytes 8 pc ++ leBytes 8 cycles ++ leBytes 8 (clkreq * 2 ^ 32 + wdc * 2 ^ 16 + loops.length) ++ zeros 8 ++
  loops.reverse.flatMap loopBytes ++ zeros (24 * (6 - loops.length))

/-- A loop entry from its 24 bytes; none where R289 rejects it. -/
def parseLoop (bs : List Byte) : Option LoopEntry :=
  let w0 := wordAt bs 0
  let e : LoopEntry := ⟨bits w0 62 51, bits w0 50 0 * 32, field bs 8 8, field bs 16 8⟩
  if bit w0 63 ∨ e.last = 0 ∨ e.count = 0 ∨ e.count ≤ e.index then none else some e

/-- Whether each loop entry ends no later than the one that holds it, outermost first (R289). -/
def nested : List LoopEntry → Bool
  | x :: y :: t => !x.beyond y.start y.last && nested (y :: t)
  | _ => true

/-- A sequencer record as a restore takes it; none where R289 rejects it. -/
def parseSeq (bs : List Byte) : Option Snap :=
  let pc := field bs 0 8
  let w := wordAt bs 16
  let depth := bits w 2 0
  let entry (j : Nat) : List Byte := (bs.drop (32 + 24 * j)).take 24
  let loops := (List.range depth).map (fun j => parseLoop (entry j))
  if pc % 32 ≠ 0 ∨ 2 ^ 56 ≤ pc ∨ bits w 63 48 ≠ 0 ∨ bits w 31 29 ≠ 0 ∨ bits w 15 3 ≠ 0 ∨ field bs 24 8 ≠ 0 ∨
      6 < depth ∨ 4096 < bits w 28 16 ∨ ¬ clkdivOk (BitVec.ofNat 64 (bits w 47 32)) ∨
      loops.any Option.isNone ∨ ¬ nested (loops.filterMap id) ∨
      ((List.range 6).drop depth).any (fun j => (entry j).any (fun b => decide (b ≠ 0))) then none
  else some ⟨pc, field bs 8 8, bits w 28 16, bits w 47 32, (loops.filterMap id).reverse, [], 0⟩

/-! Queue records (Table 20-13). -/

/-- A queue record; the stream reference carries the slots its last stream has moved. -/
def queueBytes (q : Queue) : List Byte :=
  leBytes 8 q.cfg.toNat ++
  leBytes 8 (q.code % 16 * 2 ^ 36 + (if q.stream.isSome then 2 ^ 34 else 0) +
    (if q.dir = 0 then 0 else if q.closed then 2 else 1) * 2 ^ 32 + q.count % 2 ^ 12 * 2 ^ 16 + q.head % 2 ^ 12) ++
  leBytes 8 q.slots ++ zeros 8

/-- A queue as its record gives it, with the base moved by `new − old` (R176); a stream that has ended while it was paused
is not attached, and leaves its code and its slots (R87, R174). -/
def parseQueue (bs : List Byte) (new old : Nat) (saved : Option Stream) : Queue :=
  let cfg := wordAt bs 0
  let w := wordAt bs 8
  let att := if bit w 34 then saved else none
  let ended := att.filter (fun x => decide (x.error ≠ 0))
  let cfg' := if bits cfg 55 54 = 0 then cfg else setBits cfg 31 0 (bits cfg 31 0 + 2 ^ 32 + new - old)
  { cfg := cfg', head := bits w 11 0, count := bits w 27 16, closed := decide (bits w 33 32 = 2) || ended.isSome,
    code := (ended.map (fun x => x.error)).getD (bits w 39 36), stream := if ended.isSome then none else att,
    slots := (ended.map (fun x => x.next)).getD (field bs 16 8) }

/-! The row table (Table 20-13). -/

/-- The row-table entry of a row group. -/
def rowEntry (r : RowGroup) : Nat :=
  (if r.valid then 2 ^ 15 + (if r.poison then 2 ^ 14 else 0) + r.age % 2 ^ 10 else 0) + r.cls % 8 * 2 ^ 10

/-- Whether a restore rejects a row-table entry (R389). -/
def rowEntryBad (w : Nat) : Bool := decide (w / 2 ^ 13 % 2 = 1) || (decide (w / 2 ^ 14 % 2 = 1) && decide (w / 2 ^ 15 % 2 = 0))

/-- The row group a row-table entry gives (R152). -/
def rowOf (w : Nat) : RowGroup :=
  ⟨decide (w / 2 ^ 15 % 2 = 1), w % 2 ^ 10, w / 2 ^ 10 % 8, false, decide (w / 2 ^ 14 % 2 = 1)⟩

/-! The tile area (R286). -/

/-- A tile record. -/
def tileBytes (n : Nat) (t : Tile) : List Byte :=
  let cnt := t.rows * t.cols
  leBytes 8 (n * 2 ^ 16 + (tshapeWord (some { t with dirty := false })).toNat) ++
  (List.range cnt).flatMap (fun j => leBytes 4 (mapGet Elem.zero t.elems j).val.toNat) ++
  leBytes (8 * ((cnt + 63) / 64)) (natBits cnt (fun j => (mapGet Elem.zero t.elems j).s))

/-- A held-operation record. -/
def opBytes (o : MatOp) : List Byte :=
  leBytes 8 (o.opcode + o.tile * 2 ^ 8 + o.kb * 2 ^ 16 + o.imm * 2 ^ 32) ++ leBytes 8 o.fmt.toNat ++
  leBytes 8 o.a.toNat ++ leBytes 8 o.b.toNat

/-- The count word of a tile area. -/
def areaHead (tiles : Table Tile) (ops : List MatOp) : List Byte := leBytes 8 (ops.length * 2 ^ 4 + tiles.length)

/-- The tile area for some tiles and held operations. -/
def tileArea (tiles : Table Tile) (ops : List MatOp) : List Byte :=
  areaHead tiles ops ++ tiles.flatMap (fun p => tileBytes p.1 p.2) ++ ops.flatMap opBytes

/-- The rows and columns of a tile record's first word; none where it is rejected. -/
def tileHead (w : W64) : Option (Nat × Nat × Nat) :=
  if bits w 63 19 ≠ 0 ∨ ¬ bit w 15 ∨ bits w 14 12 ≠ 0 ∨ bit w 5 then none
  else some (bits w 18 16, bits w 4 0 + 1, bits w 11 6 + 1)

/-- Whether an operation's FMT image or operands hold a reserved bit (Table 14-2, Table 14-4, Table 14-5). -/
def opReserved (opcode : Nat) (fmt a b : W64) : Bool :=
  decide (bits fmt 63 24 ≠ 0) || decide (bits fmt 17 16 ≠ 0) ||
  (if opcode = 0x42 ∨ opcode = 0x43 then decide (bits a 63 48 ≠ 0) || decide (bits b 63 48 ≠ 0)
   else if opcode = 0x44 then decide (bits a 63 56 ≠ 0) || bit a 39 else false)

/-- A held operation from its record; none where it is rejected by itself (R286). -/
def parseOp (bs : List Byte) (id : Nat) : Option MatOp :=
  let w := wordAt bs 0
  let imm := bits w 47 32
  if bits w 63 48 ≠ 0 ∨ bits w 31 26 ≠ 0 ∨ bits w 15 11 ≠ 0 ∨ ¬ inRange (bits w 7 0) 0x40 0x44 ∨
      (if bits w 7 0 = 0x40 then !mshapeOk ⟨BitVec.ofNat 16 imm, none⟩ else decide (imm ≠ 0)) ∨
      opReserved (bits w 7 0) (wordAt bs 8) (wordAt bs 16) (wordAt bs 24) then none
  else some ⟨id, bits w 7 0, bits w 10 8, wordAt bs 8, wordAt bs 16, wordAt bs 24, imm, bits w 25 16, false, []⟩

/-- Reads `n` tile records: the tiles and the VA after them. -/
def State.readTileRecs (s : State) (d : Nat) : Nat → Nat → Table Tile → State × Option (Table Tile × Nat)
  | 0, va, acc => (s, some (acc, va))
  | n + 1, va, acc =>
    match s.readVa d va 8 with
    | (s1, none) => (s1, none)
    | (s1, some hb) =>
      match tileHead (wordAt hb 0) with
      | none => (s1, none)
      | some (num, r, c) =>
        let cnt := r * c
        let len := 4 * cnt + 8 * ((cnt + 63) / 64)
        match s1.readRun d (va + 8) len with
        | (s2, none) => (s2, none)
        | (s2, some bs) =>
          if (mapFind acc num).isSome then (s2, none)
          else
            let sb := leNat (bs.drop (4 * cnt))
            let es : Table Elem := (List.range cnt).foldl (fun t j =>
              mapSet Elem.zero t j ⟨BitVec.ofNat 32 (field bs (4 * j) 4), sb.testBit j⟩) []
            s2.readTileRecs d n (va + 8 + len) (mapPut acc num ⟨r, c, false, es⟩)

/-- Whether each operation of a tile area names a tile that a tile record or an earlier MSHAPE record configures (R286). -/
def opsConfigured : List Nat → List MatOp → Bool
  | _, [] => true
  | cfg, o :: t =>
    if o.opcode = 0x40 then
      opsConfigured (if o.imm / 2 ^ 15 % 2 = 1 then cfg else o.tile :: cfg) t
    else decide (o.tile ∈ cfg) && opsConfigured cfg t

/-- The tile, the place and the length of each of `n` tile records, by their first words alone; none where one cannot be read. -/
def State.tilePlaces (s : State) (d va : Nat) : Nat → Nat → State × Option (List (Nat × Nat × Nat))
  | 0, _ => (s, some [])
  | n + 1, off =>
    match s.readVa d (va + off) 8 with
    | (s1, none) => (s1, none)
    | (s1, some hb) =>
      match tileHead (wordAt hb 0) with
      | none => (s1, none)
      | some (num, r, c) =>
        let len := 8 + 4 * (r * c) + 8 * ((r * c + 63) / 64)
        match s1.tilePlaces d va n (off + len) with
        | (s2, some l) => (s2, some ((num, off, len) :: l))
        | (s2, none) => (s2, none)

/-- What an area holds already: its count word and the places of its tile records; none where they cannot be read. -/
def State.areaNow (s : State) (d va : Nat) : State × Option (List Byte × List (Nat × Nat × Nat)) :=
  match s.readVa d va 8 with
  | (s1, none) => (s1, none)
  | (s1, some hb) =>
    match s1.tilePlaces d va (min 8 (bits (wordAt hb 0) 3 0)) 8 with
    | (s2, some l) => (s2, some (hb, l))
    | (s2, none) => (s2, none)

/-- The records to write, from a place on: all but a clean tile's that stands there already. -/
def recordRuns (old : List (Nat × Nat × Nat)) : Nat → List (Option Nat × List Byte) → List (Nat × List Byte)
  | _, [] => []
  | off, (clean, bs) :: t =>
    let rest := recordRuns old (off + bs.length) t
    if clean.any (fun n => decide ((n, off, bs.length) ∈ old)) then rest else (off, bs) :: rest

/-- What step 2 of R285 writes into a tile area: the dirty tiles' records and the held operations, with the count word where it
changes. DESIGN CHOICE: a clean tile's record is written only where it moves, since records follow each other, or where the
words that say what the area holds cannot be read; `held` says that the area holds the context's records. -/
def State.areaRuns (s : State) (d va : Nat) (held : Bool) (tiles : Table Tile) (ops : List MatOp) :
    State × List (Nat × List Byte) :=
  let recs := tiles.map (fun p => (if p.2.dirty then none else some p.1, tileBytes p.1 p.2)) ++
    ops.map (fun o => (none, opBytes o))
  match if held then s.areaNow d va else (s, none) with
  | (s1, some (hb, old)) =>
    (s1, (if hb = areaHead tiles ops then [] else [(0, areaHead tiles ops)]) ++ recordRuns old 8 recs)
  | (s1, none) => (s1, (0, areaHead tiles ops) :: recordRuns [] 8 recs)

/-- The bytes of records in what is written into a tile area. -/
def recordBytes (runs : List (Nat × List Byte)) : Nat :=
  runs.foldl (fun n r => if r.1 = 0 then n else n + r.2.length) 0

/-- The number under which the write of a held MSTORE stands while it is in a tile area, by its place there (R403). -/
def heldId (j : Nat) : Nat := 2 ^ 71 + j
/-- The number under which a push stands while it is in an image, by its place among the entries (R403). -/
def entryId (j : Nat) : Nat := 2 ^ 70 + j

/-- The number of a write in a list of numbers, or the number itself. -/
def renumbered (l : List Nat) (new : Nat → Nat) (id : Nat) : Nat :=
  if id = 0 then 0 else match l.findIdx? (fun x => decide (x = id)) with
    | some j => new j
    | none => id

/-- Reads a tile area; none at a fault, uncorrectable data, or where R286 rejects it. -/
def State.readTileArea (s : State) (d va : Nat) : State × Option (Table Tile × List MatOp) :=
  match s.readVa d va 8 with
  | (s1, none) => (s1, none)
  | (s1, some hb) =>
    let h := wordAt hb 0
    if bits h 63 7 ≠ 0 ∨ 8 < bits h 3 0 ∨ 4 < bits h 6 4 then (s1, none)
    else
      match s1.readTileRecs d (bits h 3 0) (va + 8) [] with
      | (s2, none) => (s2, none)
      | (s2, some (tiles, va')) =>
        match s2.readRun d va' (32 * bits h 6 4) with
        | (s3, none) => (s3, none)
        | (s3, some bs) =>
          let ops := (List.range (bits h 6 4)).map (fun j => parseOp (bs.drop (32 * j)) (s3.seq + j))
          let s4 : State := { s3 with seq := s3.seq + bits h 6 4 }
          let os := ops.filterMap id
          if ops.any Option.isNone || !opsConfigured (tiles.map (·.1)) os || (os.drop 1).any (fun o => decide (o.kb ≠ 0))
          then (s4, none) else (s4, some (tiles, os))

/-! Controls held in the image. -/

/-- The controls an image holds, each with its offset and the bits a restore takes (Table 20-13, R395, R412, R422). -/
def imageCtls : List (Nat × Nat × Nat) :=
  [(0x081, 0x10, 0xFFFFFF8700000000 + 0xFF), (0x082, 0x18, 2 ^ 56 - 1), (0x080, 0x20, 0xFF),
   (0x083, 0x28, 2 ^ 63 + 2 ^ 56 - 32), (0x048, 0x30, 2 ^ 64 - 1), (0x049, 0x38, 0x3FF), (0x058, 0x40, 0x8000FFFFFFFFFFFF),
   (0x078, 0x48, 2 ^ 64 - 2 ^ 46 + 2 ^ 32 - 1), (0x088, 0x60, 2 ^ 64 - 2 ^ 59 + 2 ^ 32 - 64), (0x090, 0x68, 0x77),
   (0x0A0, 0x70, 0x303)]

/-- The numbers of the loop counters, in image order (R425). -/
def loopCtls : List (Nat × Nat) :=
  (List.range 6).flatMap (fun j => (List.range 9).map (fun k => (0x300 + 16 * j + k, 0x2F000 + 8 * (9 * j + k))))

/-! Audits (R405). A record of the partition's list holds: its log record, the first run's signature (2^64 until that run
has ended), the die of that run, the task, the home die, the core, the slot, the parameter block, LAUNCHID, the number of
indices, the indices, and for each logged region its local address, its length and the VA of its bytes. -/

/-- The record of an audit. -/
def auditFind (l : List (List Nat)) (r : Nat) : Option (List Nat) := l.find? (fun x => decide (x.head? = some r))

/-- The logged regions of an audit's record: local address, length, VA. -/
def regionsOf (x : List Nat) : List (Nat × Nat × Nat) :=
  let l := x.drop (10 + x.getD 9 0)
  (List.range (l.length / 3)).map (fun i => (l.getD (3 * i) 0, l.getD (3 * i + 1) 0, l.getD (3 * i + 2) 0))

/-- The record a replay in a context works from. -/
def State.replayOf (s : State) (c : Nat) : Option (List Nat) :=
  match s.taskAt c with
  | none => none
  | some t =>
    match t.kind with
    | .replay r => auditFind (s.part (s.partOf (dieOf c))).auditing r
    | _ => none

/-- Whether a local address of a context's die lies in its allocation. -/
def State.inAlloc (s : State) (c a : Nat) : Bool :=
  let (lo, n) := s.alloc c
  decide (lo ≤ a) && decide (a < lo + n)

/-- Local memory as a replay sees it (R404): its allocation, the logged regions with their logged bytes, and nothing else
valid; of a row group that a region shares, its bytes alone (R404). -/
def State.replayView (s : State) (c : Nat) (x : List Nat) : State :=
  let d := dieOf c
  let regs := regionsOf x
  let out (p : Nat × RowGroup) : Nat × RowGroup :=
    if p.1 / 2 ^ 23 = d ∧ ¬ s.inAlloc c (p.1 % 2 ^ 23 * 512) then (p.1, { p.2 with valid := false, poison := false })
    else p
  let s1 : State := { s with
    rgs := (s.rgs.map out).filter (fun p => decide (p.2 ≠ RowGroup.reset)),
    iss := { s.iss with seen := some (s.alloc c :: regs.map (fun r => (r.1, r.2.1))) } }
  regs.foldl (fun u r =>
    match u.readRun d r.2.2 r.2.1 with
    | (_, some bs) =>
      let w := u.setLbytes d r.1 bs
      (rgsOf r.1 r.2.1).foldl (fun y g => y.setRg d g { y.rg d g with valid := true, poison := false }) w
    | (_, none) => u) s1

/-- Puts back what a replay's step did to local memory outside its allocation (R404). -/
def State.replayBack (s old : State) (c : Nat) : State :=
  let d := dieOf c
  let mine (k : Nat) : Bool := decide (k / 2 ^ 32 = d) && old.inAlloc c (k % 2 ^ 32)
  let mineRg (k : Nat) : Bool := decide (k / 2 ^ 23 = d) && old.inAlloc c (k % 2 ^ 23 * 512)
  { s with
    iss := { s.iss with seen := old.iss.seen },
    loc := (s.loc.filter (fun p => mine p.1)).foldl (fun t p => mapPut t p.1 p.2) (old.loc.filter (fun p => !mine p.1)),
    rgs := (s.rgs.filter (fun p => mineRg p.1)).foldl (fun t p => mapPut t p.1 p.2)
      (old.rgs.filter (fun p => !mineRg p.1)) }

/-- A state change of a context: as it stands, or, for a replay, seen through its log (R404). -/
def State.seenBy (s : State) (c : Nat) (f : State → State) : State :=
  match s.replayOf c with
  | none => f s
  | some x => (f (s.replayView c x)).replayBack s c

/-- A state change of a context that also answers something, seen in the same way (R404). -/
def State.seenWith {α : Type} (s : State) (c : Nat) (f : State → State × α) : State × α :=
  match s.replayOf c with
  | none => f s
  | some x =>
    let p := f (s.replayView c x)
    (p.1.replayBack s c, p.2)

end Sys2Proof.Machine
end

