-- ==== Sys2Proof/Machine/Context.lean ====
section
/-! DEFINITION. Landing (R180 to R184), the change of tile owner (R285), saving and restoring a context (R389), phase
cancellation (R397), handlers, dispositions and restarts (R383 to R390), and the end of a context. -/

namespace Sys2Proof.Machine

/-! Trace records (R427). -/

/-- Writes a record into a die's ring at RING + 32 × (WRCNT mod 2^LOG2N); one whose address does not translate is not
written (R426). -/
def State.ringRecord (s : State) (d : Nat) (ws : List Nat) : State :=
  let x := s.dieCtl d 0x210
  let n := (s.dieCtl d 0x211).toNat
  match s.writeVa d (bits x 55 12 * 2 ^ 12 + 32 * (n % 2 ^ bits x 5 0)) (ws.flatMap (leBytes 8)) with
  | (s1, true) => s1.setDieCtl d 0x211 (BitVec.ofNat 64 (n + 1))
  | (s1, false) => s1

/-- A transfer (1), stop (2) or resume (3) record of a context, when TEN is set and TRACE open (R420, R427). -/
def State.traceRec (s : State) (c kind slot addr code w3 : Nat) : State :=
  let d := dieOf c
  if bit (s.dieCtl d 0x210) 62 && s.dbgRight d 3 then
    let lid := ((s.taskAt c).map (fun t => t.launchId)).getD 0
    s.ringRecord d [kind * 2 ^ 60 + slot % 8 * 2 ^ 56 + addr % 2 ^ 56, s.tstamp,
      lid % 2 ^ 32 * 2 ^ 32 + coreOf c % 64 * 2 ^ 24 + c % 4 * 2 ^ 22 + code % 256 * 2 ^ 8, w3]
  else s

/-! Counters (R425, R429). -/

/-- Adds to a loop counter, saturating at 2^64 − 1 (R425). -/
def State.bump (s : State) (c n k : Nat) : State :=
  s.setCtxCtl c n (BitVec.ofNat 64 (min ((s.ctxCtl c n).toNat + k) (2 ^ 64 - 1)))

/-- Changes the capture windows that count a context's launch (R429). -/
def State.captures (s : State) (c : Nat) (f : Capture → Capture) : State :=
  match (s.taskAt c).bind (fun t => t.launch) with
  | none => s
  | some id =>
    { s with dies := s.dies.map (fun p => (p.1, { p.2 with captures := p.2.captures.map (fun q =>
        if id ∈ q.2.live then (q.1, f q.2) else q) })) }

/-- Counts frozen cycles of a context: in the loop counters of the entries that stood at its last issue, and in capture
windows (R425, R429). DEDUCED: an image holds no depth of the last issue (R387), so until its first issue a restored context
counts by the entries it has. -/
def State.countFrozen (s : State) (c n : Nat) : State :=
  if n = 0 then s
  else
    let x := s.ctx c
    let s1 := (List.range (x.lastDepth.getD x.loops.length)).foldl (fun u j => u.bump c (0x308 + 16 * j) n) s
    s1.captures c (fun w => { w with frozen := w.frozen + n })

/-! Landing (R180 to R182). -/

/-- What one pending write does at its landing cycle: replaces its destination, pushes its queue, waits, for a ring slot under
refresh too (R149), or faults. -/
def State.landOne (s : State) (c : Nat) (w : Pend) : State × RingAnswer × Option Stop :=
  if !w.arrived then (s, .stall, none)
  else
    match w.payload with
    | .scalar v => (s.modCtx c (fun x => x.wg w.reg v), .go, none)
    | .lanes l =>
      if 56 ≤ w.reg then
        let qn := w.reg - 56
        match ((s.ctx c).queue qn).canPush with
        | .go =>
          let q := (s.ctx c).queue qn
          if (rgsOf (q.pos (q.head + q.count)) 512).any (s.inRefresh (dieOf c)) then (s, .stall, none)
          else (s.pushRing c qn w.seq l, .go, none)
        | .stall => (s, .stall, none)
        | .bad => (s, .bad, some ⟨0x0B, qn, w.slot, none⟩)
      else (s.modCtx c (fun x => l.foldl (fun y p => y.wv w.reg p.1 p.2) x), .go, none)
    | .pred l => (s.modCtx c (fun x => l.foldl (fun y p => y.wk w.reg p.1 p.2) x), .go, none)
    | .fmt v => (s.modCtx c (fun x => { x with fmt := v }), .go, none)
    | .fault st _ => (s, .bad, some st)
    | .cpyw en r =>
      match mapFind (s.cengine en).statuses r with
      | some v => ((s.modCengine en (fun e => { e with statuses := mapDel e.statuses r })).modCtx c (fun x => x.wg w.reg v),
          .go, none)
      | none => (s, .stall, none)
    | _ => (s, .stall, none)

/-- Lands some writes in order, as far as the first that must wait: what is left, and the faulting ones (R180, R181,
R380). -/
def State.landList (s : State) (c : Nat) : List Pend → State × List Pend × List (Pend × Stop)
  | [] => (s, [], [])
  | w :: t =>
    match s.landOne c w with
    | (s1, .stall, _) => (s1, w :: t, [])
    | (s1, .go, _) => (s1.freeTagOf (coreOf c) w.seq).landList c t
    | (s1, .bad, st) =>
      match s1.landList c t with
      | (s2, left, fs) => (s2, left, (w, st.getD (Stop.of 0x09)) :: fs)

/-- Lands every write of a context due by a cycle: whether the core stalls, and, where it does not, the writes that
fault, which are discarded (R180 to R182, R380). -/
def State.landDue (s : State) (c cyc : Nat) : State × Bool × List (Pend × Stop) :=
  let x := s.ctx c
  let now := pendSort (x.pend.filter (fun w => decide (w.land ≤ cyc)))
  let later := x.pend.filter (fun w => decide (cyc < w.land))
  match (s.modCtx c (fun y => { y with pend := later })).landList c now with
  | (s1, [], fs) => (fs.foldl (fun u p => u.freeTagOf (coreOf c) p.1.seq) s1, false, fs)
  | (s1, left, fs) => (s1.modCtx c (fun y => { y with pend := fs.map (·.1) ++ left ++ y.pend }), true, [])

/-! Restarts (R390). -/

/-- Counts a sample that is not audited (Table 21-3). -/
def State.skipAudit (s : State) (d : Nat) : State :=
  let p := s.partOf d
  let x := s.partCtl p 0x1D6
  s.setPartCtl p 0x1D6 (setBits x 55 32 (min (bits x 55 32 + 1) (2 ^ 24 - 1)))

/-- Drops the audit of a record, which is then free (R402). -/
def State.dropAudit (s : State) (p r : Nat) : State :=
  s.modPart p (fun y => { y with auditing := y.auditing.filter (fun z => decide (z.head? ≠ some r)) })

/-- The cause of a failure at a fault of some code that no handler resumes (R385, R390). -/
def faultCause (t : Task) (code cause : Nat) : Nat :=
  if 0 < t.restarts ∧ ¬ t.readInputs ∧ (code = 0x08 ∨ code = 0x09) then causeInputLost else cause

/-- Restarts a task from its descriptor (R314, R390): not a third time, nor where the stop it is held at, or that of the given code,
lost its inputs, nor a handler, whose image was lost; an audit's replay ends as skipped, and a task of a failed launch, which starts
none, is discarded (R386). -/
def State.restartTask (s : State) (d : Nat) (t : Task) (fcode : Nat) : State :=
  let code := if fcode = 0 then t.stopCode else fcode
  if s.doomed t then (s.endTask d t).launchCheck t.launch
  else
  match t.kind with
  | .trapHandler _ _ => s.failTask d t causeImgLost fcode
  | .handler => s.failTask d t causeImgLost fcode
  | .copyHandler _ _ => s.failTask d t causeImgLost fcode
  | .replay r => ((s.endTask d t).skipAudit d).dropAudit (s.partOf d) r
  | _ =>
    if faultCause t code 0 = causeInputLost then s.failTask d t causeInputLost code
    else if 2 ≤ t.restarts then s.failTask d t causeRestarts fcode
    else
      let s1 := match t.phase with
        | .placed c => s.dropCtx c
        | ph => match ph.image? with
          | some i => (s.freeImg i).dropTiles t.tid
          | none => s
      let s2 := t.streams.foldl (fun u p => u.streamDone p.2) s1
      (s2.modTask d t.tid (fun u => { u with
        restarts := u.restarts + 1, readInputs := false, traps := [], late := [], later := [], streams := [], arrivals := [],
        anchor := none, patience := none, asked := none, starved := 0, spawnLand := 0, stopCode := 0,
        sig := u.sig.map (fun _ => 0), folds := [] })).readyTask d t.tid .waiting

/-! The tile owner (R285). -/

/-- The residence image of a context's slot, where the pool has it (R387). -/
def State.resImage (s : State) (c : Nat) : Option Nat :=
  let w := s.dieCtl (dieOf c) 0x1D0
  if bit w 63 ∧ c % 256 < bits w 15 0 then some (dieOf c * 65536 + c % 256) else none

/-- Completes the accepted operations that no incomplete MMA or MMAS precedes (R285, step 1), as far as an MSTORE that waits for a
refresh (R149). -/
def State.settle (s : State) (k : Nat) : Nat → State
  | 0 => s
  | n + 1 =>
    match (s.eng k).ops with
    | [] => s
    | o :: _ =>
      if ((o.opcode = 0x42 ∨ o.opcode = 0x43) ∧ o.kb < o.blocks) ∨ s.mstoreWaits k o then s
      else
        ((s.finishOp k o).modEng k (fun e => { e with ops := e.ops.drop 1 })).settle k n

/-- Keeps what TSHAPEn shows of a context that no longer owns the engine (R271). -/
def State.mirrorShapes (s : State) (c : Nat) (tiles : Table Tile) : State :=
  (List.range 8).foldl (fun u n =>
    u.setCtxCtl c (0x070 + n) (tshapeWord ((mapFind tiles n).map (fun t => { t with dirty := false })))) s

/-- Step 2 of R285: the dirty tiles and the held operations are written to the tile area of an image: whether they could be,
and the bytes of records written. -/
def State.writeOwner (s : State) (d tid i : Nat) (held : Bool) (e : Engine) : State × Bool × Nat :=
  let va := s.imageVa i + 0x1C000
  match s.areaRuns (i / 65536) va held e.tiles e.ops with
  | (s1, runs) =>
    match s1.writeRuns (i / 65536) va runs with
    | (s2, ok) => (if ok then s2.foldIds d tid (renumbered (e.ops.map (fun o => o.id)) heldId) else s2, ok, recordBytes runs)

/-- Steps 1 and 2 of R285: the owner's operations are settled, and its dirty tiles and held operations are written to its
tile area. Answers whether the engine is empty now, and the bytes written. A save whose image cannot be written is abandoned
(R390); a resident owner that has no residence image, or has reached DONE, keeps the engine, and so does one an MSTORE of which
waits. DEDUCED: a queue push lands in its context's own issue cycles, none of which comes in a change of owner, so that an MSTORE
is not held there behind a push of a context that does not run (R282, R285). -/
def State.flushOwner (s : State) (k : Nat) : State × Bool × Nat :=
  match (s.eng k).owner with
  | none => (s, true, 0)
  | some tid =>
    let d := dieOfCore k
    let s0 := s.drainWrites k
    let s1 := match s0.slotOfTid k tid with
      | some c => s0.seenBy c (fun u => u.settle k 4)
      | none => s0.settle k 4
    let e := s1.eng k
    let clear (u : State) : State := u.modEng k (fun _ => ⟨none, [], [], []⟩)
    if (e.ops.head?.map (s1.mstoreWaits k)).getD false then (s1.startHead k, false, 0)
    else
    match s1.slotOfTid k tid with
    | some c =>
      if (s1.ctx c).phase = .done then (s1.startHead k, false, 0)
      else if e.tiles.isEmpty && e.ops.isEmpty then
        (clear ((s1.mirrorShapes c []).modCtx c (fun x => { x with resRecords := false })), true, 0)
      else
        match s1.resImage c with
        | none => (s1.startHead k, false, 0)
        | some i =>
          match s1.writeOwner d tid i (s1.ctx c).resRecords e with
          | (s2, true, n) => (clear ((s2.mirrorShapes c e.tiles).modCtx c (fun x => { x with resRecords := true })), true, n)
          | (s2, false, _) => (s2.startHead k, false, 0)
    | none =>
      match s1.allTasks.find? (fun p => decide (p.2.tid = tid)) with
      | none => (clear s1, true, 0)
      | some (td, t) =>
        match s1.imageOf t with
        | none => (clear s1, true, 0)
        | some i =>
          match s1.writeOwner td tid i true e with
          | (s2, true, n) => (clear s2, true, n)
          | (s2, false, _) => ((clear s2).restartTask td t 0, true, 0)

/-- Loads a context's tile records into its core's engine and makes it the owner (R285, steps 3 and 4): the bytes read. A first
operation that a deferred fault holds stays held, and the operations follow the queue pushes that are pending still (R282). DESIGN
CHOICE: an area of a residence image that cannot be read, or that R286 rejects, is not a restore's, which is all that R286 speaks
of: the context owns the engine with no tile configured and no operation. -/
def State.loadOwner (s : State) (c : Nat) : State × Nat :=
  let k := coreOf c
  let pushes := ((s.ctx c).pend.filter Pend.isPush).map (fun w => w.seq)
  let take (u : State) (tiles : Table Tile) (ops : List MatOp) : State :=
    (u.modEng k (fun _ => ⟨some (u.ctx c).tid, tiles, ops.map (fun o => { o with behind := pushes }), []⟩)).startHead k
  match (s.ctx c).resRecords, s.resImage c with
  | true, some i =>
    match s.readTileArea (dieOf c) (s.imageVa i + 0x1C000) with
    | (s1, some (tiles, ops)) =>
      let held := bit (s1.ctxCtl c 0x078) 63
      let ops' := match ops with
        | o :: t => { o with held := held && decide (o.opcode = 0x42 ∨ o.opcode = 0x43) } :: t
        | [] => []
      let s2 := s1.foldIds (dieOf c) (s1.ctx c).tid
        (renumbered ((List.range ops.length).map heldId) (fun j => ((ops.map (fun o => o.id)).getD j 0)))
      (take s2 tiles ops', (tileArea tiles ops).length - 8)
    | (s1, none) => (take s1 [] [], 0)
  | _, _ => (take s [] [], 0)

/-- TILE_OWNER_CHANGE to context a (R285): the core is frozen for 32 matrix cycles and one more for each 128 bytes moved. A context
that has reached DONE takes the engine for the operations it still has (R303). -/
def execTileOwnerChange (s : State) : Result :=
  match s.ev with
  | .n c _ _ =>
    let k := coreOf c
    let takes (x : Ctx) : Bool := decide (x.phase = .ready) || decide (x.phase = .done)
    if !takes (s.ctx c) || s.owns c then .next s
    else
      match s.flushOwner k with
      | (s1, false, _) => .next s1
      | (s1, true, n) =>
        if !takes (s1.ctx c) then .next s1
        else
          let (s2, m) := s1.loadOwner c
          let x := s2.core k
          let cycles := 32 + (n + m + 127) / 128
          .next ((s2.countFrozen c ((x.mdiv * cycles + x.cdiv - 1) / max x.cdiv 1)).modCore k (fun y => { y with
            next := max y.next s2.now + s2.ticksOf (dieOf c) x.mdiv cycles,
            matrixWait := max y.next s2.now + s2.ticksOf (dieOf c) x.mdiv cycles, pause := 0 }))
  | _ => .next s

/-! Phases (R395 to R400). -/

/-- Whether a stop cancels the phase of its context instead (R397). A replay's does not: the refetch is a copy, at which the audit
ends as skipped (R404). -/
def State.cancels (s : State) (c code : Nat) : Bool :=
  let ph := s.ctxCtl c 0x088
  (s.replayOf c).isNone && bit ph 61 && decide (bits ph 60 59 < 2) &&
    (decide (code = 0x09) || (decide (code = 0x23) && decide (bits (s.ctxCtl c 0x078) 59 56 = 3)))

/-- The local address of refetch packet INSEL of a context (R395). -/
def State.refetchAt (s : State) (c : Nat) : Nat :=
  let ph := s.ctxCtl c 0x088
  bits ph 31 0 + (if bit ph 62 then 64 else 0)

/-- The words of refetch packet INSEL; none where its bytes cannot be read (R397). -/
def State.refetchWords (s : State) (c : Nat) : Option (List W64) :=
  let a := s.refetchAt c
  let d := dieOf c
  if !s.localOk d a 64 || !s.validRange d a 64 || s.poisonedRange d a 64 then none
  else some ((List.range 8).map (fun i => wordAt (s.lbytes d a 64) (8 * i)))

/-- Issues the refetch packet of a cancelled phase (R397, step 2), once no refresh of its row group is in progress (R149); a full
intake is tried again, and one that no engine can take fails as not DONE. DEDUCED: R113 judges the packet as it is written, and CEN
and HEN are then taken as 0, so that what it gives of a counter or a handler is not looked at. -/
def State.issueRefetch (s : State) (c : Nat) : State :=
  let d := dieOf c
  let en := d * 4 + coreOf c % 64 / 16
  let again (u : State) : State := u.afterCycles d (u.core (coreOf c)).cdiv 1 .phaseRefetchComplete (.n c 0 1)
  if (rgsOf (s.refetchAt c) 64).any (s.inRefresh d) then again s
  else
    match s.refetchWords c with
    | none => s.due .phaseRefetchComplete (.n c 0x10 0)
    | some ws =>
      if pktMalformed ws then s.due .phaseRefetchComplete (.n c 0x10 0)
      else if !s.intakeFree d (en % 4) then again s
      else
        let t := s.taskAt c
        let w0 := setBits (setBits (ws.headD 0) 35 35 0) 33 33 0
        let p := newPacket s.seq (w0 :: ws.drop 1) (some (s.ctx c).tid) none (s.ownPrio c) (t.bind (fun u => u.launch))
          ((t.map (fun u => u.launchId)).getD 0) false
        s.intakePut en { p with refetch := some c }

/-- Takes the held operation, the first of the tile area of a context's residence image, out of it (R285, R397). -/
def State.dropHeld (s : State) (c : Nat) : State :=
  match (s.ctx c).resRecords, s.resImage c with
  | true, some i =>
    match s.readTileArea (dieOf c) (s.imageVa i + 0x1C000) with
    | (s1, some (tiles, ops)) =>
      ((s1.writeRun (dieOf c) (s1.imageVa i + 0x1C000) (tileArea tiles (ops.drop 1))).1).foldIds (dieOf c) (s1.ctx c).tid
        (renumbered ((List.range (ops.length - 1)).map (fun j => heldId (j + 1))) heldId)
    | (s1, none) => s1
  | _, _ => s

/-- The rest of step 1 of R397, once the replies are in, and step 2: pending writes, pushes and a held operation are discarded, and
the refetch is issued. A FUT.RD that found no record fails its task all the same (R338). -/
def State.discardPhase (s : State) (c : Nat) : State :=
  let s1 := (s.leaveTags c).modCtx c (fun x => { x with
    pend := [], later := [], futStop := none, traps := x.traps.filter (fun t => decide (t.code ≠ 0x23)) })
  let s2 := s1.setCtxCtl c 0x078 0
  let s3 := if s2.owns c then
      if (s2.eng (coreOf c)).ops.any (fun o => o.held) then
        (s2.modEng (coreOf c) (fun e => { e with ops := e.ops.filter (fun o => !o.held) })).startHead (coreOf c)
      else s2
    else if bit (s.ctxCtl c 0x078) 63 then s2.dropHeld c else s2
  match s3.taskAt c, ((s.ctx c).futStop.map (fun p => decide (8 ≤ p.1))).getD false with
  | some t, true => s3.failTask (dieOf c) t causePool 0
  | _, _ => s3.issueRefetch c

/-- Step 1 of R397: a cancelled phase waits for the replies that are outstanding, as a stop does (R183); the context keeps its
slot. -/
def State.awaitReplies (s : State) (c : Nat) : State :=
  if s.repliesOut c then s.stirLate.after 1 .phaseRefetchComplete (.n c 0 2) else s.discardPhase c

/-- A phase is cancelled (R397). -/
def State.cancelPhase (s : State) (c : Nat) : State :=
  let k := coreOf c
  let s1 := s.modCtx c (fun x => { x with phase := .waitRefetch })
  let s2 := s1.modCore k (fun x => { x with running := if x.running = some (c % 4) then none else x.running })
  ((s2.stirLate).awaitReplies c).dueOnce .runningContextChange (.n k 0 0)

/-- A stop, or the cancellation that stands in its place (R375, R397). -/
def State.stopCtx (s : State) (c : Nat) (st : Stop) (causePc done : Nat) (multi : Bool) : State :=
  if s.cancels c st.code then s.cancelPhase c else s.takeStop c st causePc done multi

/-- Steps 3 and 4 of R397: the snapshot returns to every sequencer field but CYCLES, g1 to g7 and FMT. -/
def State.resumePhase (s : State) (c : Nat) : State :=
  match (s.ctx c).snap with
  | none => s
  | some sn =>
    let s1 := s.modCtx c (fun x =>
      let y : Ctx := { x with
        pc := sn.pc, wdc := sn.wdc, clkreq := sn.clkreq, loops := sn.loops, fmt := sn.fmt, phase := .ready, doneMask := 0 }
      (List.range 7).foldl (fun z i => z.wg (i + 1) (sn.g.getD i 0)) y)
    let ph := s1.ctxCtl c 0x088
    (s1.setCtxCtl c 0x088 (setBits ph 60 59 (bits ph 60 59 + 1))).dueOnce .runningContextChange (.n (coreOf c) 0 0)

/-- PHASE_REFETCH_COMPLETE of context a with the packet's CODE b; c is 1 where the packet has still to enter the intake, and 2 where
replies of the context are still out (R397). -/
def execPhaseRefetchComplete (s : State) : Result :=
  match s.ev with
  | .n c code again =>
    if (s.ctx c).phase ≠ .waitRefetch then .next s
    else if again = 1 then .next (s.issueRefetch c)
    else if again = 2 then .next (s.awaitReplies c)
    else if code = 0 then .next (s.resumePhase c)
    else
      match s.taskAt c with
      | some t => .next (s.failTask (dieOf c) t causeInputLost 0x09)
      | none => .next (s.dropCtx c)
  | _ => .next s

/-! Landing and asynchronous traps as events of their own. -/

/-- The stop that landing faults make (R378, R380): the earliest-issued names it. -/
def State.landingStop (s : State) (c : Nat) : List (Pend × Stop) → State
  | [] => s
  | (w, st) :: rest => s.stopCtx c { st with slot := w.slot } w.pc 0 (!rest.isEmpty)

/-- RESULT_LANDING of context a (R180): the writes of its present cycle land. -/
def execResultLanding (s : State) : Result :=
  match s.ev with
  | .n c _ _ =>
    if (s.ctx c).phase ≠ .ready ∨ (s.core (coreOf c)).running ≠ some (c % 4) then .next s
    else
      match s.landDue c (s.ctx c).cycles with
      | (s1, true, _) => .next s1
      | (s1, false, fs) => .next (s1.landingStop c fs)
  | _ => .next s

/-- The lowest pending trap of a context (R381). -/
def lowestTrap : List AsyncTrap → Option AsyncTrap
  | [] => none
  | t :: rest => some (rest.foldl (fun b x => if x.code < b.code then x else b) t)

/-- Takes the lowest pending asynchronous trap of a running context (R378, R381). -/
def State.takeAsync (s : State) (c : Nat) : State :=
  match lowestTrap (s.ctx c).traps with
  | none => s
  | some t =>
    let s1 := s.modCtx c (fun x => { x with traps := x.traps.erase t })
    s1.stopCtx c ⟨t.code, t.detail, 0, none⟩ (s1.ctx c).pc 0 false

/-- Whether a core is in a wait that ends before any stop (R299): `held` is 32 more than the slot in a wait for a refresh, and 64
more in that of LT.TOUCH (R149, R156). -/
def Core.committed (y : Core) : Bool := decide (32 ≤ y.held.getD 0)

/-- An asynchronous trap is taken before the next bundle of its context, once no landing fault precedes it (R381). -/
def State.asyncEvent (s : State) (code : Nat) : State :=
  match s.ev with
  | .n c _ _ =>
    let x := s.ctx c
    if x.phase = .ready ∧ (s.core (coreOf c)).running = some (c % 4) ∧ x.pend.all (fun w => decide (x.cycles < w.land)) ∧
        (lowestTrap x.traps).map (fun t => t.code) = some code ∧ ¬ (s.core (coreOf c)).committed then s.takeAsync c
    else s
  | _ => s

/-- EXPIRY_TRAP of context a (R146, R456). -/
def execExpiryTrap (s : State) : Result := .next (s.asyncEvent 0x20)
/-- COPY_ERROR_TRAP of context a (R124, R456). -/
def execCopyErrorTrap (s : State) : Result := .next (s.asyncEvent 0x21)
/-- BUFFER_CONTRACT_TRAP of context a (R122, R456). -/
def execBufferContractTrap (s : State) : Result := .next (s.asyncEvent 0x22)
/-- DEFERRED_MATRIX_FAULT of context a (R284, R456). -/
def execDeferredMatrixFault (s : State) : Result := .next (s.asyncEvent 0x23)

/-- Stops a running context before its next bundle (R378). -/
def State.stopBefore (s : State) (c code : Nat) : State := s.stopCtx c (Stop.of code) (s.ctx c).pc 0 false

/-- PROGRESS_FAULT of context a: WDC is 4,096 (R300). -/
def execProgressFault (s : State) : Result :=
  match s.ev with
  | .n c _ _ =>
    let x := s.ctx c
    if x.phase = .ready ∧ (s.core (coreOf c)).running = some (c % 4) ∧ 4096 ≤ x.wdc then .next (s.stopBefore c 0x10)
    else .next s
  | _ => .next s

/-- PREEMPT_STOP of context a (R298, R336): a context with a request that stands at a pre-emption point is stopped there,
if an image is free to save it (R387). -/
def execPreemptStop (s : State) : Result :=
  match s.ev with
  | .n c _ _ =>
    let x := s.ctx c
    if x.phase = .ready ∧ x.preempt ∧ x.wdc = 0 ∧ x.doneMask = 0 ∧ (s.freeImage (dieOf c)).isSome then
      .next (s.stopBefore c 0x41)
    else .next s
  | _ => .next s

/-! Saving (R389). -/

/-- The runs of bytes a save writes, from the image's first byte (Table 20-13). -/
def State.imageRuns (s : State) (c : Nat) (t : Task) (disp : Nat) (entries : List Pend) : List (Nat × List Byte) :=
  let x := s.ctx c
  let d := dieOf c
  let base := (s.alloc c).1
  let kind := match t.kind with
    | .code => 0
    | .step _ => 1
    | .replay _ => 1
    | _ => 2
  let head := leBytes 8 t.desc ++
    leBytes 8 (t.launchId % 2 ^ 32 * 2 ^ 32 + t.prio * 2 ^ 28 + kind * 2 ^ 24 + s.logical t.home * 2 ^ 16 +
      t.restarts * 2 ^ 12 + t.lastSlot * 2 ^ 8 + t.lastCore)
  let ctl (n : Nat) : List Byte := leBytes 8 (s.ctxCtl c n).toNat
  let rows := List.range t.spr
  let rg (j : Nat) : Nat := base / 512 + j
  [(0, head)] ++ imageCtls.map (fun p => (p.2.1, ctl p.1)) ++
  [(0x50, leBytes 8 disp), (0x58, leBytes 8 (t.spr * 2 ^ 32 + base)),
   (0x100, seqRecord x.pc x.cycles x.wdc x.clkreq x.loops),
   (0x200, (List.range 8).flatMap (fun n => queueBytes (x.queue n))),
   (0x300, leBytes 16 (natBits 80 (fun i => (mapFind x.arrivals i).isSome)))] ++
  (match x.snap with
    | some sn => [(0x310, seqRecord sn.pc sn.cycles sn.wdc sn.clkreq sn.loops ++ zeros 0 ++
        (List.range 7).flatMap (fun i => leBytes 8 (sn.g.getD i 0).toNat) ++ leBytes 8 sn.fmt.toNat)]
    | none => []) ++
  [(0x400, regArea x (s.ctxCtl c 0x068) entries x.cycles)] ++
  loopCtls.map (fun p => (p.2, ctl p.1)) ++
  (if t.spr = 0 then [] else [(0x30000, rows.flatMap (fun j => leBytes 2 (rowEntry (s.rg d (rg j)))))]) ++
  (rows.filter (fun j => (s.rg d (rg j)).valid && !(s.rg d (rg j)).poison)).map (fun j =>
    (0x100000 + 512 * j, s.lbytes d (512 * rg j) 512))

/-- Writes a context's image, with the tile area of its residence image where that holds its records (R389): false where
the image is abandoned. -/
def State.saveImage (s : State) (c : Nat) (t : Task) (i disp : Nat) (entries : List Pend) : State × Bool :=
  let d := dieOf c
  let area := match (s.ctx c).resRecords, s.resImage c with
    | true, some r =>
      match s.readTileArea d (s.imageVa r + 0x1C000) with
      | (s1, some (tiles, ops)) => (s1, some (tileArea tiles ops))
      | (s1, none) => (s1, none)
    | _, _ => (s, some (zeros 8))
  match area with
  | (s1, none) => (s1, false)
  | (s1, some bs) => s1.writeRuns d (s1.imageVa i) (s1.imageRuns c t disp entries ++ [(0x1C000, bs)])

/-- The scope an outstanding arrival ties a context to (R358): the cores of the instance. -/
def anchorOf (arrivals : Table Nat) (core : Nat) : Option (Nat × Nat) :=
  if arrivals.any (fun p => decide (p.1 / 16 = 0)) then some (core % 64, 1)
  else if arrivals.any (fun p => decide (p.1 / 16 = 1)) then some (core % 64 / 4 * 4, 4)
  else if arrivals.any (fun p => decide (p.1 / 16 = 2)) then some (0, 64)
  else none

/-- What a task keeps beside its image while it is saved: the code of its stop, late results, attached streams, arrivals and traps. -/
def Task.keep (t : Task) (x : Ctx) (late : List Pend) (core code : Nat) : Task :=
  { t with
    stopCode := code, traps := x.traps, later := x.later, spawnLand := x.spawnLand, arrivals := x.arrivals, anchor := anchorOf x.arrivals core,
    streams := x.queues.filterMap (fun q => q.2.stream.map (fun y => (q.1, y))),
    late := late.map (fun w => { w with land := w.land - x.cycles }), asked := none, starved := 0, patience := none }

/-- Whether a task is a handler, which takes no fault or trap (R385). -/
def Task.isHandler (t : Task) : Bool :=
  match t.kind with
  | .handler => true
  | .copyHandler _ _ => true
  | .trapHandler _ _ => true
  | _ => false

/-- Whether a task is an audit's replay, which ends as skipped at any stop (R404). -/
def Task.isReplay (t : Task) : Bool :=
  match t.kind with
  | .replay _ => true
  | _ => false

/-- Whether the vector of a stop is enabled: SYSVEC for SYS, TRAPVEC for any other fault or trap (R383). -/
def State.vectorOn (s : State) (c code : Nat) : Bool :=
  if code = 0x31 then bit (s.dieCtl (dieOf c) 0x1D1) 63 else bit (s.ctxCtl c 0x083) 63

/-- Marks the windows that count a launch with a pre-emption or a debug stop (R429). -/
def State.captureMark (s : State) (launch : Option Nat) (dbg : Bool) : State :=
  match launch with
  | none => s
  | some id => { s with dies := s.dies.map (fun p => (p.1, { p.2 with
      captures := p.2.captures.map (fun q =>
        if id ∈ q.2.live then (q.1, if dbg then { q.2 with dbg := true } else { q.2 with pre := true }) else q) })) }

/-- Makes a task saved in image `i` ready, or has it wait for the futures that writes of it wait for (R338). -/
def State.readySaved (s : State) (d tid i : Nat) : State :=
  if s.futWaits tid then s.modTask d tid (fun u => { u with phase := .futureWait i 0 }) else s.readyTask d tid (.saved i)

/-- What follows the save of a context into image `i`, by the code of its stop (R336, R338, R383, R421). -/
def State.afterSave (s : State) (d : Nat) (t : Task) (i code : Nat) : State :=
  let hold (ph : TaskPhase) : State := s.modTask d t.tid (fun u => { u with phase := ph })
  if code = 0x41 then s.readySaved d t.tid i
  else if code = 0x42 then (if s.futWaits t.tid then hold (.futureWait i 0) else s.readyHome d t.tid (.saved i))
  else if code = 0x40 then (hold (.debugHeld i)).report 0x40 d [s.imageVa i]
  else (hold (.held i)).due .trapHandlerStart (.n d t.tid 0)

/-- DISP as the save leaves it: FAIL with cause UNHANDLED at a fault, a trap or a debug stop (R383, R421). -/
def saveDisp (code : Nat) : Nat := if isFaultOrTrap code || decide (code = 0x40) then causeUnhandled * 256 + 2 else 0

/-- Writes into the continuation records of a task the image it was saved in and the REM of their entries (Table 17-5). -/
def State.recordImage (s : State) (tid i : Nat) (late : List Pend) (cyc : Nat) : State :=
  late.foldl (fun u w =>
    match w.payload with
    | .fut r => u.modDie (r / 16384) (fun x => { x with records := x.records.map (fun q =>
        if q.1 = r % 16384 ∧ q.2.tid = tid then (q.1, { q.2 with image := u.imageVa i, rem := w.land - cyc }) else q) })
    | _ => u) s

/-- Saves a stopped context whose replies are in (R389): its image, then its slot is freed; the engine keeps its tiles. An image
that cannot be written is abandoned, and the task restarts, or has lost its inputs (R390). DESIGN CHOICE: a pending write that will
fault at a landing still to come stands beside the image and faults there after the resumption; Table 9-3 has no kind of entry for it
(R183). -/
def State.saveInto (s : State) (c : Nat) (t : Task) (i code : Nat) : State :=
  let d := dieOf c
  let x := s.ctx c
  let entries := pendSort (x.pend.filter (fun w => w.imageable && decide (x.cycles < w.land)))
  let late := x.pend.filter (fun w => !(w.imageable && decide (x.cycles < w.land)) &&
    !decide (w.reg = 0 ∧ ∃ v, w.payload = .scalar v))
  match s.saveImage c t i (saveDisp code) entries with
  | (s1, true) =>
    let s2 := ((s1.modTask d t.tid (fun u => u.keep x late (coreOf c) code)).takeImg i).recordImage t.tid i late x.cycles
    let s3 := s2.foldIds d t.tid (renumbered (entries.map (fun w => w.seq)) entryId)
    (s3.releaseSlot c).afterSave d t i code
  | (s1, false) => s1.restartTask d t code

/-- Whether a row group of a context's allocation is under refresh: a save or a restore waits for it (R149, R152). -/
def State.rowsBusy (s : State) (c spr : Nat) : Bool :=
  (List.range spr).any (fun j => s.inRefresh (dieOf c) (coreOf c % 64 * 8192 + c % 4 * 2048 + j))

/-- A pending write that faults when it lands, kept for the resumption to raise. -/
def keptFault (p : Pend × Stop) : Pend := { p.1 with payload := .fault { p.2 with slot := p.1.slot } p.1.payload.cls }

/-- Lands what is due at a stop; a write that faults there, or that must wait, is raised or waits at the resumption. -/
def State.landAtStop (s : State) (c : Nat) : State :=
  match s.landDue c (s.ctx c).cycles with
  | (u, _, fs) => u.modCtx c (fun x => { x with pend := fs.map keptFault ++ x.pend })

/-- Step 1 of a save (R183, R251): the context's replies are in, what is due has landed, its tile writes are performed, and
the stop is traced (R427). -/
def State.completeStop (s : State) (c code : Nat) : State :=
  let s1 := if s.owns c then s.drainWrites (coreOf c) else s
  let s2 := (s1.leaveTags c).landAtStop c
  s2.traceRec c 2 (bits (s2.ctxCtl c 0x081) 34 32) (s2.ctxCtl c 0x082).toNat code (s2.ctx c).cycles

/-- Marks the capture windows of a stopped context at a pre-emption or a debug stop (R429). -/
def State.markStop (s : State) (c code : Nat) : State :=
  let launch := (s.taskAt c).bind (fun t => t.launch)
  if code = 0x41 then s.captureMark launch false else if code = 0x40 then s.captureMark launch true else s

/-- CONTEXT_SAVE of context a (R81, R183, R385 to R389), once every reply of the context is in; b is 1 where its stop is complete
and it waits for a refresh of its rows, or, at a debug stop, for a free image. A FUT.RD that found no record fails its task,
whatever else stopped the context (R338). -/
def execContextSave (s : State) : Result :=
  match s.ev with
  | .n c again _ =>
    if (s.ctx c).phase ≠ .stopping then .next s
    else if s.repliesOut c then .next (s.stirLate.after 1 .contextSave (.n c again 0))
    else
      let d := dieOf c
      let code := bits (s.ctxCtl c 0x081) 7 0
      let s4 := if again = 1 then s else (s.completeStop c code).markStop c code
      match s4.taskAt c with
      | none => .next (s4.dropCtx c)
      | some t =>
        if t.isReplay then .next (s4.restartTask d t code)
        else if s4.doomed t then .next ((s4.endTask d t).launchCheck t.launch)
        else if ((s4.ctx c).futStop.map (fun p => decide (8 ≤ p.1))).getD false then
          .next (s4.failTask d t causePool 0)
        else if isFaultOrTrap code ∧ t.isHandler then .next (s4.failTask d t causeHandler code)
        else if isFaultOrTrap code ∧ ¬ s4.vectorOn c code then .next (s4.failTask d t (faultCause t code causeFault) code)
        else
          match s4.freeImage d with
          | some i => .next (if s4.rowsBusy c t.spr then s4.after 6 .contextSave (.n c 1 0) else s4.saveInto c t i code)
          | none =>
            if code = 0x41 then .next (((s4.modCtx c (fun x => { x with preempt := false })).wake c).kickStreams c)
            else if code = 0x40 then .next (s4.after 600 .contextSave (.n c 1 0))
            else .next (s4.failTask d t causeImgPool (if code = 0x42 then 0 else code))
  | _ => .next s

/-! Restoring (R389). -/

/-- Puts a late write among the others at its cycle, by slot. -/
def lateInsert (w : Pend) : List Pend → List Pend
  | [] => [w]
  | x :: t => if w.land < x.land ∨ (w.land = x.land ∧ w.slot < x.slot) then w :: x :: t else x :: lateInsert w t

/-- A reference to a packet may land if its engine keeps the status of the packet, which has ended (R115). -/
def State.claimStatus (s : State) (c : Nat) : State :=
  s.modCtx c (fun x => { x with pend := x.pend.map (fun w =>
    match w.payload with
    | .cpyw en r => { w with arrived := (mapFind (s.cengine en).statuses r).isSome }
    | _ => w) })

/-- The parts of an image that a restore reads and checks before it writes anything (R389). -/
structure ImageParts where
  head : List Byte
  regs : List Byte
  seq : Snap
  snap : Option Snap
  entries : List Pend
  counters : List Byte
  rows : List Nat
  tiles : Table Tile
  ops : List MatOp

/-- Reads an image and checks it under R187, R289, R286 and R389; none where it is rejected or cannot be read. -/
def State.readImage (s : State) (d va spr : Nat) : State × Option ImageParts :=
  match s.readRun d va 0x400 with
  | (s1, none) => (s1, none)
  | (s1, some head) =>
  match s1.readRun d (va + 0x400) 0x77A0 with
  | (s2, none) => (s2, none)
  | (s2, some regs) =>
  match parseSeq ((head.drop 0x100).take 176), field regs 0x7790 8 with
  | none, _ => (s2, none)
  | some seq, n =>
  let armed := bit (wordAt head 0x60) 61
  let snap := if armed then
      (parseSeq ((head.drop 0x310).take 176)).map (fun x => { x with
        g := (List.range 7).map (fun j => wordAt head (0x3C0 + 8 * j)), fmt := wordAt head 0x3F8 })
    else none
  if 145 < n ∨ field regs 0x7798 8 ≠ 0 ∨ ¬ fmtOk (wordAt regs 0x7780) ∨ ¬ chkOk (wordAt regs 0x7788) ∨
      (armed ∧ snap.isNone) then (s2, none)
  else
  match s2.readEntries d n (va + 0x400 + 0x77A0) with
  | (s3, none) => (s3, none)
  | (s3, some entries) =>
  match s3.readRun d (va + 0x2F000) 432, inLandingOrder entries with
  | (s4, none), _ => (s4, none)
  | (s4, some _), false => (s4, none)
  | (s4, some counters), true =>
  match s4.readRun d (va + 0x30000) (2 * spr) with
  | (s5, none) => (s5, none)
  | (s5, some rb) =>
  let rows := (List.range spr).map (fun j => field rb (2 * j) 2)
  if rows.any rowEntryBad then (s5, none)
  else
  match s5.readTileArea d (va + 0x1C000) with
  | (s6, none) => (s6, none)
  | (s6, some (tiles, ops)) => (s6, some ⟨head, regs, seq, snap, entries, counters, rows, tiles, ops⟩)

/-- Reads the saved row data: none where some of it is uncorrectable (R390). -/
def State.readRows (s : State) (d va : Nat) : List (Nat × Nat) → State × Option (List (Nat × List Byte))
  | [] => (s, some [])
  | (j, w) :: t =>
    if (rowOf w).valid ∧ ¬ (rowOf w).poison then
      match s.readRun d (va + 0x100000 + 512 * j) 512 with
      | (s1, none) => (s1, none)
      | (s1, some bs) =>
        match s1.readRows d va t with
        | (s2, some l) => (s2, some ((j, bs) :: l))
        | (s2, none) => (s2, none)
    else s.readRows d va t

/-- Rewrites the row groups of an allocation from its row table and data (R152): a burst write cancels the requests that
wait (R149), and one that becomes invalid leaves the Lexicon (R143). -/
def State.writeRows (s : State) (d base : Nat) (rows : List (Nat × Nat)) (data : List (Nat × List Byte)) : State :=
  let s1 := data.foldl (fun u p => u.setLbytes d (base + 512 * p.1) p.2) s
  rows.foldl (fun u p =>
    let g := base / 512 + p.1
    let r := rowOf p.2
    (if r.valid then u.cancelRefresh d g else u.invalidate d g).setRg d g r) s1

/-- The context that an image's parts and its task give (R176, R184, R389). -/
def restoredCtx (p : ImageParts) (t : Task) (base now : Nat) : Ctx :=
  let x : Ctx := { Ctx.reset with
    pc := p.seq.pc, cycles := p.seq.cycles, wdc := p.seq.wdc, clkreq := p.seq.clkreq, loops := p.seq.loops,
    phase := .ready, priv := t.priv, tid := t.tid, doneMask := bits (wordAt p.head 0x10) 47 40, traps := t.traps,
    resident := now, snap := p.snap, spawnLand := t.spawnLand, later := t.later,
    arrivals := t.arrivals.filter (fun q => (field p.head 0x300 16).testBit q.1),
    queues := (List.range 8).map (fun n =>
      (n, parseQueue ((p.head.drop (0x200 + 32 * n)).take 32) base (field p.head 0x58 4) (mapFind t.streams n))) }
  let x1 := regsOf p.regs x
  let put (y : Ctx) (n : Nat) (v : W64) : Ctx := { y with ctl := mapPut y.ctl n v }
  let x2 := imageCtls.foldl (fun y q => put y q.1 (wordAt p.head q.2.1 &&& BitVec.ofNat 64 q.2.2)) x1
  let x3 := loopCtls.foldl (fun y q => put y q.1 (wordAt p.counters (q.2 - 0x2F000))) x2
  let x4 := put x3 0x068 (wordAt p.regs 0x7788)
  let ents := p.entries.zipIdx.map (fun q => { q.1 with land := q.1.land + x.cycles, pc := x.pc, seq := entryId q.2 })
  let late := t.late.map (fun w => { w with land := w.land + x.cycles })
  let all := late.foldl (fun m w => lateInsert w m) ents
  { x4 with pend := all }

/-- Numbers the pending writes of a restored context afresh. -/
def State.renumber (s : State) (c : Nat) : State :=
  let l := (s.ctx c).pend.map (fun w => w.seq)
  let s1 := s.modCtx c (fun x => { x with pend := x.pend.zipIdx.map (fun p => { p.1 with seq := s.seq + p.2 }) })
  let s2 := s1.foldIds (dieOf c) (s.ctx c).tid (renumbered l (fun j => s.seq + j))
  { s2 with seq := s2.seq + l.length }

/-- Has the streams of a restored context go on (R176). -/
def State.resumeStreams (s : State) (c : Nat) : State :=
  (s.ctx c).queues.foldl (fun u q =>
    if (q.2.stream.map (fun x => x.suspended)).getD false then u.after 600000 .streamRetry (.n c q.1 0) else u) (s.kickStreams c)

/-- Puts the tile records of an image into the residence image of the slot it takes, and shows their shapes (R285, R389);
false where they cannot be written. -/
def State.placeTiles (s : State) (c : Nat) (tiles : Table Tile) (ops : List MatOp) : State × Bool :=
  if tiles.isEmpty && ops.isEmpty then (s, true)
  else
    match s.resImage c with
    | none => (s, false)
    | some r =>
      match s.writeRun (dieOf c) (s.imageVa r + 0x1C000) (tileArea tiles ops) with
      | (s1, true) => ((s1.modCtx c (fun x => { x with resRecords := true })).mirrorShapes c tiles, true)
      | (s1, false) => (s1, false)

/-- Performs the writes of a restore once its image has been accepted (R389). -/
def State.restoreParts (s : State) (c : Nat) (t : Task) (i : Nat) (p : ImageParts) : State :=
  let d := dieOf c
  let base := coreOf c % 64 * 2 ^ 22 + c % 4 * 2 ^ 20
  let rows := p.rows.zipIdx.map (fun q => (q.2, q.1))
  match s.readRows d (s.imageVa i) rows with
  | (s1, none) => (s1.releaseSlot c).restartTask d { t with phase := .saved i } 0
  | (s1, some data) =>
    let s2 := s1.setCtx c (restoredCtx p t base s1.now)
    match s2.placeTiles c p.tiles p.ops with
    | (s3, false) => (s3.releaseSlot c).restartTask d { t with phase := .saved i } 0
    | (s3, true) =>
      let s4 := s3.writeRows d base rows data
      let s5 := (s4.modTask d t.tid (fun u => { u with
        traps := [], streams := [], arrivals := [], late := [], later := [], stopCode := 0 })).freeImg i
      let s6 := ((s5.renumber c).claimStatus c).resumeStreams c
      let s7 := p.rows.zipIdx.foldl (fun u q => u.limitRg d (base / 512 + q.2)) s6
      let s8 := s7.traceRec c 3 0 (s7.ctx c).pc 0 (s7.ctx c).cycles
      (match (s8.ctx c).later with
        | [] => s8
        | l => s8.settleLater c l).askAll.dueOnce .runningContextChange (.n (coreOf c) 0 0)

/-- CONTEXT_RESTORE into context a of task b from image c (R184, R389, R390), once no refresh of the rows it rewrites is in progress
(R149, R152). -/
def execContextRestore (s : State) : Result :=
  match s.ev with
  | .n c tid i =>
    let d := dieOf c
    match s.taskAt c with
    | none => .next s
    | some t0 =>
      if (s.ctx c).phase ≠ .restoring ∨ t0.tid ≠ tid then .next s
      else if s.rowsBusy c t0.spr then .next (s.after 6 .contextRestore (.n c tid i))
      else
        let holder := (s.cores.find? (fun p => decide (p.2.engine.owner = some tid))).map (·.1)
        let (s1, idle) := match holder with
          | some k =>
            if k = coreOf c then (s, true)
            else
              let r := ((s.modTask d tid (fun u => { u with phase := .saved i })).setCtx c
                { Ctx.reset with phase := .restoring }).flushOwner k
              (r.1, r.2.1)
          | none => (s, true)
        if !idle then
          .next (((s1.modTask d tid (fun u => { u with phase := .placed c })).modCtx c (fun x => { x with tid := tid })).after 6
            .contextRestore (.n c tid i))
        else
        match s1.task d tid with
        | none => .next (s1.releaseSlot c)
        | some t1 =>
          if t1.restarts ≠ t0.restarts then .next (s1.releaseSlot c)
          else
            let s2 := (s1.modTask d tid (fun u => { u with phase := .placed c })).modCtx c (fun x => { x with tid := tid })
            match s2.readImage d (s2.imageVa i) t1.spr with
            | (s3, none) => .next ((s3.releaseSlot c).restartTask d { t1 with phase := .saved i } 0)
            | (s3, some p) => .next (s3.restoreParts c t1 i p)
  | _ => .next s

/-! Handlers and dispositions (R383, R384). -/

/-- TRAP_HANDLER_START of die a for the held task b (R383): a task pinned to the core it stopped on, with the image's VA,
STOPINFO, CAUSEPC and TFADDR in g1 to g4; a service handler runs in privileged state. -/
def execTrapHandlerStart (s : State) : Result :=
  match s.ev with
  | .n d tid _ =>
    match s.task d tid with
    | none => .next s
    | some t =>
      match t.phase with
      | .held i =>
        match s.readRun d (s.imageVa i) 0x40 with
        | (s1, none) => .next (s1.restartTask d t 0)
        | (s1, some bs) =>
          let sys := decide (bits (wordAt bs 0x10) 7 0 = 0x31)
          let vec := if sys then s1.dieCtl d 0x1D1 else wordAt bs 0x28
          let h : Task :=
            { tid := s1.seq, kind := .trapHandler tid i, desc := 0, entry := bits vec 55 5 * 32,
              args := [BitVec.ofNat 64 (s1.imageVa i), wordAt bs 0x10, wordAt bs 0x18, wordAt bs 0x30], prio := t.eff,
              donated := 0, pin := some t.lastCore, anchor := none, spr := 0, cen := false, cnt := 0, home := d,
              launch := t.launch, launchId := t.launchId, didx := t.didx, reads := [], phase := .waiting,
              readyAt := s1.now, readySeq := s1.seq, patience := none, patienceOver := false, restarts := 0,
              lastCore := 0, lastSlot := 0, priv := sys, readInputs := false, asked := none, starved := 0, migrated := false, sig := none, folds := [], traps := [],
              spawnLand := 0, streams := [], arrivals := [], late := [], later := [], stopCode := 0 }
          .next (s1.addTask d h)
      | _ => .next s
  | _ => .next s

/-- Acts on the DISP word of a held image (R384, R390, R423). -/
def State.dispose (s : State) (d : Nat) (t : Task) (i : Nat) : State :=
  match s.readRun d (s.imageVa i) 0x58 with
  | (s1, none) => s1.restartTask d t 0
  | (s1, some bs) =>
    let disp := wordAt bs 0x50
    let code := bits (wordAt bs 0x10) 7 0
    match bits disp 1 0 with
    | 0 => (s1.modTask d t.tid (fun u => { u with stopCode := 0 })).readySaved d t.tid i
    | 1 => s1.restartTask d t code
    | _ => s1.failTask d t (faultCause t code (bits disp 15 8)) code

/-! Audits (R405). -/

/-- Compares a replay's signature with the first run's (R405). -/
def State.auditCompare (s : State) (d : Nat) (t : Task) (r : Nat) : State :=
  let p := s.partOf d
  match auditFind (s.part p).auditing r with
  | none => s
  | some x =>
    let sig := t.signature
    let w := s.partCtl p 0x1D6
    let w1 := setBits w 31 0 (bits w 31 0 + 1)
    let bad := decide (x.getD 1 0 ≠ sig)
    let s1 := s.setPartCtl p 0x1D6 (if bad then setBits w1 63 63 1 else w1)
    let s2 := s1.modPart p (fun y => { y with auditing := y.auditing.filter (fun z => decide (z.head? ≠ some r)) })
    if bad then s2.report 0x405 d ([x.getD 8 0, x.getD 2 0, d, x.getD 1 0, sig] ++ x.drop 7) else s2

/-- Gives a sampled step's signature to its record and has the replay start (R403, R404). -/
def State.auditHandOver (s : State) (d : Nat) (t : Task) : State :=
  match t.sig.map (fun _ => t.signature) with
  | none => s
  | some sig =>
    let p := s.partOf t.home
    match (s.part p).auditing.find? (fun x => decide (x.getD 3 0 = t.tid)) with
    | none => s
    | some x =>
      (s.modPart p (fun y => { y with auditing := y.auditing.map (fun z =>
        if z = x then [x.getD 0 0, sig, d] ++ x.drop 3 else z) })).due .auditReplayStart (.n p (x.getD 0 0) 0)

/-! The end of a context (R303). -/

/-- The completion actions of a task that has reached DONE (R303, R311, R384, R405). A task of a failed launch that runs on to
DONE completes as any other (R386, DEDUCED). -/
def State.finishTask (s : State) (d : Nat) (t : Task) : State :=
  match t.kind with
  | .replay r => (s.removeTask d t.tid).auditCompare d t r
  | .trapHandler of i =>
    let s1 := s.completeTask d t
    match s1.task d of with
    | some u => if u.phase = .held i then s1.dispose d u i else s1
    | none => s1
  | .step _ => (s.auditHandOver d t).completeTask d t
  | _ => s.completeTask d t

/-- Whether the residence image of a context's slot holds operations of it that have not completed (R285, R303). -/
def State.opsAway (s : State) (c : Nat) : State × Bool :=
  match (s.ctx c).resRecords && !s.owns c, s.resImage c with
  | true, some i =>
    match s.readVa (dieOf c) (s.imageVa i + 0x1C000) 8 with
    | (s1, some hb) => (s1, decide (bits (wordAt hb 0) 6 4 ≠ 0))
    | (s1, none) => (s1, false)
  | _, _ => (s, false)

/-- TASK_COMPLETION of context a (R303): once its replies are in and its matrix operations complete, a frozen cycle at a time, or
stopped by the deferred fault of one that is held. DEDUCED: where a change of owner has put operations into the residence image, the
context takes the engine again, since nothing else completes them. DEDUCED: that stop names DONE's bundle and marks its other slots
done, since they have taken effect and no slot is performed twice (R379); the mask of zero of R284 is that of a fault taken before
its bundle issues. -/
def execTaskCompletion (s : State) : Result :=
  match s.ev with
  | .n c _ _ =>
    if (s.ctx c).phase ≠ .done then .next s
    else if s.now < (s.core (coreOf c)).next then .next (s.at_ (s.core (coreOf c)).next .taskCompletion (.n c 0 0))
    else
      let k := coreOf c
      let e := s.eng k
      let (s1, away) := (s.leaveTags c).opsAway c
      let frozen (u : State) : State :=
        ((u.countFrozen c 1).modCore k (fun y => { y with held := some 0 })).afterCycles (dieOf c) (u.core k).cdiv 1
          .taskCompletion (.n c 0 0)
      if s.owns c && e.ops.any (fun o => o.held) then
        .next ((s1.modCtx c (fun x => { x with traps := x.traps.filter (fun t => decide (t.code ≠ 0x23)) })).stopCtx c
          (Stop.of 0x23) (s1.ctx c).pc (s1.ctx c).doneMask false)
      else if (s.owns c && !(e.ops.isEmpty && e.writes.isEmpty)) || s.repliesOut c then .next (frozen s1.stirLate)
      else if away then .next ((frozen s1).dueOnce .tileOwnerChange (.n c 0 0))
      else
        match s1.taskAt c with
        | none => .next (s1.dropCtx c)
        | some t => .next ((s1.dropCtx c).finishTask (dieOf c) t)
  | _ => .next s

end Sys2Proof.Machine
end

