-- ==== Sys2Proof/Machine/Phase.lean ====
section
/-! DEFINITION. PHASE (R304, R396), the Proofreader (R401 to R405) with the placement decision it watches, and checkpoint
epochs (R406 to R409). -/

namespace Sys2Proof.Machine

/-! PHASE. -/

/-- The snapshot of a phase (R396): g1 to g7, FMT and the sequencer record, whose PC is the next bundle. -/
def Ctx.takeSnap (x : Ctx) : Snap :=
  ⟨x.pc, x.cycles, x.wdc, x.clkreq, x.loops, (List.range 7).map (fun i => x.rg (i + 1)), x.fmt⟩

/-- PHASE: empty issue cycles pass until no write is pending; it is a pre-emption point, marks the run's inputs as read
(R390), and, with EN, begins a new phase (R304, R396). -/
def opPhase : SlotOp :=
  { afterOp [] (fun s =>
      let c := s.iss.ctx
      let s1 := (s.modTask (dieOf c) s.cx.tid (fun t => { t with readInputs := true })).atPoint
      let ph := s1.ctxCtl c 0x088
      if bit ph 63 then
        let ph1 := setBits (setBits (ph ^^^ BitVec.ofNat 64 (2 ^ 62)) 60 59 0) 61 61 1
        (s1.setCtxCtl c 0x088 ph1).modCtx c (fun x => { x with snap := some x.takeSnap })
      else s1) with
    empty := fun s => s.cx.pend.any (fun w => decide (s.iss.cycle < w.land)) }
/-- PHASE at issue (R304). -/
def execPhase (s : State) : Result := (opPhase).exec s

/-! Sampling and the log (R402, R403). -/

/-- What R402 hashes of a step: LAUNCHID, the parameter block's VA and the indices. -/
def Task.stepHash (t : Task) : W64 :=
  crc64 0 (leBytes 4 t.launchId ++ leBytes 8 t.desc ++ t.args.flatMap (fun a => leBytes 4 a.toNat))

/-- Whether a step is sampled (R402). -/
def State.sampled (s : State) (t : Task) : Bool :=
  let p := s.partCtl (s.partOf t.home) 0x1D5
  match t.kind with
  | .step _ => bit p 63 && decide (t.stepHash.toNat % 2 ^ bits p 62 59 = 0)
  | _ => false

/-- The local bytes that a step's read-tile entries name, as the Lexicon of its die places them: address and length. -/
def State.regions (s : State) (d : Nat) (t : Task) : List (Nat × Nat) :=
  t.reads.filterMap (fun e =>
    ((s.die d).lexicon.find? (fun l => e.names l)).map (fun l => (l.laddr, min e.bytes l.bytes)))

/-- Gives each region its place in a log record, from a VA on. -/
def placeRegions : Nat → List (Nat × Nat) → List (Nat × Nat × Nat)
  | _, [] => []
  | va, (a, n) :: t => (a, n, va) :: placeRegions (va + n) t

/-- The VA of a log record of a partition: 4 MiB each (R401). -/
def State.logVa (s : State) (p r : Nat) : Nat := bits (s.partCtl p 0x1D5) 55 22 * 2 ^ 22 + 2 ^ 22 * r

/-- Forgets the audits of steps that no longer exist. -/
def State.pruneAudits (s : State) (p : Nat) : State :=
  let live := s.allTasks.map (fun q => q.2.tid)
  s.modPart p (fun y => { y with auditing := y.auditing.filter (fun x =>
    decide (x.getD 1 0 < 2 ^ 64) || decide (x.getD 3 0 ∈ live)) })

/-- Writes the log record of a sampled step placed on context c, or counts it as skipped (R402, R403). -/
def State.logStep (s : State) (d : Nat) (t : Task) (c : Nat) : State :=
  let p := s.partOf t.home
  let s0 := (s.pruneAudits p).modPart p (fun y => { y with
    auditing := y.auditing.filter (fun x => decide (x.getD 3 0 ≠ t.tid)) })
  let used := (s0.part p).auditing.map (fun x => x.getD 0 0)
  let total := t.reads.foldl (fun n e => n + e.bytes) 0
  match (List.range (bits (s0.partCtl p 0x1D5) 15 0)).find? (fun r => decide (r ∉ used)) with
  | none => s0.skipAudit d
  | some r =>
    if 2 ^ 21 < total then s0.skipAudit d
    else
      let va := s0.logVa p r
      let regs := placeRegions (va + 2 ^ 21) (s0.regions d t)
      let bytes := regs.flatMap (fun x => s0.lbytes d x.1 x.2.1)
      match s0.writeRuns d va (s0.imageRuns c t 0 [] ++ [(0x1C000, zeros 8), (2 ^ 21, bytes)]) with
      | (s1, false) => s1.skipAudit d
      | (s1, true) =>
        let x := [r, 2 ^ 64, d, t.tid, t.home, coreOf c % 64, c % 4, t.desc, t.launchId, t.args.length] ++
          t.args.map (fun a => a.toNat) ++ regs.flatMap (fun y => [y.1, y.2.1, y.2.2])
        (s1.modPart p (fun y => { y with auditing := y.auditing ++ [x] })).modTask d t.tid (fun u => { u with sig := some 0, folds := [] })

/-- The sampled steps that a placement has just started, with their contexts. -/
def State.toLog (s : State) (before : State) (d : Nat) : List (Task × Nat) :=
  (s.die d).tasks.filterMap (fun t =>
    match t.phase with
    | .placed c =>
      if s.sampled t ∧ (before.task d t.tid).any (fun b => decide (b.phase = .waiting)) then some (t, c) else none
    | _ => none)

/-- Whether the log of a step that a placement would start reads a row group under refresh (R149). -/
def State.logBusy (s : State) (d : Nat) (p : Task × Nat) : Bool :=
  s.rowsBusy p.2 p.1.spr || (s.regions d p.1).any (fun r => (rgsOf r.1 r.2).any (s.inRefresh d))

/-- PLACEMENT_DECISION of die a (R322, R336): priorities are donated afresh, tasks are placed in order, sampled steps are
logged before they start (R403), and pre-emptions are asked for on every die that has no slot free. DESIGN CHOICE: where the log of
a step that would start reads a row group under refresh (R149), the decision is made again later; the manual does not say what waits
with the log. -/
def execPlacementDecision (s : State) : Result :=
  match s.ev with
  | .n d _ _ =>
    if !(s.die d).online then .next s
    else
    let s0 := s.redonate
    let s1 := s0.placeAll d (s0.waitingTasks d)
    let log := s1.toLog s0 d
    if log.any (s1.logBusy d) then .next (s.after 6 .placementDecision (.n d 0 0)) else
    let s2 := (log.foldl (fun u p => u.logStep d p.1 p.2) s1).askAll
    .next ((s2.die d).operators.foldl (fun u o =>
      if o.gate.isNone ∧ o.next.isSome then u.dueOnce .tileStepProduce (.n d o.id 0) else u) s2)
  | _ => .next s

/-! The engine's events, seen by a replay through its log (R283, R281, R404). -/

/-- A state change of a core's engine, seen as its owner sees local memory. -/
def State.seenByOwner (s : State) (k : Nat) (f : State → State) : State :=
  match (s.eng k).owner.bind (s.slotOfTid k) with
  | some c => s.seenBy c f
  | none => f s

/-- MATRIX_K_STEP of core a, operation b, block c (R283). -/
def execMatrixKStep (s : State) : Result :=
  match s.ev with
  | .n k id kb => .next (s.seenByOwner k (fun u => u.matrixStep k id kb))
  | _ => .next s

/-- MATRIX_OP_COMPLETE of core a, operation b (R281): the busy bit of its tile clears and the next begins. -/
def execMatrixOpComplete (s : State) : Result :=
  match s.ev with
  | .n k id _ => .next (s.seenByOwner k (fun u => u.matrixDone k id))
  | _ => .next s

/-! Replays (R404). -/

/-- The next live die of a partition after one of its dies, in logical order. -/
def State.nextDie (s : State) (p d : Nat) : Option Nat :=
  let ds := (s.part p).dies
  let i := (ds.findIdx? (fun x => decide (x = d))).getD 0
  ((ds.drop (i + 1)) ++ ds.take i).find? (fun x => (s.die x).online)

/-- The task that replays a step. -/
def replayTask (x : List Nat) (head : List Byte) (seq : W64) (r tid d c now : Nat) : Task :=
  { tid := tid, kind := .replay r, desc := x.getD 7 0, entry := seq.toNat, args := [], prio := 0, donated := 0,
    pin := some (x.getD 5 0), anchor := none, spr := field head 0x5C 4 % 4096, cen := false, cnt := 0, home := d,
    launch := none, launchId := x.getD 8 0, didx := 0xFFFF, reads := [], phase := .placed c, readyAt := now,
    readySeq := tid, patience := none, patienceOver := false, restarts := 0, lastCore := x.getD 5 0,
    lastSlot := x.getD 6 0, priv := false, readInputs := false, asked := none, starved := 0, migrated := false, sig := some 0, folds := [], traps := [],
    spawnLand := 0, streams := [], arrivals := [], late := [], later := [], stopCode := 0 }

/-- AUDIT_REPLAY_START of partition a, log record b (R404): the replay is loaded from the log on the same core and slot of
the next live die, once that slot is free. -/
def execAuditReplayStart (s : State) : Result :=
  match s.ev with
  | .n p r _ =>
    match auditFind (s.part p).auditing r with
    | none => .next s
    | some x =>
      match s.nextDie p (x.getD 4 0) with
      | none => .next ((s.dropAudit p r).skipAudit (x.getD 4 0))
      | some d =>
        let c := (d * 64 + x.getD 5 0) * 4 + x.getD 6 0
        if (s.ctx c).phase ≠ .free then .next (s.after 6000 .auditReplayStart (.n p r 0))
        else
          let va := s.logVa p r
          match s.readRun d va 0x400 with
          | (s1, none) => .next ((s1.dropAudit p r).skipAudit d)
          | (s1, some head) =>
            let t := replayTask x head (wordAt head 0x100) r s1.seq d c s1.now
            if s1.rowsBusy c t.spr then .next (s1.after 6 .auditReplayStart (.n p r 0))
            else
            match s1.readImage d va t.spr with
            | (s2, none) => .next ((s2.dropAudit p r).skipAudit d)
            | (s2, some parts) =>
              let base := coreOf c % 64 * 2 ^ 22 + c % 4 * 2 ^ 20
              let rows := parts.rows.zipIdx.map (fun q => (q.2, q.1))
              match s2.readRows d va rows with
              | (s3, none) => .next ((s3.dropAudit p r).skipAudit d)
              | (s3, some data) =>
                let s4 := (s3.modDie d (fun y => { y with tasks := y.tasks ++ [t] })).fresh
                let s5 := s4.setCtx c (restoredCtx parts t base s4.now)
                .next (((s5.writeRows d base rows data).dueOnce .runningContextChange (.n (coreOf c) 0 0)).lookPlacement)
  | _ => .next s

/-- Ends a replay at an operation that reaches outside its log (R404). -/
def State.endReplay (s : State) (c : Nat) : State :=
  match s.taskAt c with
  | some t =>
    match t.kind with
    | .replay _ => s.restartTask (dieOf c) t 0
    | _ => s
  | none => s

/-! Checkpoints (R406 to R409). -/

/-- The leaf entries of a page table with their VAs, sizes and places (R93). -/
def State.leaves (s : State) (d : Nat) : Nat → Nat → List (Nat × Nat × Bool × Nat) → List (Nat × Nat × Nat × Nat)
  | _, _, [] => []
  | base, va, (lo, n, leafOk, _) :: rest =>
    (List.range (2 ^ n)).flatMap (fun i =>
      let at_ := base + 8 * i
      let e := s.pte d at_
      if e % 2 = 0 then []
      else if e / 2 % 2 = 1 then (if leafOk then [(va + i * 2 ^ lo, lo, at_, e)] else [])
      else s.leaves d (e / 2 ^ 24 % 2 ^ 33 * 256) (va + i * 2 ^ lo) rest)

/-- The page-table roots of a partition's dies, each once, with a die that uses it. -/
def State.roots (s : State) (p : Nat) : List (Nat × Nat) :=
  (s.part p).dies.foldl (fun l d =>
    let r := s.dieCtl d 0x100
    let b := bits r 40 11 * 2 ^ 11
    if bit r 4 && l.all (fun q => decide (q.2 ≠ b)) then l ++ [(d, b)] else l) []

/-- The dirty leaf pages of a partition: the die whose tables hold each, VA, size, place of the entry, and the entry. -/
def State.dirtyPages (s : State) (p : Nat) : List (Nat × Nat × Nat × Nat × Nat) :=
  (s.roots p).flatMap (fun r => ((s.leaves r.1 r.2 0 ptLevels).filter (fun x => decide (x.2.2.2 / 2 ^ 9 % 2 = 1))).map
    (fun x => (r.1, x)))

/-- Has the next page of a partition's checkpoint streamed in the time that engine 3 of its home die takes at 256 bytes a copy
clock, or the final header at once. DESIGN CHOICE: the manual fixes no time. -/
def State.nextPage (s : State) (p : Nat) : State :=
  match (s.part p).pages with
  | [] => s.due .checkpointPageStream (.n p 0 0)
  | (_, lg, pa) :: _ =>
    let h := homeOf (s.pageKey p pa 0)
    s.afterCycles h (s.copyDiv h) (2 ^ lg / 256) .checkpointPageStream (.n p 0 0)

/-- Whether a write of a partition has issued and is not performed yet. -/
def State.writesOpen (s : State) (p : Nat) : Bool :=
  s.dies.any (fun x =>
    x.2.ports.any (fun r => r.served.isNone && r.store.isSome && decide (s.partOf (dieOfCore r.core) = p)) ||
    (decide (s.partOf x.1 = p) && x.2.atomics.any (fun r => decide (r.op ≠ 14)))) ||
  s.lateOps.any (fun o => !o.act.lines.isEmpty && !o.act.reads && decide (s.partOf o.die = p))

/-- CHECKPOINT_CUT of partition a (R407, R409), once every write that has issued is performed; the set is every dirty page; D
bits are cleared, every TLB drops the pages, and memory is kept as it stands, from which the stream is written. -/
def execCheckpointCut (s : State) : Result :=
  match s.ev with
  | .n p _ _ =>
    if !bit (s.partCtl p 0x1D8) 63 then .next s
    else
      if s.writesOpen p then .next (s.stirLate.after 6 .checkpointCut (.n p 0 0)) else
      let pages := s.dirtyPages p
      let s1 := pages.foldl (fun u x =>
        u.setMbytes ((List.range 8).map (fun i => u.paKey x.1 (x.2.2.2.1 + i)))
          (leBytes 8 (x.2.2.2.2 - 2 ^ 9))) s
      let gone (e : TlbEntry) : Bool := pages.all (fun x => decide (x.2.1 ≠ e.va))
      let s2 := (s1.part p).dies.foldl (fun u d => u.modDie d (fun y => { y with tlb := y.tlb.filter gone })) s1
      let s3 : State := { s2 with cores := s2.cores.map (fun q =>
        if dieOfCore q.1 ∈ (s1.part p).dies then (q.1, { q.2 with tlb := q.2.tlb.filter gone }) else q) }
      let st := s3.partCtl p 0x1D9
      let epoch := (bits st 31 0 + 1) % 2 ^ 32
      let s4 := (s3.setPartCtl p 0x1D9 (BitVec.ofNat 64 (2 ^ 63 + epoch))).setPartCtl p 0x1D8
        (setBits (s3.partCtl p 0x1D8) 63 63 0)
      .next ((s4.modPart p (fun y => { y with
        pages := pages.map (fun x => (x.2.1, x.2.2.1, x.2.2.2.2 / 2 ^ 14 % 16 * 2 ^ 41 + x.2.2.2.2 / 2 ^ 24 % 2 ^ 33 * 256)), stream := 0,
        atCut := s.mem })).nextPage p)
  | _ => .next s

/-- CHECKPOINT_PAGE_STREAM of partition a (R408): the next page's record, or the final header. -/
def execCheckpointPageStream (s : State) : Result :=
  match s.ev with
  | .n p _ _ =>
    let st := s.partCtl p 0x1D9
    let x := s.part p
    if !bit st 63 then .next s
    else
      let dest := bits (s.partCtl p 0x1D8) 55 12 * 2 ^ 12
      let size := 2 ^ bits (s.partCtl p 0x1D8) 5 0
      let epoch := bits st 31 0
      match x.pages with
      | [] =>
        if size < x.stream + 64 then .next (s.endEpoch p 2)
        else
          match s.writeRaw (x.dies.headD 0) true (dest + x.stream) (zeros 8 ++ leBytes 8 epoch ++ zeros 48) with
          | (s1, true) => .next (s1.endEpoch p 1)
          | (s1, false) => .next (s1.endEpoch p 3)
      | page :: _ =>
        let s1 := s.streamPage p page
        .next (if bit (s1.partCtl p 0x1D9) 63 then s1.nextPage p else s1)
  | _ => .next s

end Sys2Proof.Machine
end

