-- ==== Sys2Proof/Machine/Power.lean ====
section
/-! DEFINITION. The tick boundary (R134, R141, R325, R411, R413), the divisor floor (R410), droop (R415), core retention
(R416), the power firmware's watchdog (R419), and the time of samples (R427). -/

namespace Sys2Proof.Machine

/-! The floor and the divisors (R410, R417). -/

/-- BOOST of a die's bucket. -/
def State.boost (s : State) (d : Nat) : Bool := bit (s.dieCtl d 0x200) 63
/-- FWOK of a die (R419). -/
def State.fwok (s : State) (d : Nat) : Bool := bit (s.dieCtl d 0x202) 63

/-- The floor R410 gives a die now; never below 6 without the BOOST feature (R449). -/
def State.floorNow (s : State) (d : Nat) : Nat :=
  max (if s.boost d && bit (s.modCtl 0x232) 1 then 4 else 6) (match s.band d with | 5 => 7 | 6 => 8 | _ => 4)

/-- The cores of a die. -/
def coresOf (d : Nat) : List Nat := (List.range 64).map (fun i => d * 64 + i)

/-- Recomputes FLOOR, and has the copy clock and every core of the die follow a change (R410, R417). -/
def State.refloor (s : State) (d : Nat) : State :=
  let f := s.floorNow d
  if f = s.floorOf d then s
  else
    (coresOf d).foldl State.retime
      ((s.setDieCtl d 0x202 (setBits (s.dieCtl d 0x202) 58 56 (f - 2))).recopy d (s.copyDiv d))

/-- Sets BOOST, and the floor with it (R410). -/
def State.setBoost (s : State) (d : Nat) (b : Bool) : State :=
  if b = s.boost d then s
  else (s.setDieCtl d 0x200 (setBits (s.dieCtl d 0x200) 63 63 (if b then 1 else 0))).refloor d

/-- BAND_STEP_DOWN of die a (R141): after 100 ticks below the next band's limit less 3 °C, the band falls by one,
and FLOOR follows it at once (R410). -/
def execBandStepDown (s : State) : Result :=
  match s.ev with
  | .n d _ _ =>
    let b := s.band d
    if b = 0 ∨ (s.die d).bandTicks < 100 then .next s
    else .next ((((s.setBand d (b - 1)).modDie d (fun x => { x with bandTicks := 0 })).limitsAndMisses d [(b - 1, true)]).refloor d)
  | _ => .next s

/-! The bucket and the pressure cap (R411, R413). -/

/-- LEVEL and BOOST after a tick of power p, while the firmware runs (R411, R419). -/
def State.bucketTick (s : State) (d p : Nat) : State :=
  if !s.fwok d then s.setBoost d false
  else
    let w := s.dieCtl d 0x200
    let cap := bits w 11 0 * 1000
    let raw : Int := ((s.die d).level : Int) + (bits w 21 12 : Int) - (p : Int)
    let lvl := min raw.toNat cap
    let s1 := s.modDie d (fun x => { x with level := lvl })
    if lvl = 0 then s1.setBoost d false else if cap ≤ 8 * lvl then s1.setBoost d true else s1

/-- PCAP of a die. -/
def State.pcap (s : State) (d : Nat) : Nat := bits (s.dieCtl d 0x202) 50 48
/-- Sets PCAP. -/
def State.setPcap (s : State) (d n : Nat) : State := s.setDieCtl d 0x202 (setBits (s.dieCtl d 0x202) 50 48 n)

/-- PCAP after a tick of power p (R413): the first case that holds; the eighth consecutive quiet tick makes the rise due. -/
def State.pcapTick (s : State) (d p : Nat) : State :=
  let w := s.dieCtl d 0x200
  let sust := bits w 21 12
  let quiet (n : Nat) : State := s.modDie d (fun x => { x with pcapTicks := n })
  if bits w 31 22 < p then (quiet 0).setPcap d (max 1 (s.pcap d - 1))
  else if ¬ s.boost d ∧ sust < p then (quiet 0).setPcap d (max 2 (s.pcap d - 1))
  else if p + 16 < sust then
    let n := (s.die d).pcapTicks + 1
    if 8 ≤ n then (quiet n).dueOnce .pcapRaise (.n d 0 0) else quiet n
  else quiet 0

/-- PCAP_RAISE of die a (R413): one step after eight consecutive ticks, and the count begins again. -/
def execPcapRaise (s : State) : Result :=
  match s.ev with
  | .n d _ _ =>
    if (s.die d).pcapTicks < 8 then .next s
    else .next ((s.modDie d (fun x => { x with pcapTicks := 0 })).setPcap d (min 4 (s.pcap d + 1)))
  | _ => .next s

/-! The tick (R134). -/

/-- What a die advertises as TFREE (R325). -/
def State.tfree (s : State) (d : Nat) : Nat :=
  min 255 (s.freeSlots d - (s.die d).tasks.countP Task.waits)

/-- TFREE of every die reaches the dies of its partition (R325). -/
def State.advertise (s : State) : State :=
  { s with dies := s.dies.map (fun p =>
      let l := (s.part (s.partOf p.1)).dies.filter (fun x => (s.die x).online)
      (p.1, { p.2 with tfree := if p.2.part.isSome then l.foldl (fun t x => mapPut t x (s.tfree x)) [] else [] })) }

/-- The part of a tick that one online die does: limits, bands and the slice store, then power (R141, R139, R411, R413,
R410). -/
def State.dieTick (s : State) (d : Nat) : State :=
  if !(s.die d).online then s
  else
    let tick := s.now / 6000
    let p := Config.power d tick
    let s1 := s.lifeTick d (Config.temperature d tick % 256)
    let s2 := s1.setDieCtl d 0x202 (setBits (s1.dieCtl d 0x202) 47 32 (min p 65535))
    let s3 := (((s2.bucketTick d p).pcapTick d p).refloor d).starveTick d
    if (s3.overloaded d).isSome then s3.dueOnce .teamMigration (.n d 0 0) else s3

/-- TICK_BOUNDARY (R134): every valid row group ages, then each die's part, then TFREE is advertised. -/
def execTickBoundary (s : State) : Result :=
  .next ((allDies.foldl State.dieTick s.ageAll).advertise)

/-! Droop (R415). -/

/-- The reference ticks that a trip now adds to r ticks of cycles of period v, some of which an earlier trip may have
stretched already (R415). -/
def State.tripExtra (s : State) (d v r : Nat) : Nat :=
  let n := s.cyclesLeft d v r
  (min 6 n - min (s.stretchLeft d v) n) * v

/-- The die and the divisor of the clock domain that times an event, where one does: the matrix clock, the control clock, or
the copy clock (R16, R144, R251, R417). -/
def State.domainOf (s : State) (x : Due) : Option (Nat × Nat) :=
  let copy (d : Nat) : Option (Nat × Nat) := some (d, s.copyDiv d)
  match coreClock x with
  | some (k, m) => some (dieOfCore k, if m then (s.core k).mdiv else (s.core k).cdiv)
  | none =>
    match x.ev, x.arg with
    | .refreshComplete, .n k _ _ => copy (k - 4096)
    | .copyUnitWrite, .n en _ _ => copy (en / 4)
    | .copyPacketStart, .n en _ _ => copy (en / 4)
    | .atomicEnginePerform, .n d _ _ => copy d
    | .turretSlotStore, .n c _ _ => copy (dieOf c)
    | .checkpointPageStream, .n p _ _ =>
      ((s.part p).pages.head?).bind (fun g => copy (homeOf (s.pageKey p g.2.2 0)))
    | _, _ => none

/-- The time of a pending event once die d has tripped (R415): ticks and TSTAMP, and what no clock of the die times, keep
theirs. -/
def State.tripTime (s : State) (d t : Nat) (x : Due) : Nat :=
  match s.domainOf x with
  | some (y, v) => if y = d then t + s.tripExtra d v (t - s.now) else t
  | none => t

/-- The reference ticks that a trip adds to a core's wait for its next issue (R415): what the matrix clock or the control clock
times of it is stretched, and a pause or an exit from retention at its end is not. -/
def State.tripWait (s : State) (d : Nat) (x : Core) : Nat :=
  let r := x.next - s.now - min x.pause (x.next - s.now)
  let m := min (x.matrixWait - s.now) r
  if 0 < m then s.tripExtra d x.mdiv m else s.tripExtra d x.cdiv r

/-- The cycles of a core's last issue that have not passed, once a trip has stretched them (R415, R427). -/
def State.tripIssued (s : State) (d : Nat) (x : Core) : Issued :=
  let moved (t : Nat) : Nat := if t ≤ s.now then t else t + s.tripExtra d x.cdiv (t - s.now)
  { x.issued with cycle := moved x.issued.cycle, stop := moved x.issued.stop }

/-- DROOP_TRIP of die a (R415): the next six cycles of its clocks take twice their period; a trip during either phase begins
both anew. -/
def execDroopTrip (s : State) : Result :=
  match s.ev with
  | .n d _ _ =>
    if !bit (s.dieCtl d 0x201) 63 then .next s
    else
      let w := s.dieCtl d 0x202
      let s1 := s.setDieCtl d 0x202 (setBits (setBits w 16 16 1) 15 0 (min (bits w 15 0 + 1) 65535))
      let s2 := (coresOf d).foldl (fun u k => u.modCore k (fun x => { x with
        next := x.next + s.tripWait d x, matrixWait := x.matrixWait + s.tripWait d x, droop := 0, issued := s.tripIssued d x })) s1
      let s3 := s2.retimeTimers (s.tripTime d)
      let vs := ((coresOf d).map (fun k => (s.core k).cdiv)).eraseDups
      let top := vs.foldl max 0
      let all := (coresOf d).foldl (fun n k => max n (max (s.core k).vdiv (s.core k).mdiv)) (max top (s.copyDiv d))
      .next ((vs.foldl (fun u v => u.after (12 * v) .droopStretchEnd (.n d (s.now + 1) (if v = top then 0 else v)))
        (s3.modDie d (fun x => { x with
          droopStretch := s.now + 1, droopFreeze := 0, clock := x.clock.rebase (s.copyDiv d) s.now true }))).after
        (12 * all) .droopStretchEnd (.n d (s.now + 1) 1))
  | _ => .next s

/-- DROOP_STRETCH_END of die a, trip b, for its cores of divisor c, or for all that are left with c zero (R415): each follows
each of its next 64 bundles with a frozen cycle. With c 1 the slowest clock of the die has had its six cycles. -/
def execDroopStretchEnd (s : State) : Result :=
  match s.ev with
  | .n d stamp v =>
    if (s.die d).droopStretch ≠ stamp ∨ stamp = 0 then .next s
    else if v = 1 then .next (s.modDie d (fun x => { x with droopStretch := 0 }))
    else
      let s1 := (coresOf d).foldl (fun u k => u.modCore k (fun x =>
        if v = x.cdiv ∨ (v = 0 ∧ x.droop = 0) then { x with droop := 64 } else x)) s
      .next (if v = 0 then s1.modDie d (fun x => { x with droopFreeze := 1 }) else s1)
  | _ => .next s

/-- DROOP_FREEZE_END of core a (R415): the die's second phase is over once no core has halved bundles left. -/
def execDroopFreezeEnd (s : State) : Result :=
  match s.ev with
  | .n k _ _ =>
    let d := dieOfCore k
    if (coresOf d).all (fun x => decide ((s.core x).droop = 0)) then
      .next (s.modDie d (fun x => { x with droopFreeze := 0 }))
    else .next s
  | _ => .next s

/-! Retention (R391, R416). -/

/-- Whether a core has work of its own outstanding: a direct-path tag, a matrix operation that is not held, or a tile write
(R416). -/
def Core.working (x : Core) : Bool :=
  !x.tags.isEmpty || !x.engine.writes.isEmpty || (x.engine.ops.head?.map (fun o => !o.held)).getD false

/-- Whether a core may enter retention now: enabled, nothing runs or is ready, and nothing of it is outstanding (R416). -/
def State.mayRetain (s : State) (k : Nat) : Bool :=
  let x := s.core k
  bit (s.dieCtl (dieOfCore k) 0x203) 63 && x.running.isNone && !x.retention && !x.working &&
  [0, 1, 2, 3].all (fun i =>
    let c := s.ctx (k * 4 + i)
    (decide (c.phase = .free) || c.phase.waiting || decide (c.phase = .waitRefetch)) && !c.preempt && c.traps.isEmpty)

/-- RETENTION_ENTRY of core a, whose conditions have held since b (R416): after IDLE ns of them the owner's tiles go to its
residence image and the core's state to retention elements. While work of the core is outstanding the conditions are looked at
again each ns, and their time begins anew; the other conditions begin it by events of their own. -/
def execRetentionEntry (s : State) : Result :=
  match s.ev with
  | .n k since _ =>
    let x := s.core k
    let anew (u : State) : Result :=
      .next ((u.modCore k (fun y => { y with idleSince := u.now })).after 6 .retentionEntry (.n k u.now 0))
    if x.idleSince ≠ since ∨ x.running.isSome ∨ x.retention then .next s
    else if x.working then anew s
    else if !s.mayRetain k then .next s
    else if s.now < since + s.idleTicks (dieOfCore k) then
      .next (s.at_ (since + s.idleTicks (dieOfCore k)) .retentionEntry (.n k since 0))
    else
      match s.flushOwner k with
      | (s1, true, _) => .next (s1.modCore k (fun y => { y with retention := true }))
      | (s1, false, _) => anew s1
  | _ => .next s

/-- A context whose parity does not match at the exit is lost: LOST is set and its task restarts (R391). -/
def State.loseCtx (s : State) (c : Nat) : State :=
  let d := dieOf c
  if (s.ctx c).phase = .free then s
  else
    let s1 := s.setDieCtl d 0x203 (s.dieCtl d 0x203 ||| BitVec.ofNat 64 (2 ^ 62))
    match s1.taskAt c with
    | some t => s1.restartTask d t 0
    | none => s1.dropCtx c

/-- RETENTION_EXIT of core a, the contexts of mask b found with a parity mismatch (R391, R416): 300 ns pass. -/
def execRetentionExit (s : State) : Result :=
  match s.ev with
  | .n k mask _ =>
    if !(s.core k).retention then .next s
    else
      let s1 := s.modCore k (fun x => { x with retention := false, next := max x.next s.now + 1800, pause := 1800 })
      let s2 := [0, 1, 2, 3].foldl (fun u i => if mask.testBit i then u.loseCtx (k * 4 + i) else u) s1
      .next (s2.dueOnce .runningContextChange (.n k 0 0))
  | _ => .next s

/-! The power firmware (R419). -/

/-- Sets FWOK, and FROZEN of the bucket against it. -/
def State.setFwok (s : State) (d : Nat) (b : Bool) : State :=
  let s1 := s.setDieCtl d 0x202 (setBits (s.dieCtl d 0x202) 63 63 (if b then 1 else 0))
  s1.setDieCtl d 0x200 (setBits (s1.dieCtl d 0x200) 62 62 (if b then 0 else 1))

/-- The power firmware signals its watchdog: FWOK is set, and the next signal is due within 10 ms (R419). -/
def State.fwSignal (s : State) (d : Nat) : State :=
  (((s.setFwok d true).modDie d (fun x => { x with fwSignal := s.seq + 1 })).fresh).after 60000000
    .firmwareWatchdogExpiry (.n d (s.seq + 1) 0)

/-- POWER_FIRMWARE_WATCHDOG_SIGNAL of die a (R419): FWOK is set, and the next signal is due within 10 ms. -/
def execPowerFirmwareWatchdogSignal (s : State) : Result :=
  match s.ev with
  | .n d _ _ => .next (s.fwSignal d)
  | _ => .next s

/-- FIRMWARE_WATCHDOG_EXPIRY of die a, signal b (R419): FWOK is cleared, and BOOST with it. -/
def execFirmwareWatchdogExpiry (s : State) : Result :=
  match s.ev with
  | .n d stamp _ => .next (if (s.die d).fwSignal = stamp then (s.setFwok d false).setBoost d false else s)
  | _ => .next s

/-- POWER_FIRMWARE_UPDATE_START of die a (R419): the firmware clears FWOK itself. -/
def execPowerFirmwareUpdateStart (s : State) : Result :=
  match s.ev with
  | .n d _ _ => .next (((s.setFwok d false).modDie d (fun x => { x with fwSignal := 0 })).setBoost d false)
  | _ => .next s

/-- The temperature a die shows. -/
def State.tempOf (s : State) (d : Nat) : Nat := bits (s.dieCtl d 0x180) 15 8

/-- THERMAL_EMERGENCY (R418): the online die of the highest temperature goes offline, the lowest number first. -/
def execThermalEmergency (s : State) : Result :=
  match allDies.filter (fun d => (s.die d).online) with
  | [] => .next s
  | d :: rest =>
    .next (s.due .dieLoss (.n (rest.foldl (fun b x => if s.tempOf b < s.tempOf x then x else b) d) 0 0))

/-- The time, in reference ticks, of a die's next sample (R427). -/
def State.nextSample (s : State) (d : Nat) : Nat :=
  let p := 6 * 2 ^ bits (s.dieCtl d 0x210) 11 6
  (s.now / p + 1) * p

end Sys2Proof.Machine
end

