-- ==== Sys2Proof/Machine/Collective.lean ====
section
/-! DEFINITION. The link tables (R359, R436), the pod table (R360), the trees of a collective (R361 to R363), collective
packets (R364 to R367), chunks and their reduction (R368 to R371), and falls (R372, R373). -/

namespace Sys2Proof.Machine

/-! Links (R9, R359, R436). -/

/-- Whether a logical die, seen from die d, is live. -/
def State.logDieLive (s : State) (d l : Nat) : Bool :=
  match s.phys d l with
  | some p => s.dieLive p
  | none => false
/-- Whether a logical link, seen from die d, reads live (R436). -/
def State.logLinkLive (s : State) (d l : Nat) : Bool :=
  let (a, b) := linkEnds l
  match s.phys d a, s.phys d b with
  | some p, some _ => s.linkLive (if l < 64 then p else 64 + p)
  | _, _ => false

/-! Trees (R361 to R363). -/

/-- An edge of the graph: its number and its two ends. -/
abbrev GraphEdge := Nat × Nat × Nat

/-- A tree as it grows: its vertices, its edges in the order they were added, and whether it is active. -/
structure Growing where
  verts : List Nat
  edges : List TreeEdge
  active : Bool
deriving DecidableEq, Repr

/-- The lowest-numbered unused edge with one end in the tree, directed away from the root (R362, R363). -/
def growEdge (es : List GraphEdge) (used verts : List Nat) : Option TreeEdge :=
  es.findSome? (fun e =>
    if e.1 ∈ used then none
    else if e.2.1 ∈ verts ∧ e.2.2 ∉ verts then some ⟨e.1, e.2.2, e.2.1⟩
    else if e.2.2 ∈ verts ∧ e.2.1 ∉ verts then some ⟨e.1, e.2.1, e.2.2⟩
    else none)

/-- One pass of BUILD over the trees, in ascending order (R362). -/
def buildPass (es : List GraphEdge) (n : Nat) : List Growing → List Nat → List Growing × List Nat
  | [], used => ([], used)
  | g :: rest, used =>
    if !g.active then
      let r := buildPass es n rest used
      (g :: r.1, r.2)
    else
      match growEdge es used g.verts with
      | none =>
        let r := buildPass es n rest used
        ({ g with active := false } :: r.1, r.2)
      | some e =>
        let vs := e.child :: g.verts
        let r := buildPass es n rest (e.link :: used)
        (⟨vs, g.edges ++ [e], decide (vs.length < n)⟩ :: r.1, r.2)

/-- The passes of BUILD while a tree is active. -/
def buildLoop (es : List GraphEdge) (n : Nat) : Nat → List Growing → List Nat → List Growing
  | 0, gs, _ => gs
  | fuel + 1, gs, used =>
    if gs.any (fun g => g.active) then
      let r := buildPass es n gs used
      buildLoop es n fuel r.1 r.2
    else gs

/-- BUILD(k) over n vertices (R362): the trees that span. -/
def buildTrees (es : List GraphEdge) (n root k : Nat) : List (List TreeEdge) :=
  ((buildLoop es n (es.length + k + 1) (List.replicate k ⟨[root], [], true⟩) []).filter
    (fun g => decide (g.verts.length = n))).map (fun g => g.edges)

/-- The build that spans most often, a tie keeping the larger k (R362). -/
def bestTrees (es : List GraphEdge) (n root kmax : Nat) : List (List TreeEdge) :=
  (List.range kmax).foldl (fun best i =>
    let b := buildTrees es n root (kmax - i)
    if best.length < b.length then b else best) []

/-- Whether a link belongs to tree A of Table 19-3. -/
def healthyA (l : Nat) : Bool :=
  if l < 64 then decide (l % 9 ≠ 0) else decide ((l - 64) % 9 = 0 ∧ (l - 64) / 9 < 7)
/-- Whether a link belongs to tree B of Table 19-3. -/
def healthyB (l : Nat) : Bool :=
  if l < 64 then decide (l % 9 = 0 ∧ l / 9 < 7) else decide ((l - 64) % 9 ≠ 0)

/-- The links of a package with their ends. -/
def pkgEdges : List GraphEdge := (List.range 128).map (fun l => (l, (linkEnds l).1, (linkEnds l).2))

/-! The pod table (R360). -/

/-- Inserts an edge by its number. -/
def edgeInsert (e : GraphEdge) : List GraphEdge → List GraphEdge
  | [] => [e]
  | x :: t => if e.1 < x.1 then e :: x :: t else if e.1 = x.1 then x :: t else x :: edgeInsert e t

/-- The live pod links whose two ends are both among some modules, by number (R362). -/
def State.podEdges (s : State) (d : Nat) (mods : List Nat) : State × List GraphEdge :=
  mods.foldl (fun u m =>
    let r := u.1.podLinks d m
    (r.1, (r.2.filter (fun l => l.2.2 && decide (l.2.1 ∈ mods))).foldl
      (fun es l => edgeInsert (l.1, min m l.2.1, max m l.2.1) es) u.2)) (s, [])

/-- Whether a module is lost: every pod link it has reads down (R373). -/
def State.moduleLost (s : State) (d m : Nat) : State × Bool :=
  let r := s.podLinks d m
  (r.1, !r.2.isEmpty && r.2.all (fun l => !l.2.2))

/-- Clears the bits of some pod links in the live bitmap (R360). -/
def State.podFall (s : State) (d : Nat) (js : List Nat) : State :=
  js.foldl (fun u j =>
    match u.readVa d (u.podVa + 32768 + j / 8) 1 with
    | (s1, some (b :: _)) =>
      (s1.writeVa d (s1.podVa + 32768 + j / 8) [b &&& ~~~(BitVec.ofNat 8 (2 ^ (j % 8)))]).1
    | (s1, _) => s1) s

/-! The packet (Table 19-4). -/

/-- Word n of the packet. -/
def Collective.w (c : Collective) (n : Nat) : W64 := c.words.getD n 0
/-- SCOPE: whether the operation spans the pod. -/
def Collective.pod (c : Collective) : Bool := bit (c.w 0) 29
/-- OP. -/
def Collective.op (c : Collective) : Nat := bits (c.w 0) 14 12
/-- RED. -/
def Collective.red (c : Collective) : Nat := bits (c.w 0) 17 15
/-- SFMT. -/
def Collective.sfmt (c : Collective) : Nat := bits (c.w 0) 21 18
/-- DFMT. -/
def Collective.dfmt (c : Collective) : Nat := bits (c.w 0) 25 22
/-- NELEM. -/
def Collective.nelem (c : Collective) : Nat := bits (c.w 3) 39 0
/-- MSTRIDE. -/
def Collective.mstride (c : Collective) : Int := (c.w 4).toInt
/-- The member dies of a module (MEMBERS). -/
def Collective.dies (c : Collective) : List Nat := (List.range 64).filter (fun i => bit (c.w 5) i)
/-- How many chunks the operation has (R368). -/
def Collective.nchunks (c : Collective) : Nat := (c.nelem + 65535) / 65536
/-- The elements of a chunk. -/
def Collective.chunkLen (c : Collective) (k : Nat) : Nat := min 65536 (c.nelem - k * 65536)
/-- The VA of a chunk's mark. -/
def Collective.markVa (c : Collective) (k : Nat) : Nat := ((c.w 7).toNat + k) % 2 ^ 64
/-- The VA of a chunk in the region of logical die l. -/
def Collective.at_ (c : Collective) (base : W64) (l k size : Nat) : Nat :=
  addrPlus base ((l : Int) * c.mstride + ((k * 65536 * size : Nat) : Int))
/-- The chunk's input at die l. -/
def Collective.srcAt (c : Collective) (l k : Nat) : Nat := c.at_ (c.w 1) l k (codeSize c.sfmt)
/-- The chunk's output at die l. -/
def Collective.dstAt (c : Collective) (l k : Nat) : Nat := c.at_ (c.w 2) l k (codeSize c.dfmt)
/-- The tree a chunk runs on (R368). -/
def Collective.tree (c : Collective) (k : Nat) : List TreeEdge := c.trees.getD (k % max c.trees.length 1) []
/-- The vertices that remain. -/
def Collective.vertices (c : Collective) : List Nat := (c.members.filter (fun m => !m.lost)).map (fun m => m.vertex)

/-- The physical die whose Belfry performs an operation queued at die d. -/
def State.belfry (s : State) (d : Nat) (c : Collective) : Nat := (s.phys d c.rootDie).getD d
/-- Whether two byte ranges overlap. -/
def rangesMeet (a b : Int) (m n : Nat) : Bool := decide (a < b + (n : Int) ∧ b < a + (m : Int))

/-- Whether an input region overlaps an output region, over the member dies (R366). -/
def Collective.overlap (c : Collective) : Bool :=
  let at_ (x : W64) (l : Nat) : Int := (x.toNat : Int) + (l : Int) * c.mstride
  c.dies.any (fun i => c.dies.any (fun j =>
    rangesMeet (at_ (c.w 1) i) (at_ (c.w 2) j) (c.nelem * codeSize c.sfmt) (c.nelem * codeSize c.dfmt)))

/-- Whether the formats and operators match (R366). -/
def Collective.formatsOk (c : Collective) : Bool :=
  let fl (f : Nat) : Bool := decide (f = 0 ∨ f = 2)
  let int := decide (c.sfmt = 9 ∧ c.dfmt = 9)
  if c.op = 2 then decide (c.red = 0) && (int || (fl c.sfmt && fl c.dfmt))
  else if c.red = 3 then int
  else fl c.sfmt && fl c.dfmt

/-- The refusals of R366 that need no access. -/
def Collective.malformed (c : Collective) : Bool :=
  let h := c.w 0
  let ss := codeSize c.sfmt
  let ds := codeSize c.dfmt
  decide (bits h 11 8 ≠ 1) || decide (bits h 63 50 ≠ 0) || bit h 31 || decide (2 < c.op) || decide (3 < c.red) ||
  decide (bits (c.w 1) 63 56 ≠ 0) || decide (bits (c.w 2) 63 56 ≠ 0) || decide (bits (c.w 3) 63 49 ≠ 0) ||
  decide (bits (c.w 6) 63 56 ≠ 0) || decide (bits (c.w 7) 63 56 ≠ 0) || decide (c.nelem = 0) ||
  (!c.pod && (decide (bits (c.w 3) 48 40 ≠ 0) || decide (c.w 6 ≠ 0))) ||
  !c.formatsOk || decide (4 < bits h 28 26) ||
  decide ((c.w 1).toNat % max ss 1 ≠ 0) || decide ((c.w 2).toNat % max ds 1 ≠ 0) ||
  decide (c.mstride % ((max ss ds : Nat) : Int) ≠ 0) ||
  decide ((c.w 6).toNat % 64 ≠ 0) || decide ((c.w 7).toNat % 64 ≠ 0) ||
  !bit (c.w 5) (bits h 49 44) || c.overlap

/-! Records. -/

/-- A collective of a die. -/
def State.coll (s : State) (d id : Nat) : Option Collective :=
  (s.die d).collectives.find? (fun c => decide (c.id = id))
/-- Changes a collective. -/
def State.modColl (s : State) (d id : Nat) (f : Collective → Collective) : State :=
  s.modDie d (fun x => { x with collectives := x.collectives.map (fun c => if c.id = id then f c else c) })

/-- Ends an operation with a code, if it has not ended. -/
def State.endColl (s : State) (d id code : Nat) : State :=
  match s.coll d id with
  | none => s
  | some c =>
    if c.ending.isSome then s
    else (s.modColl d id (fun x => { x with ending := some code })).dueOnce .collectiveCompletion (.n d id 0)

/-! Accesses (R370, R373). -/

/-- The places of a run of bytes of a region, translated for die d; none at a translation fault. -/
def State.regionKeys (s : State) (d : Nat) (a : Acc) : Nat → Nat → Nat → State × Option (List Nat)
  | 0, _, _ => (s, some [])
  | fuel + 1, va, n =>
    if n = 0 then (s, some [])
    else
      match s.span d none va (min n 512) a with
      | (s1, .bad _ _ _) => (s1, none)
      | (s1, .ok ks _) =>
        match s1.regionKeys d a fuel (va + 512) (n - 512) with
        | (s2, some more) => (s2, some (ks ++ more))
        | (s2, none) => (s2, none)

/-- The places of a run, or the code that ends the operation; the regions of a lost die may not be homed at a lost die
(R373). -/
def State.regionAt (s : State) (d : Nat) (lost : Bool) (va n : Nat) (a : Acc) : State × Except Nat (List Nat) :=
  match s.regionKeys d a (n / 512 + 1) va n with
  | (s1, none) => (s1, .error 0x29)
  | (s1, some ks) => (s1, if lost && ks.any (fun k => !s1.dieLive (homeOf k)) then .error 0x27 else .ok ks)

/-- The die that accesses the regions of logical die l: itself, or the root's Belfry for a lost die and at POD scope (R370,
R373), with whether the die is lost. -/
def State.accessor (s : State) (d : Nat) (c : Collective) (l : Nat) : Nat × Bool :=
  let b := s.belfry d c
  let lost := !s.logDieLive d l || c.members.any (fun m => !c.pod && decide (m.vertex = l) && m.lost)
  (if c.pod || lost then b else (s.phys d l).getD b, lost)

/-- Whether some byte of a region that translates is homed at a lost die. -/
def State.runLost (s : State) (b : Nat) : Nat → Nat → Nat → State × Bool
  | 0, _, _ => (s, false)
  | fuel + 1, va, n =>
    if n = 0 then (s, false)
    else
      match s.span b none va (min n 512) .read with
      | (s1, .ok ks _) =>
        if ks.any (fun k => !s1.dieLive (homeOf k)) then (s1, true) else s1.runLost b fuel (va + 512) (n - 512)
      | (s1, .bad _ _ _) => s1.runLost b fuel (va + 512) (n - 512)

/-- Whether some byte of a lost member die's input or output region is homed at a lost die (R373). A page that the agent may not
read is left to the access itself. -/
def State.homesLost (s : State) (d : Nat) (c : Collective) : State × Bool :=
  if c.pod then (s, false)
  else
    ((c.members.filter (fun m => m.lost)).map (fun m => m.vertex)).foldl (fun u l =>
      if u.2 then u
      else
        let b := u.1.belfry d c
        let n := c.nelem * codeSize c.sfmt
        match u.1.runLost b (n / 512 + 1) (c.srcAt l 0) n with
        | (s1, true) => (s1, true)
        | (s1, false) =>
          let m := c.nelem * codeSize c.dfmt
          s1.runLost b (m / 512 + 1) (c.dstAt l 0) m) (s, false)

/-- The elements that some bytes of a source hold (R370). -/
def collElems (fmt : Nat) : Nat → List Byte → List Elem
  | 0, _ => []
  | n + 1, bs =>
    let x := leNat (bs.take (codeSize fmt))
    (if fmt = 2 then ⟨widen bf16 x, false⟩ else ⟨BitVec.ofNat 32 x, false⟩) :: collElems fmt n (bs.drop (codeSize fmt))

/-- The chunk's input elements of logical die l. -/
def State.collInput (s : State) (d : Nat) (c : Collective) (k l : Nat) : State × Except Nat (List Elem) :=
  let (by_, lost) := s.accessor d c l
  let n := c.chunkLen k
  match s.regionAt by_ lost (c.srcAt l k) (n * codeSize c.sfmt) .read with
  | (s1, .error e) => (s1, .error e)
  | (s1, .ok ks) =>
    (s1, if s1.uncorr ks then .error 0x21 else .ok (collElems c.sfmt n (s1.mbytes ks)))

/-- The inputs of some dies, in order. -/
def State.collInputs (s : State) (d : Nat) (c : Collective) (k : Nat) : List Nat → State × Except Nat (List (List Elem))
  | [] => (s, .ok [])
  | l :: rest =>
    match s.collInput d c k l with
    | (s1, .error e) => (s1, .error e)
    | (s1, .ok x) =>
      match s1.collInputs d c k rest with
      | (s2, .ok xs) => (s2, .ok (x :: xs))
      | (s2, .error e) => (s2, .error e)

/-- Writes the chunk's output of logical die l. -/
def State.collOutput (s : State) (d : Nat) (c : Collective) (k l : Nat) (bs : List Byte) : State × Except Nat Unit :=
  let (by_, lost) := s.accessor d c l
  match (s.streamFor by_ (c.dstAt l k) bs.length).regionAt by_ lost (c.dstAt l k) bs.length .write with
  | (s1, .error e) => (s1, .error e)
  | (s1, .ok ks) => ((s1.portWrite ks bs).1, .ok ())

/-- Writes one output to several dies, in order. -/
def State.collOutputs (s : State) (d : Nat) (c : Collective) (k : Nat) (bs : List Byte) : List Nat → State × Except Nat Unit
  | [] => (s, .ok ())
  | l :: rest =>
    match s.collOutput d c k l bs with
    | (s1, .ok _) => s1.collOutputs d c k bs rest
    | (s1, .error e) => (s1, .error e)

/-! Reduction (R370). -/

/-- An element of a vertex's partial from its own inputs and its children's partials. -/
def partialElem (red : Nat) (l : List Elem) : Elem :=
  let e := (reduceLanes red l).1
  if red = 0 then ⟨e.val, e.s || l.any (fun x => x.s)⟩ else e

/-- Element i of each of some lists, for every i below n. -/
def columns (n : Nat) (ls : List (List Elem)) : List (List Elem) :=
  ls.foldr (fun l acc => List.zipWith (fun x xs => x :: xs) l acc) (List.replicate n [])

/-- An output element's bytes, and whether it counts as inexact: S = 1, or changed by its final rounding (R370, R367). -/
def collOut (fmt rm : Nat) (e : Elem) : List Byte × Bool :=
  match numFmt fmt with
  | .float f =>
    let v := fval e
    let y := finFloat f ((rmode rm).getD .rne) v
    (leBytes (codeSize fmt) y, e.s || !(decide (v = .nan) || FVal.eqv (f.decode y) v))
  | _ => (leBytes 4 e.val.toNat, e.s)

/-- The output bytes of a chunk, and whether some element is inexact. -/
def Collective.outBytes (c : Collective) (l : List Elem) : List Byte × Bool :=
  let r := l.map (collOut c.dfmt (bits (c.w 0) 28 26))
  (r.flatMap (fun x => x.1), r.any (fun x => x.2))

/-- The dies whose inputs are a vertex's own (R370): its die, and at the root the lost member dies (R373); at POD scope the
member dies of this module. -/
def Collective.ownDies (c : Collective) (v : Nat) : List Nat :=
  if c.pod then c.dies
  else v :: (if v = c.root then (c.members.filter (fun m => m.lost)).map (fun m => m.vertex) else [])

/-- Where the partial of a vertex for a chunk stands. -/
def partialKey (k v : Nat) : Nat := k * 1024 + v

/-- The partials of a vertex's children for a chunk. -/
def Collective.kids (c : Collective) (k v : Nat) : List (List Elem) :=
  ((c.tree k).filter (fun e => decide (e.parent = v))).map (fun e => mapGet [] c.partials (partialKey k e.child))

/-- The partial a vertex forms (R370). -/
def State.vertexPartial (s : State) (d : Nat) (c : Collective) (k v : Nat) : State × Except Nat (List Elem) :=
  match s.collInputs d c k (c.ownDies v) with
  | (s1, .error e) => (s1, .error e)
  | (s1, .ok own) => (s1, .ok ((columns (c.chunkLen k) (own ++ c.kids k v)).map (partialElem c.red)))

/-- Whether a vertex has what its step needs: the partials of all its children, whole; at POD scope only this module's vertex
steps here. -/
def State.vertexReady (s : State) (c : Collective) (k v : Nat) : Bool :=
  (!c.pod || decide (v = s.ownModule)) && (c.kids k v).all (fun l => decide (c.chunkLen k ≤ l.length))

/-! Messages of an operation at POD scope (R368 to R373, R445). -/

/-- The class of an operation's frames: its queue's priority (R364), and 0 in a module that is not its root. -/
def State.collClass (s : State) (d : Nat) (c : Collective) : Nat :=
  if c.remote.isSome then 0 else bits (s.queueCtl (.coll d c.queue)) 62 60

/-- The number of an operation at its root. -/
def Collective.rootId (c : Collective) : Nat := c.remote.getD c.id

/-- The member modules but this one. -/
def State.peers (s : State) (c : Collective) : List Nat :=
  if c.pod then c.vertices.filter (fun m => decide (m ≠ s.ownModule)) else []

/-- The tree that this module's messages to members travel by. DESIGN CHOICE: that of BUILD(1) over the live links among the
members, rooted here; the manual names no route. -/
def State.routes (s : State) (d : Nat) (c : Collective) : State × List TreeEdge :=
  let r := s.podEdges (s.belfry d c) c.vertices
  (r.1, (buildTrees r.2 c.vertices.length s.ownModule 1).headD [])

/-- Sends a message to a member module. -/
def State.tell (s : State) (d : Nat) (c : Collective) (m : Nat) (x : FabricMsg) : State :=
  let (s1, tree) := s.routes d c
  match (firstHop tree s1.ownModule c.vertices.length m).bind (s1.portOf (s1.belfry d c)) with
  | some p => s1.sendMsg (s1.partOf d) p m (s1.collClass d c) x
  | none => s1

/-- Sends a message to every other member module, the nearer before those that it passes through to. -/
def State.tellAll (s : State) (d : Nat) (c : Collective) (x : FabricMsg) : State :=
  if s.peers c = [] then s
  else
    let (s1, tree) := s.routes d c
    tree.foldl (fun u e => u.tell d c e.child x) s1

/-- An element of a partial as a frame carries it. -/
def Elem.wide (e : Elem) : BitVec 33 := BitVec.ofNat 33 (e.val.toNat + (if e.s then 2 ^ 32 else 0))
/-- An element of a partial from a frame. -/
def Elem.ofWide (x : BitVec 33) : Elem := ⟨x.setWidth 32, x.getLsbD 32⟩

/-- Sends this module's partial for a chunk to its parent, 512 elements a frame (R370). -/
def State.sendUp (s : State) (d : Nat) (c : Collective) (k : Nat) (l : List Elem) : State :=
  match (c.tree k).find? (fun e => decide (e.child = s.ownModule)) with
  | none => s
  | some e =>
    match s.portOf (s.belfry d c) e.link with
    | none => s
    | some p =>
      (List.range ((l.length + 511) / 512)).foldl (fun u i =>
        u.sendMsg (u.partOf d) p e.parent (u.collClass d c)
          (.partials c.root c.rootId c.epoch k s.ownModule (((l.drop (512 * i)).take 512).map Elem.wide))) s

/-! Chunks and marks (R368, R369). -/

/-- What an operation's marks remember of its root (R372). -/
def State.rootKey (s : State) (c : Collective) : Nat := (if c.pod then s.ownModule * 64 else 0) + c.rootDie

/-- Whether a REDUCED mark of a chunk is of the present root: the one that wrote it, or, where no root of this partition did, that
with which the operation began (R372). -/
def State.markOurs (s : State) (d : Nat) (c : Collective) (k : Nat) : Bool :=
  match mapFind (s.part (s.partOf d)).marks (c.markVa k) with
  | some r => decide (r = s.rootKey c)
  | none => !c.rootNew

/-- Begins a chunk whose mark reads m (R368, R369, R372): it is reduced up its tree, unless its root output stands already, and
then goes down. -/
def State.beginChunk (s : State) (d id : Nat) (c : Collective) (k m : Nat) : State :=
  let sums := decide (c.op ≠ 2) && !(decide (m = 1) && s.markOurs d c k)
  let s1 := s.tellAll d c (.run c.root c.rootId c.epoch k sums)
  if !sums then s1.due .chunkMarkWrite (.n d id (k * 4 + 2))
  else
    ((if c.pod then [] else (c.tree k).reverse.map (fun e => e.child)) ++ [c.root]).foldl
      (fun u v => u.due .collectiveChunkStep (.n d id (k * 1024 + v))) s1

/-- Begins every chunk whose mark is not DONE, all at once, each on its own tree; with none left the operation ends with DONE
(R368, R372). -/
def State.collBegin (s : State) (d id : Nat) : State :=
  match s.coll d id with
  | none => s
  | some c =>
    match s.readRun (s.belfry d c) (c.w 7).toNat c.nchunks with
    | (s1, none) => s1.endColl d id 0x29
    | (s1, some bs) =>
      let marks := ((List.range c.nchunks).zip bs).filter (fun x => decide (x.2.toNat ≠ 2))
      let s2 := s1.modColl d id (fun x => { x with chunks := marks.map (fun y => y.1), partials := [], outputs := [] })
      if marks.isEmpty then s2.endColl d id 0
      else marks.foldl (fun u x => u.beginChunk d id c x.1 x.2.toNat) s2

/-- A chunk is DONE; with the last the operation ends with DONE (R369). -/
def State.chunkDone (s : State) (d id : Nat) (c : Collective) (k : Nat) : State :=
  let s1 := s.modColl d id (fun x => { x with chunks := x.chunks.erase k })
  if (c.chunks.erase k).isEmpty then s1.endColl d id 0 else s1

/-- Forgets the partials of a chunk. -/
def Collective.dropPartials (c : Collective) (k : Nat) : Table (List Elem) :=
  c.partials.filter (fun e => decide (e.1 / 1024 ≠ k))

/-- Whether an operation carries on: not ended, and no fall awaits a rebuild (R372). -/
def Collective.goes (c : Collective) : Bool := c.ending.isNone && !c.stopped

/-! The Belfries' turns at the atomic engines (R352, R353). -/

/-- The places of a region of each of some dies, with the die whose Belfry accesses it. -/
def State.collKeys (s : State) (d : Nat) (c : Collective) (ls : List Nat) (at_ : Nat → Nat) (n : Nat) (a : Acc) : List (Nat × List Nat) :=
  ls.map (fun l =>
    let b := (s.accessor d c l).1
    (b, ((s.regionKeys b a (n / 512 + 1) (at_ l) n).2).getD []))

/-- The places of a chunk's inputs of some dies. -/
def State.inputKeys (s : State) (d : Nat) (c : Collective) (k : Nat) (ls : List Nat) : List (Nat × List Nat) :=
  s.collKeys d c ls (fun l => c.srcAt l k) (c.chunkLen k * codeSize c.sfmt) .read

/-- The places of a chunk's outputs of some dies. -/
def State.outputKeys (s : State) (d : Nat) (c : Collective) (k : Nat) (ls : List Nat) : List (Nat × List Nat) :=
  s.collKeys d c ls (fun l => c.dstAt l k) (c.chunkLen k * codeSize c.dfmt) .write

/-- Belfries, source 68 at the engine of their die, take their turns at the lines for which requests wait, and their event goes on
after them, its third operand 2^64 more: none where they need not wait, or have their turns (R353). -/
def State.belfryTurn (s : State) (rs : List (Nat × List Nat)) (i : Instr) (d id x : Nat) : Option State :=
  if 2 ^ 64 ≤ x ∨ s.dies.all (fun p => p.2.atomics.isEmpty) then none
  else
    let r := rs.foldl (fun (u : State × List Nat) q =>
      let v := u.1.takeTurns (fun h => sourceAt h q.1 68) q.2
      (v.1, u.2 ++ v.2)) (s, [])
    if r.2.isEmpty then none
    else some ((r.1.postpone 16384 r.1.seq r.2 (.event ⟨i, .n d id (x + 2 ^ 64)⟩)).fresh)

/-- COLLECTIVE_CHUNK_STEP of die a, operation b, chunk × 1024 + vertex (R353, R370): the vertex forms its partial; the root's is
the output, and that of a module with its root elsewhere goes up. -/
def execCollectiveChunkStep (s : State) : Result :=
  match s.ev with
  | .n d id x0 =>
    let x := x0 % 2 ^ 64
    let k := x / 1024
    let v := x % 1024
    match s.coll d id with
    | none => .next s
    | some c =>
      if !c.goes ∨ k ∉ c.chunks ∨ c.op = 2 ∨ !s.vertexReady c k v then .next s
      else
        let out := if c.remote.isSome ∨ v ≠ c.root then [] else s.outputKeys d c k [c.rootDie]
        match s.belfryTurn (s.inputKeys d c k (c.ownDies v) ++ out) .collectiveChunkStep d id x0 with
        | some s1 => .next s1
        | none =>
        match s.vertexPartial d c k v with
        | (s1, .error e) => .next (s1.endColl d id e)
        | (s1, .ok l) =>
          if c.remote.isSome then .next ((s1.sendUp d c k l).modColl d id (fun y => { y with partials := y.dropPartials k }))
          else if v ≠ c.root then .next (s1.modColl d id (fun y => { y with partials := mapPut y.partials (partialKey k v) l }))
          else
            let (bs, inex) := c.outBytes l
            match s1.collOutput d c k c.rootDie bs with
            | (s2, .error e) => .next (s2.endColl d id e)
            | (s2, .ok _) =>
              let s3 := s2.modColl d id (fun y => { y with inex := y.inex || inex, partials := y.dropPartials k })
              .next (s3.due .chunkMarkWrite (.n d id (k * 4 + 1)))
  | _ => .next s

/-- Sends a chunk's output to the modules below this one in its tree (R368, R445). -/
def State.sendDown (s : State) (d : Nat) (c : Collective) (k : Nat) (bs : List Byte) : State :=
  if !c.pod then s
  else
    ((c.tree k).filter (fun e => decide (e.parent = s.ownModule))).foldl (fun u e =>
      match u.portOf (u.belfry d c) e.link with
      | none => u
      | some p => u.sendBytes (u.partOf d) p e.child (u.collClass d c) (.output c.root c.rootId c.epoch k) (bs.length / 4096 + 1) bs) s

/-- Sends a chunk down its tree (R368): the root's output for ALLREDUCE, its input for BCAST, nothing for REDUCE. -/
def State.collBroadcast (s : State) (d id : Nat) (c : Collective) (k : Nat) : State × Except Nat Unit :=
  if c.op = 1 then (s, .ok ())
  else if c.op = 2 then
    match s.collInput d c k c.rootDie with
    | (s1, .error e) => (s1, .error e)
    | (s1, .ok l) =>
      let (bs, inex) := c.outBytes l
      ((s1.modColl d id (fun y => { y with inex := y.inex || inex })).sendDown d c k bs).collOutputs d c k bs c.dies
  else
    let (by_, lost) := s.accessor d c c.rootDie
    match s.regionAt by_ lost (c.dstAt c.rootDie k) (c.chunkLen k * codeSize c.dfmt) .read with
    | (s1, .error e) => (s1, .error e)
    | (s1, .ok ks) =>
      if s1.uncorr ks then (s1, .error 0x21)
      else (s1.sendDown d c k (s1.mbytes ks)).collOutputs d c k (s1.mbytes ks) (c.dies.filter (fun l => decide (l ≠ c.rootDie)))

/-- Whether chunk k's output has come whole; then this module's member dies receive it, it goes on down the tree, and the root
hears that it is performed (R368, R369). -/
def State.deliverOutput (s : State) (d id k : Nat) : State :=
  match s.coll d id with
  | none => s
  | some c =>
    let n := c.chunkLen k * codeSize c.dfmt
    let bs := mapGet [] c.incoming k
    if c.remote.isNone ∨ k ∉ c.chunks ∨ c.op = 1 ∨ bs.length < n then s
    else
      match s.collOutputs d c k (bs.take n) c.dies with
      | (s1, .error e) => s1.endColl d id e
      | (s1, .ok _) =>
        let s2 := s1.modColl d id (fun x => { x with chunks := x.chunks.erase k, incoming := x.incoming.filter (fun e => decide (e.1 ≠ k)) })
        (s2.sendDown d c k (bs.take n)).tell d c c.root (.performed c.root c.rootId c.epoch k s2.ownModule)

/-- The places that a step of CHUNK_MARK_WRITE accesses: those that the chunk's way down reads and writes, those of the outputs of a
member module, or those of its mark. -/
def State.markKeys (s : State) (d : Nat) (c : Collective) (k st : Nat) : List (Nat × List Nat) :=
  if st = 2 then
    (if c.op = 1 then []
      else if c.op = 2 then s.inputKeys d c k [c.rootDie] ++ s.outputKeys d c k c.dies
      else s.outputKeys d c k c.dies)
  else if st = 0 then s.outputKeys d c k c.dies
  else
    let b := s.belfry d c
    [(b, ((s.regionKeys b .write 1 (c.markVa k) 1).2).getD [])]

/-- CHUNK_MARK_WRITE of die a, operation b, chunk × 4 + mark (R369): REDUCED once the root's output is performed; the output
goes down (2), and DONE is written once every member has it, which other modules acknowledge (3); in a member module the output
that has come is written (0). -/
def execChunkMarkWrite (s : State) : Result :=
  match s.ev with
  | .n d id x0 =>
    let x := x0 % 2 ^ 64
    let k := x / 4
    match s.coll d id with
    | none => .next s
    | some c =>
      if !c.goes ∨ k ∉ c.chunks then .next s
      else
      match s.belfryTurn (s.markKeys d c k (x % 4)) .chunkMarkWrite d id x0 with
      | some s1 => .next s1
      | none =>
      if x % 4 = 1 then
        match s.writeVa (s.belfry d c) (c.markVa k) [1] with
        | (s1, false) => .next (s1.endColl d id 0x29)
        | (s1, true) =>
          let s2 := s1.modPart (s1.partOf d) (fun y => { y with marks := mapPut y.marks (c.markVa k) (s.rootKey c) })
          .next (s2.due .chunkMarkWrite (.n d id (k * 4 + 2)))
      else if x % 4 = 2 then
        match s.collBroadcast d id c k with
        | (s1, .error e) => .next (s1.endColl d id e)
        | (s1, .ok _) =>
          .next (if c.op = 1 ∨ s1.peers c = [] then s1.due .chunkMarkWrite (.n d id (k * 4 + 3)) else s1)
      else if x % 4 = 3 then
        if c.op ≠ 1 ∧ ¬ (s.peers c).all (fun m => decide (k * 1024 + m ∈ c.outputs)) then .next s
        else
          match s.writeVa (s.belfry d c) (c.markVa k) [2] with
          | (s2, false) => .next (s2.endColl d id 0x29)
          | (s2, true) =>
            .next ((s2.modPart (s2.partOf d) (fun y => { y with marks := mapDel y.marks (c.markVa k) })).chunkDone d id c k)
      else .next (s.deliverOutput d id k)
  | _ => .next s

/-! Start (R364 to R366). -/

/-- The trees of an operation over the vertices that remain (R361, R362). -/
def State.collTrees (s : State) (d : Nat) (c : Collective) : State × List (List TreeEdge) :=
  let vs := c.vertices
  if c.pod then
    let r := s.podEdges (s.belfry d c) vs
    (r.1, bestTrees r.2 vs.length c.root 8)
  else if vs.length = 64 ∧ (List.range 128).all (s.logLinkLive d) then
    let one (p : Nat → Bool) := buildTrees (pkgEdges.filter (fun e => p e.1)) 64 c.root 1
    (s, one healthyA ++ one healthyB)
  else
    let es := pkgEdges.filter (fun e => s.logLinkLive d e.1 && decide (e.2.1 ∈ vs) && decide (e.2.2 ∈ vs))
    (s, bestTrees es vs.length c.root 2)

/-- The code of a status word that reports nothing else. -/
def codeWord (code : Nat) : W64 := BitVec.ofNat 64 (code * 256)

/-- Whether some mark of an operation holds a value above 2 (R366); the code TFAULT where they cannot be read. -/
def State.marksBad (s : State) (b : Nat) (c : Collective) : State × Except Nat Bool :=
  match s.readRun b (c.w 7).toNat c.nchunks with
  | (s1, none) => (s1, .error 0x29)
  | (s1, some bs) => (s1, .ok (bs.any (fun x => decide (2 < x.toNat))))

/-- The vertices of an operation (R362): its member dies, or at POD scope the modules of MODSET; none where MODSET cannot be
read. -/
def State.collVertices (s : State) (b : Nat) (c : Collective) : State × Option (List Nat) :=
  if !c.pod then (s, some c.dies)
  else
    match s.readVa b (c.w 6).toNat 64 with
    | (s1, none) => (s1, none)
    | (s1, some bs) => (s1, some ((List.range 512).filter (fun i => decide (leNat bs / 2 ^ i % 2 = 1))))

/-- The chunks whose mark is DONE. -/
def State.doneChunks (s : State) (b : Nat) (c : Collective) : State × Nat :=
  match s.readRun b (c.w 7).toNat c.nchunks with
  | (s1, none) => (s1, 0)
  | (s1, some bs) => (s1, bs.countP (fun x => decide (x = 2)))

/-- The status word of Table 19-5. -/
def Collective.status (c : Collective) (done code : Nat) : W64 :=
  BitVec.ofNat 64 (done % 2 ^ 32 * 2 ^ 32 + min c.recomp 255 * 2 ^ 24 + c.trees.length % 16 * 2 ^ 20 +
    (if c.inex then 2 ^ 19 else 0) + code * 256)

/-- Looks for lost member modules in the live bitmap (R373). -/
def State.anyModuleLost (s : State) (b : Nat) : List Nat → State × Bool
  | [] => (s, false)
  | m :: rest =>
    match s.moduleLost b m with
    | (s1, true) => (s1, true)
    | (s1, false) => s1.anyModuleLost b rest

/-- COLLECTIVE_PACKET of die a, collective queue b, slot c (R364 to R366). DEDUCED: a packet at POD scope without the feature or the
pod table is still refused for what R366 names, and ends with PARTITIONED where nothing of that holds or can be read (R360, R449). -/
def execCollectivePacket (s : State) : Result :=
  match s.ev with
  | .n d n slot =>
    let q := QueueRef.coll d n
    match s.slotBytes q slot with
    | (s1, none) => .next s1
    | (s1, some bs) =>
      let ws := (List.range 8).map (fun i => wordAt bs (8 * i))
      let rootDie := bits (wordAt bs 0) 49 44
      let pod := bit (wordAt bs 0) 29
      let rootMod := bits (wordAt bs 24) 48 40
      let c0 : Collective := ⟨s1.seq, n, slot, ws, rootDie, if pod then rootMod else rootDie, [], [], [], [], false, 0,
        false, none, false, none, [], [], 0⟩
      let refuse (u : State) : Result := .next (u.endSlot q slot (codeWord 0x10) true)
      let finish_ (u : State) (code : Nat) : Result :=
        let (u1, done) := u.doneChunks d c0
        .next (u1.endSlot q slot (c0.status done code) true)
      if c0.malformed ∨ s1.phys d rootDie ≠ some d ∨ (pod ∧ rootMod ≠ s1.ownModule) then refuse s1
      else
        let shut : Bool := pod && (!bit (s1.modCtl 0x232) 5 || !bit (s1.modCtl 0x1B4) 63)
        match s1.collVertices d c0 with
        | (s2, none) => finish_ s2 (if shut then 0x25 else 0x29)
        | (s2, some vs) =>
          if c0.root ∉ vs then refuse s2
          else
            match s2.marksBad d c0 with
            | (s3, .error e) => finish_ s3 (if shut then 0x25 else e)
            | (s3, .ok true) => refuse s3
            | (s3, .ok false) =>
              if shut then finish_ s3 0x25
              else
              match (if pod then s3.anyModuleLost d vs else (s3, false)) with
              | (s3, true) => finish_ s3 0x26
              | (s3, false) =>
              let ms : List CollMember := vs.map (fun v => ⟨v, true, !pod && !s3.logDieLive d v⟩)
              let (s4, trees) := s3.collTrees d { c0 with members := ms }
              let c : Collective := { c0 with members := ms, trees := trees }
              let s5 := (s4.modDie d (fun x => { x with collectives := x.collectives ++ [c] })).fresh
              if trees.isEmpty then .next (s5.endColl d c.id 0x25)
              else
                match s5.homesLost d c with
                | (s6, true) => .next (s6.endColl d c.id 0x27)
                | (s6, false) => .next ((s6.tellAll d c (.start c.root c.id ws vs)).collBegin d c.id)
  | _ => .next s

/-- COLLECTIVE_NOP_PACKET of die a, collective queue b, slot c (R365): its slot ends with DONE. -/
def execCollectiveNopPacket (s : State) : Result :=
  match s.ev with
  | .n d n slot => .next (s.endSlot (.coll d n) slot 0 false)
  | _ => .next s

/-! Completion (R367, R374). -/

/-- Ends an operation: its counter after a DONE, its status word, and its record goes (R367, R374); the other modules hear of it,
and a module with its root elsewhere tells the root what stopped it. -/
def State.finishColl (s : State) (d : Nat) (c : Collective) (code : Nat) : State :=
  let drop (u : State) : State :=
    u.modDie d (fun x => { x with collectives := x.collectives.filter (fun y => decide (y.id ≠ c.id)) })
  if c.remote.isSome then drop (s.tell d c c.root (.failed c.root c.rootId code))
  else
    let b := s.belfry d c
    let (s1, done) := s.doneChunks b c
    let s2 := if code = 0 ∧ bit (c.w 0) 30 then s1.decCounter b (bits (c.w 0) 43 32) else s1
    let s3 := s2.endSlot (.coll d c.queue) c.slot (c.status done code) (decide (code ≠ 0))
    drop (s3.tellAll d c (.finish c.root c.rootId))

/-- COLLECTIVE_COMPLETION of die a, operation b (R374). -/
def execCollectiveCompletion (s : State) : Result :=
  match s.ev with
  | .n d id _ =>
    match s.coll d id with
    | none => .next s
    | some c =>
      match c.ending with
      | none => .next s
      | some code => .next (s.finishColl d c code)
  | _ => .next s

/-! Falls (R359, R372, R373). -/

/-- Whether an operation's trees still stand: every vertex and every link of them is live. -/
def State.treesStand (s : State) (d : Nat) (c : Collective) : State × Bool :=
  let links := (c.trees.flatten.map (fun e => e.link)).eraseDups
  if c.pod then
    links.foldl (fun u j =>
      let r := u.1.podLive (s.belfry d c) j
      (r.1, u.2 && r.2)) (s, true)
  else (s, links.all (s.logLinkLive d) && c.vertices.all (s.logDieLive d))

/-- Stops an operation whose trees a fall touches, and asks for the new epoch's acknowledgments (R372). -/
def State.collTouched (s : State) (d : Nat) (c : Collective) : State :=
  if !c.goes ∨ c.remote.isSome then s
  else
    match s.treesStand d c with
    | (s1, true) => s1
    | (s1, false) =>
      (s1.modColl d c.id (fun x => { x with stopped := true, partials := [], epoch := x.epoch + 1 })).dueOnce .epochAckCollect
        (.n d c.id 0)

/-- Every operation looks at the tables after a fall. -/
def State.fallSeen (s : State) : State :=
  allDies.foldl (fun u d => (u.die d).collectives.foldl (fun t c => t.collTouched d c) u) s

/-- Clears one physical link; each fall counts (R359). -/
def State.dropLink (s : State) (l : Nat) : State :=
  if !s.linkLive l then s
  else
    let n := if l < 64 then 0x1B0 else 0x1B1
    (s.setModCtl n (setBits (s.modCtl n) (l % 64) (l % 64) 0)).setModCtl 0x1B3
      (BitVec.ofNat 64 (((s.modCtl 0x1B3).toNat + 1) % 2 ^ 32))

/-- Clears a die's bit, and its links with it (R359). -/
def State.dropDie (s : State) (p : Nat) : State :=
  if !s.dieLive p then s
  else
    let s1 := (s.setModCtl 0x1B2 (setBits (s.modCtl 0x1B2) p p 0)).setModCtl 0x1B3
      (BitVec.ofNat 64 (((s.modCtl 0x1B3).toNat + 1) % 2 ^ 32))
    (linksOf p).foldl State.dropLink s1

/-- LINK_FALL of a link or of a die (R359): the bits fall on every die, the operations they touch stop, and the streams
they cut end (R88). -/
def execLinkFall (s : State) : Result :=
  match s.ev with
  | .link (.link l) => if l < 128 then .next (s.dropLink l).fallSeen.endLostStreams else .next s
  | .link (.die p) => if p < 64 then .next (s.dropDie p).fallSeen.endLostStreams else .next s
  | _ => .next s

/-- EPOCH_ACK_COLLECT of die a, operation b (R372): every live member acknowledges but those of mask c, which have 10 ms; at POD
scope the other modules are asked, and their acknowledgments come as frames. -/
def execEpochAckCollect (s : State) : Result :=
  match s.ev with
  | .n d id mask =>
    match s.coll d id with
    | none => .next s
    | some c =>
      if !c.stopped ∨ c.ending.isSome then .next s
      else
        let silent (m : CollMember) : Bool :=
          if c.pod then decide (m.vertex ≠ s.ownModule) else decide (mask / 2 ^ m.vertex % 2 = 1) && decide (m.vertex ≠ c.root)
        let ms := c.members.map (fun m =>
          let lost := m.lost || (!c.pod && !s.logDieLive d m.vertex)
          { m with lost := lost, acked := !lost && !silent m })
        let s1 := (s.modColl d id (fun x => { x with members := ms })).tellAll d c (.epoch c.root c.rootId c.epoch)
        if ms.all (fun m => m.lost || m.acked) then .next (s1.dueOnce .treeRebuild (.n d id 0))
        else
          .next ((ms.filter (fun m => !m.lost && !m.acked)).foldl
            (fun u m => u.after 60000000 .memberAckTimeout (.n d id (c.epoch * 1024 + m.vertex))) s1)
  | _ => .next s

/-- MEMBER_ACK_TIMEOUT of die a, operation b, epoch × 1024 + member (R372): a member that has not acknowledged that epoch is
treated as lost. -/
def execMemberAckTimeout (s : State) : Result :=
  match s.ev with
  | .n d id x =>
    let v := x % 1024
    match s.coll d id with
    | none => .next s
    | some c =>
      if !c.stopped ∨ x / 1024 ≠ c.epoch ∨ !c.members.any (fun m => decide (m.vertex = v) && !m.lost && !m.acked) then .next s
      else
        let ms := c.members.map (fun m => if m.vertex = v then { m with lost := true } else m)
        let s1 := s.modColl d id (fun x => { x with members := ms })
        if ms.all (fun m => m.lost || m.acked) then .next (s1.dueOnce .treeRebuild (.n d id 0)) else .next s1
  | _ => .next s

/-- TREE_REBUILD of die a, operation b (R362, R372, R373): the trees over the vertices that remain, and the chunks go on from
their marks. -/
def execTreeRebuild (s : State) : Result :=
  match s.ev with
  | .n d id _ =>
    match s.coll d id with
    | none => .next s
    | some c =>
      if !c.stopped ∨ c.ending.isSome ∨ !c.members.all (fun m => m.lost || m.acked) then .next s
      else if c.pod && c.members.any (fun m => m.lost) then .next (s.endColl d id 0x26)
      else
        match (if c.pod then s.anyModuleLost (s.belfry d c) c.vertices else (s, false)) with
        | (s1, true) => .next (s1.endColl d id 0x26)
        | (s1, false) =>
          let ms := c.members.map (fun m => { m with lost := m.lost || (!c.pod && !s1.logDieLive d m.vertex) })
          let live := c.dies.filter (fun l => s1.logDieLive d l && (c.pod || ms.all (fun m => decide (m.vertex ≠ l) || !m.lost)))
          let rootDie := if c.rootDie ∈ live then c.rootDie else live.headD c.rootDie
          let root := if c.pod then c.root else rootDie
          let new := decide (rootDie ≠ c.rootDie)
          let c1 : Collective := { c with
            members := ms, rootDie := rootDie, root := root, rootNew := c.rootNew || new,
            recomp := min 255 (c.recomp + 1), stopped := false, partials := [] }
          let (s2, trees) := s1.collTrees d c1
          let s3 := s2.modColl d id (fun _ => { c1 with trees := trees })
          if trees.isEmpty ∨ c1.root ∉ c1.vertices then .next (s3.endColl d id 0x25)
          else
            match s3.homesLost d c1 with
            | (s4, true) => .next (s4.endColl d id 0x27)
            | (s4, false) => .next (s4.collBegin d id)
  | _ => .next s

/-! Pod links (R360, R394, R445). -/

/-- Clears pod links in the bitmap, if there is a table, and every operation looks at it. -/
def State.podLost (s : State) (js : List Nat) : State :=
  if bit (s.modCtl 0x1B4) 63 then (s.podFall s.podDie js).fallSeen else s

end Sys2Proof.Machine
end

