-- ==== Sys2Proof/Machine/Pod.lean ====
section
/-! DEFINITION. What comes in at the scale-out ports (R7, R12, R130, R360, R368 to R373, R445): frames accepted, dropped and
acknowledged, what they do in this module, and the loss of links and modules. -/

namespace Sys2Proof.Machine

/-- The operation of a PCIe AtomicOp: size, operation of Table 18-4, operand and comparand. -/
def hostAtomicOp : HostAtomic → Nat × Nat × W64 × W64
  | .fetchAdd n x => (n, 0, x, 0)
  | .swap n x => (n, 9, x, 0)
  | .cas n cmp x => (n, 10, x, cmp)

/-- A write from outside the device at a VA of a partition's die, by way `who`: the host's port, or 64 more than a scale-out port's
number; whether it was taken. It takes its turn, source 73, at each line for which requests wait at an atomic engine, and follows the
earlier writes of its way (R353, R432). -/
def State.outsideWrite (s : State) (d va : Nat) (data : List Byte) (who : Nat) : State × Bool :=
  match (s.streamFor d va data.length).span d none va data.length .write with
  | (s1, .bad _ _ _) => (s1, false)
  | (s1, .ok ks _) =>
    let (s2, turns) := s1.takeTurns (fun _ => 73) ks
    let behind := turns ++ (s2.lateOps.filter (fun o => decide (o.ctx = 16385 + who))).map (fun o => o.id)
    (if behind.isEmpty then s2.storeNow ks data else s2.fresh.postpone (16385 + who) s2.seq behind (.store ks data), true)

/-- An atomic from outside the device, of 4 or 8 aligned bytes, reaches the engine of its home die through the host ports, source
73 (R353, R432): whether it was taken. DESIGN CHOICE: the manual gives the scale-out ports no source number, and a module's
arrives as the host's do. -/
def State.outsideAtomic (s : State) (d va : Nat) (o : HostAtomic) (who : Asker) : State × Bool :=
  let (size, op, x, cmp) := hostAtomicOp o
  if (size ≠ 4 ∧ size ≠ 8) ∨ va % size ≠ 0 then (s, false)
  else
    match (s.streamFor d va size).span d none va size .atomic with
    | (s1, .bad _ _ _) => (s1, false)
    | (s1, .ok ks _) =>
      (s1.fresh.askAtomic ⟨s1.seq, who, op, size, ks.headD 0, x, cmp, 73, s1.copyCycle (homeOf (ks.headD 0))⟩, true)

/-! Falls (R360). -/

/-- The partition whose tag this module's own messages carry: the first that has one. -/
def State.podPart (s : State) : Nat := ((s.parts.find? (fun p => decide (p.2.ptag ≠ 0))).map (fun p => p.1)).getD 64

/-- Pod links have fallen: the bitmap shows it, and the peers hear of it but the one at a port that told it (R360). -/
def State.podFallen (s : State) (but : Nat) (js : List Nat) : State :=
  if !bit (s.modCtl 0x1B4) 63 then s
  else
    let up := js.filter (fun j => (s.podLive s.podDie j).2)
    up.foldl (fun u j => u.tellPeers u.podPart but (.fall j)) (s.podLost up)

/-- The operation that a message concerns, as its root module and the root's number. -/
def msgOperation : FabricMsg → Option (Nat × Nat)
  | .partials r i _ _ _ _ => some (r, i)
  | .output r i _ _ _ => some (r, i)
  | .start r i _ _ => some (r, i)
  | .run r i _ _ _ => some (r, i)
  | .performed r i _ _ _ => some (r, i)
  | .failed r i _ => some (r, i)
  | .epoch r i _ => some (r, i)
  | .epochAck r i _ _ => some (r, i)
  | .finish r i => some (r, i)
  | _ => none

/-- Whether a message of a collective operation may go another way when a link is lost: all but those of a tree's own links, the
loss of which starts a new epoch (R372). -/
def msgReroutes (m : FabricMsg) : Bool :=
  (msgOperation m).isSome && (match m with
    | .partials _ _ _ _ _ _ => false
    | .output _ _ _ _ _ => false
    | _ => true)

/-- The operation of a partition that a message names, with its die. -/
def State.collNamed (s : State) (part root id : Nat) : Option (Nat × Collective) :=
  (s.part part).dies.findSome? (fun d =>
    ((s.die d).collectives.find? (fun c => c.pod && decide (c.root = root) && decide (c.rootId = id))).map (fun c => (d, c)))

/-- Sends by the links that are left what a lost link had not delivered of collective operations that go on (R372, R373). A message
that had come in all the same changes nothing a second time. -/
def State.reroute (s : State) (fs : List (Nat × Frame)) : State :=
  fs.foldl (fun u f =>
    let goes := match msgOperation f.2.msg with
      | some (root, id) =>
        decide (f.2.src ≠ u.ownModule ∨ root ≠ u.ownModule ∨ f.2.msg = .finish root id) || (u.collNamed f.1 root id).isSome
      | none => false
    if msgReroutes f.2.msg && goes then u.passOn f.1 f.2 else u) s

/-- POD_LINK_LOSS of port a (R445): the port's link falls in the pod table, and what it had not delivered goes by others. -/
def execPodLinkLoss (s : State) : Result :=
  match s.ev with
  | .n p _ _ =>
    if 16 ≤ p then .next s
    else
      let s1 : State := { s with pod := mapMod PodPort.reset s.pod p (fun x => { x with down := true, unacked := [] }) }
      if !bit (s1.modCtl 0x1B4) 63 then .next s1
      else
        match s1.podEntry s1.podDie s1.ownModule p with
        | (s2, none) => .next s2
        | (s2, some (j, _)) => .next ((s2.podFallen 16 [j]).reroute (s.port p).unacked)
  | _ => .next s

/-- MODULE_HEARTBEAT_LOSS of module a (R394, R373): all its pod links are cleared in the bitmap. -/
def execModuleHeartbeatLoss (s : State) : Result :=
  match s.ev with
  | .n m _ _ =>
    if !bit (s.modCtl 0x1B4) 63 ∨ 512 ≤ m then .next s
    else
      let r := s.podLinks s.podDie m
      .next (r.1.podFallen 16 (r.2.map (fun l => l.1)))
  | _ => .next s

/-! Collectives with members in other modules (R368 to R373). -/

/-- Has the vertex of this module try its step of a chunk. -/
def State.dueStep (s : State) (d : Nat) (c : Collective) (k : Nat) : State :=
  s.dueOnce .collectiveChunkStep (.n d c.id (k * 1024 + s.ownModule))

/-- Has this module take chunk k's output, if it has come whole (R368, R369). -/
def State.dueOutput (s : State) (d id k : Nat) : State := s.dueOnce .chunkMarkWrite (.n d id (k * 4))

/-- A chunk begins in a member module: the trees are those of the pod table at the epoch's first chunk (R362, R372), and output
that came ahead is taken; one that has begun in this epoch does not begin again. -/
def State.startChunk (s : State) (d : Nat) (c : Collective) (k : Nat) (reduce : Bool) : State :=
  if k * 1024 + s.ownModule ∈ c.outputs then s
  else
    let (s1, trees) := if c.trees.isEmpty then s.collTrees d c else (s, c.trees)
    let s2 := s1.modColl d c.id (fun x => { x with
      chunks := x.chunks ++ [k], trees := trees, outputs := (k * 1024 + s.ownModule) :: x.outputs })
    (if reduce then s2.dueStep d c k else s2).dueOutput d c.id k

/-- A member module has acknowledged the epoch; the rebuild follows the last (R372). -/
def State.takeEpochAck (s : State) (d : Nat) (c : Collective) (m : Nat) : State :=
  let ms := c.members.map (fun x => if x.vertex = m then { x with acked := true } else x)
  let s1 := s.modColl d c.id (fun x => { x with members := ms })
  if c.stopped && ms.all (fun x => x.lost || x.acked) then s1.dueOnce .treeRebuild (.n d c.id 0) else s1

/-- The epoch that a message belongs to: one of another epoch than the operation's is discarded (R372). -/
def msgEpoch : FabricMsg → Option Nat
  | .partials _ _ e _ _ _ => some e
  | .output _ _ e _ _ => some e
  | .run _ _ e _ _ => some e
  | .performed _ _ e _ _ => some e
  | .epochAck _ _ e _ => some e
  | _ => none

/-- What a message does to the operation it concerns. -/
def State.collMsg (s : State) (d : Nat) (c : Collective) (m : FabricMsg) : State :=
  if (msgEpoch m).any (fun e => decide (e ≠ c.epoch)) then s
  else
    match m with
    | .partials _ _ _ k v l =>
      (s.modColl d c.id (fun x => { x with
        partials := mapMod [] x.partials (partialKey k v) (fun old => old ++ l.map Elem.ofWide) })).dueStep d c k
    | .output _ _ _ k data =>
      (s.modColl d c.id (fun x => { x with incoming := mapMod [] x.incoming k (fun old => old ++ data) })).dueOutput d c.id k
    | .run _ _ _ k reduce => if c.remote.isSome then s.startChunk d c k reduce else s
    | .performed _ _ _ k v =>
      if k ∉ c.chunks then s
      else
        (s.modColl d c.id (fun x => { x with outputs := (k * 1024 + v) :: x.outputs })).dueOnce .chunkMarkWrite
          (.n d c.id (k * 4 + 3))
    | .failed _ _ code => s.endColl d c.id code
    | .epoch _ _ e =>
      if c.remote.isNone then s
      else
        (if e = c.epoch then s
          else s.modColl d c.id (fun x => { x with
            epoch := e, trees := [], chunks := [], partials := [], incoming := [], outputs := [] })).tell d c c.root
          (.epochAck c.root c.rootId e s.ownModule)
    | .epochAck _ _ _ v => s.takeEpochAck d c v
    | .finish _ _ =>
      if c.remote.isSome then s.modDie d (fun x => { x with collectives := x.collectives.filter (fun y => decide (y.id ≠ c.id)) })
      else s
    | _ => s

/-- Whether a message that comes ahead of its operation's start waits for it. -/
def msgWaits : FabricMsg → Bool
  | .partials _ _ _ _ _ _ => true
  | .output _ _ _ _ _ => true
  | .run _ _ _ _ _ => true
  | .epoch _ _ _ => true
  | _ => false

/-- An operation rooted in another module begins here, at the Belfry of its die ROOT (R370); what came ahead of it is taken
now, and what waits for an older one of the same root is dropped. A module whose FEATURES has no PODCOLL takes no part, and the
operation ends with PARTITIONED (R449). -/
def State.startMember (s : State) (part root id : Nat) (words : List W64) (mods : List Nat) : State :=
  let rootDie := bits (words.headD 0) 49 44
  match (s.part part).dies[rootDie]?, s.collNamed part root id with
  | some d, none =>
    let c : Collective := ⟨s.seq, 0, 0, words, rootDie, root, mods.map (fun m => ⟨m, true, false⟩), [], [], [], false, 0, false,
      none, false, some id, [], [], 0⟩
    if !bit (s.modCtl 0x232) 5 then s.tell d c root (.failed root id 0x25)
    else
    let s1 := (s.modDie d (fun x => { x with collectives := x.collectives ++ [c] })).fresh
    let mine (f : Nat × Frame) : Bool := decide (f.1 = part ∧ msgOperation f.2.msg = some (root, id))
    let old (f : Nat × Frame) : Bool :=
      decide (f.1 = part) && (msgOperation f.2.msg).any (fun o => decide (o.1 = root ∧ o.2 ≤ id))
    (s.early.filter mine).foldl (fun u f =>
      match u.collNamed part root id with
      | some (e, x) => u.collMsg e x f.2.msg
      | none => u) { s1 with early := s1.early.filter (fun f => !old f) }
  | _, _ => s

/-! Frames (R445). -/

/-- What a frame that was accepted at port p for a partition does. DESIGN CHOICE: one that is for another module passes on
towards it, since the manual names no route; and one about a collective operation that has not begun here yet waits for its
start. -/
def State.takeFrame (s : State) (p part : Nat) (f : Frame) : State :=
  let d := (s.part part).dies.headD 0
  match msgOperation f.msg with
  | some (root, id) =>
    match s.collNamed part root id with
    | some (e, c) => if f.dst = s.ownModule then s.collMsg e c f.msg else s.tell e c f.dst f.msg
    | none =>
      if f.dst ≠ s.ownModule then s.passOn part f
      else
        match f.msg with
        | .start _ _ words mods => s.startMember part root id words mods
        | m => if root ≠ s.ownModule ∧ msgWaits m then { s with early := s.early ++ [(part, f)] } else s
  | none =>
    match f.msg with
    | .fall j => s.podFallen p [j]
    | m =>
      if f.dst ≠ s.ownModule then s.passOn part f
      else
        match m with
        | .write va data => (s.outsideWrite d va.toNat data (64 + p)).1
        | .atomic va o => (s.outsideAtomic d va.toNat o (.frame part p f.src f.cls)).1
        | .arrive n count =>
          let key := barKeyOf part 5 0 n
          let b := s.barrier key
          if b.arrived ≠ 0 ∧ b.gcount ≠ count then s else s.arriveAt key (arrIdx 5 n) count
        | _ => s

/-- FABRIC_FRAME_RECEIVE at a port (R445): an acknowledgement releases the frames it covers; a frame whose PTAG matches no
partition is dropped and counted, and one out of its turn is dropped; the rest are acknowledged and acted on. DESIGN CHOICE: a
frame out of its turn has the last accepted one acknowledged again, without which a lost acknowledgement would stop the port. -/
def execFabricFrameReceive (s : State) : Result :=
  match s.ev with
  | .frame p f =>
    if 16 ≤ p then .next s
    else
      let x := s.port p
      let put (y : PodPort) : State := { s with pod := mapPut s.pod p y }
      if x.down then .next s
      else
        match s.partOfTag f.ptag.toNat with
        | none => .next (put { x with dropped := x.dropped + 1 })
        | some part =>
          if f.msg = .ack then
            let rest := x.unacked.filter (fun g => decide (2 ^ 31 ≤ (f.seq + 2 ^ 32 - g.2.seq) % 2 ^ 32))
            .next (put { x with unacked := rest, attempts := if rest.length < x.unacked.length then 0 else x.attempts })
          else if f.seq = x.recvSeq then
            .next (((put { x with recvSeq := (x.recvSeq + 1) % 2 ^ 32, received := x.received ++ [f] }).acknowledge part p
              f.seq f).takeFrame p part f)
          else if x.received.isEmpty then .next s
          else .next (s.acknowledge part p ((x.recvSeq + 2 ^ 32 - 1) % 2 ^ 32) f)
  | _ => .next s

/-- GO_BACK_N_RETRANSMISSION of port a (R445): every frame from the first unacknowledged one is sent again, up to sixteen times;
after that the link is lost. -/
def execGoBackNRetransmission (s : State) : Result :=
  match s.ev with
  | .n p _ _ =>
    let x := s.port p
    if 16 ≤ p ∨ x.unacked.isEmpty ∨ x.down then .next s
    else if 16 ≤ x.attempts then .next (s.dueOnce .podLinkLoss (.n p 0 0))
    else
      let s1 : State := { s with pod := mapPut s.pod p { x with attempts := x.attempts + 1 } }
      .next (s1.putWire p x.unacked)
  | _ => .next s

end Sys2Proof.Machine
end

