-- ==== Sys2Proof/Machine/Host.lean ====
section
/-! DEFINITION. The loss of a die (R393, R127), partitions (R435 to R438), the host's requests through BAR 2 (R432), the
TDISP states (R440), measurement (R441), and debug policies (R442). -/

namespace Sys2Proof.Machine

/-! Clearing dies (R127, R137, R329, R393, R437). -/

/-- Ends a launch with ABORTED at once: its slot receives its status, and its record goes (R393). -/
def State.abortLaunch (s : State) (d : Nat) (l : Launch) : State :=
  let s1 := s.modDie d (fun x => { x with launches := x.launches.filter (fun y => decide (y.id ≠ l.id)) })
  (s1.endSlot (.launch d l.queue) l.slot (codeWord 0x24) true).captureDone d l.id

/-- Ends a die's packets with ABORTED (R127). -/
def State.abortPackets (s : State) (d : Nat) : State := (List.range 4).foldl (fun u e => u.abortEngine (d * 4 + e)) s

/-- Ends a die's packets and collectives with ABORTED (R127, R374). -/
def State.abortWork (s : State) (d : Nat) : State :=
  let s1 := s.abortPackets d
  (s1.die d).collectives.foldl (fun u c => u.finishColl d c 0x24) s1

/-- Whether a context, a core, a row group or a byte of local memory belongs to one of some dies. -/
def ofDies (ds : List Nat) (size key : Nat) : Bool := decide (key / size ∈ ds)

/-- A core with nothing resident from a time on; its controls and its instruction cache stay. -/
def Core.emptied (x : Core) (now : Nat) : Core :=
  { Core.reset with ctl := x.ctl, icache := x.icache, last := x.last, next := x.next, idleSince := now }

/-- Discards the contexts of some dies with their cores' engines, tags and TLBs, and what they have issued and not performed (R393,
R437). -/
def State.clearCores (s : State) (ds : List Nat) : State :=
  { s with
    lateOps := s.lateOps.filter (fun o => !ofDies ds 256 o.ctx)
    ctxs := s.ctxs.filter (fun p => !ofDies ds 256 p.1)
    cores := s.cores.map (fun p => (p.1, if ofDies ds 64 p.1 then p.2.emptied s.now else p.2)) }

/-- A die that holds no work: its Cupola, counters, Lexicon, engines and TLB empty (R437); its controls, its lifetime unit's
bands, its power state and its links to a partition stay. -/
def Die.emptied (x : Die) : Die :=
  { x with
    copy := [], tlb := [], counters := [], lexicon := [], tasks := [], operators := [], launches := [], images := [],
    tfree := [], team := [], records := [], atomics := [], entries := [], ports := [], refreshing := [], refreshQ := [],
    slice := [], collectives := [], captures := [] }

/-- Whether a launch touches a die: its own record, a task or operator there, or a counter homed there that one of its contexts
waits for (R393). -/
def State.touchesDie (s : State) (d : Nat) (at_ : Nat) (l : Launch) : Bool :=
  decide (at_ = d) ||
  s.allTasks.any (fun p => decide (p.2.launch = some l.id) &&
    (decide (p.1 = d) || decide (p.2.home = d) || (match p.2.phase with
      | .placed c => (match (s.ctx c).phase with
        | .waitCounter e _ => decide (e = d)
        | _ => false)
      | _ => false))) ||
  (s.die d).operators.any (fun o => decide (o.launch = some l.id))

/-- A lost die's record (R393): empty, but that the launches that touch it and the collectives rooted on it end under their own
rules, the statuses of its packets, ABORTED, stay for the CPYWs of tasks that have gone elsewhere (R115, R127), and what others ask of
its memory stays to be performed. -/
def Die.lost (x : Die) (d : Nat) : Die :=
  { x.emptied with
    launches := x.launches, collectives := x.collectives,
    copy := x.copy.map (fun p => (p.1, { p.2 with packets := [], waiting := [] })),
    atomics := x.atomics.filter (fun r => match r.asker with
      | .write c _ => decide (c / 256 ≠ d)
      | _ => true),
    ports := x.ports.filter (fun r => decide (r.ctx / 256 ≠ d)) }

/-- Whether every die reports READY, but for those that failed or are lost (R447, R449). -/
def State.allReady (s : State) : Bool :=
  allDies.all (fun d => (s.die d).ready || decide ((s.die d).failCode ≠ 0) || !(s.die d).online) && allDies.any (fun d => (s.die d).ready)

/-- The negotiations that waited are answered once the dies are READY, one after another in their order of arrival, so that the
mailbox shows each answer (R449). -/
def State.wakeRequests (s : State) : State :=
  if s.allReady then s.requests.foldl (fun u x => u.due .featureNegotiation (.req pf0 x false)) { s with requests := [] } else s

/-- Loses a die (R393, R127): its links fall, its packets end with ABORTED, what is resident or homed on it goes, the launches that
touch it end with ABORTED, and the streams it served end (R87, R88). Collectives rooted on it stay, for another die to be their
root (R373). -/
def State.loseDie (s : State) (d : Nat) : State :=
  let touched := (s.dies.flatMap (fun p => p.2.launches.map (fun l => (p.1, l)))).filter (fun x => s.touchesDie d x.1 x.2)
  let s1 := (((s.modDie d (fun x => { x with online := false })).abortPackets d).dropDie d).fallSeen.endLostStreams
  let s2 := (s1.clearCores [d]).modDie d (fun x => x.lost d)
  let s3 := (s2.allTasks.filter (fun p => decide (p.2.home = d))).foldl (fun u p => u.endTask p.1 p.2) s2
  ((touched.foldl (fun u x => u.failLaunch x.2.id (codeWord 0x24)) s3).stirLate).wakeRequests

/-- DIE_LOSS of die a (R393). -/
def execDieLoss (s : State) : Result :=
  match s.ev with
  | .n d _ _ => if d < 64 ∧ (s.die d).online then .next (s.loseDie d) else .next s
  | _ => .next s

/-! Partitions (R435 to R438). -/

/-- The physical dies of a shape in logical order, none where X0 or Y0 breaks Table 24-4. -/
def shapeDies (shape x0 y0 : Nat) : Option (List Nat) :=
  match shape with
  | 0 => if x0 = 0 ∧ y0 = 0 then some (List.range 64) else none
  | 1 => if x0 = 0 ∧ (y0 = 0 ∨ y0 = 4) then some ((List.range 32).map (fun i => 8 * y0 + i)) else none
  | 2 => if x0 = 0 ∧ y0 % 2 = 0 then some ((List.range 16).map (fun i => 8 * y0 + i)) else none
  | 3 => if x0 = 0 then some ((List.range 8).map (fun i => 8 * y0 + i)) else none
  | 4 => if x0 = 0 ∨ x0 = 4 then some ((List.range 4).map (fun i => 8 * y0 + x0 + i)) else none
  | _ => none

/-- The functions of a mask. -/
def maskVfs (m : Nat) : List Nat := (List.range 64).filter (fun i => decide (m / 2 ^ i % 2 = 1))

/-- Sets HALT of a bound queue (R437). -/
def State.haltBound (s : State) (q : QueueRef) : State :=
  match s.readDesc q with
  | (s1, none) => s1
  | (s1, some desc) => (s1.writeBy (queueReg q).1 true (s1.queueDesc q + 32) (leBytes 4 (desc.ctrl ||| 256))).1

/-- The AtomicOps that wait at a die's engine complete with Unsupported Request, nothing performed (R432, R437). -/
def State.refuseAtomics (s : State) (d : Nat) : State :=
  (s.die d).atomics.foldl (fun u r => match r.asker with
    | .function n => u.answer n .unsupportedRequest []
    | _ => u) s

/-- Step 2 of R437: the queues halt, packets, collectives and launches end with ABORTED, contexts and images go, and what the host
asks of the dies is turned away. -/
def State.quiesce (s : State) (ds : List Nat) : State :=
  let s1 := ds.foldl (fun u d => (u.die d).launches.foldl (fun v l => v.abortLaunch d l) (u.abortWork d)) s
  let qs := s1.boundQueues.filter (fun q => decide ((queueReg q).1 ∈ ds))
  let s2 := (qs.foldl State.haltBound s1).clearCores ds
  let s3 : State := { s2 with lateOps := s2.lateOps.filter (fun o => !decide (o.die ∈ ds)) }
  (ds.foldl (fun u d => (u.refuseAtomics d).modDie d Die.emptied) s3).stirLate

/-- LINKLIVE and DIELIVE of some dies as training left them, but for dies that are offline (R359, R437). -/
def State.restoreLinks (s : State) (ds : List Nat) : State :=
  let up (p : Nat) : Bool := (s.die p).online
  let was (n i : Nat) : Bool := bit (mapGet 0 s.trained n) i
  let s1 := (ds.filter (fun p => up p && was 0x1B2 p)).foldl
    (fun u p => u.setModCtl 0x1B2 (setBits (u.modCtl 0x1B2) p p 1)) s
  ((ds.flatMap linksOf).filter (fun l => up (linkEnds l).1 && up (linkEnds l).2 && was (0x1B0 + l / 64) (l % 64))).foldl
    (fun u l => u.setModCtl (0x1B0 + l / 64) (setBits (u.modCtl (0x1B0 + l / 64)) (l % 64) (l % 64) 1)) s1

/-- Step 4 of R437 on some dies of partition p: row groups invalid, barriers clear, TRROOT.EN and DBGLOCK 0, links
restored. -/
def State.scrub (s : State) (p : Nat) (ds : List Nat) : State :=
  let s1 : State := { s with
    rgs := s.rgs.filter (fun e => !ofDies ds (2 ^ 23) e.1)
    barriers := s.barriers.filter (fun e => decide (e.1 / (16 * 4096 * 8) ≠ p)) }
  let s2 := ds.foldl (fun u d => u.setDieCtl d 0x100 (setBits (u.dieCtl d 0x100) 4 4 0)) s1
  (s2.setPartCtl p 0x212 0).restoreLinks ds

/-- Step 5 of R437: a new key on each die, and what PARTINFO shows. -/
def State.rekey (s : State) (ds : List Nat) (info : Nat) : State :=
  let n := s.assigns + 1
  let s1 : State := { s with
    assigns := n
    free := s.free + 1
    mem := s.mem.filter (fun c => !ofDies ds (2 ^ 35) c.1)
    pkids := s.pkids.filter (fun e => !ofDies ds (2 ^ 30) e.1)
    poison := s.poison.filter (fun e => !ofDies ds (2 ^ 30) e.1) }
  ds.foldl (fun u d =>
    (u.modDie d (fun x => { x with keyGen := s.free + 1 })).setDieCtl d 0x229
      (BitVec.ofNat 64 (info + n % 2 ^ 32 * 2 ^ 16))) s1

/-- Unlocks the functions bound to a partition, tears their IDE streams down and ends their binding (R437, R442). -/
def State.unbind (s : State) (p : Nat) : State :=
  { s with vfs := s.vfs.map (fun v => if v.2.part = some p then
      (v.1, { v.2 with part := none, tdisp := .unlocked, tenantKey := none, ide := none }) else v) }

/-- Withdraws a partition (R437). -/
def State.withdraw (s : State) (p : Nat) : State :=
  match mapFind s.parts p with
  | none => s
  | some x =>
    let s1 := (((s.unbind p).quiesce x.dies).scrub p x.dies).rekey x.dies 0
    let s2 := x.dies.foldl (fun u d => u.modDie d (fun y => { y with part := none })) s1
    { s2 with parts := mapDel s2.parts p, early := s2.early.filter (fun f => decide (f.1 ≠ p)) }

/-- An assignment request (Table 24-10). -/
structure AssignReq where
  op : Nat
  shape : Nat
  x0 : Nat
  y0 : Nat
  part : Nat
  ptag : Nat
  vfs : Nat
  reserved : Bool
deriving DecidableEq, Repr

/-- The fields of a 32-byte request (Table 24-10). -/
def assignReq (x : BitVec 896) : AssignReq :=
  let n := x.toNat
  let f (hi lo : Nat) : Nat := n / 2 ^ lo % 2 ^ (hi + 1 - lo)
  ⟨f 63 56, f 50 48, f 44 42, f 41 39, f 35 32, f 31 16, f 127 64,
    decide (f 55 51 ≠ 0) || decide (f 47 45 ≠ 0) || decide (f 38 36 ≠ 0) || decide (f 15 0 ≠ 0) || decide (n / 2 ^ 128 ≠ 0)⟩

/-- Whether VFMASK names a function that is bound to another partition or is not unlocked (R438). -/
def State.vfsBad (s : State) (r : AssignReq) : Bool :=
  (maskVfs r.vfs).any (fun i => let v := s.vf i
    (v.part.isSome && decide (v.part ≠ some r.part)) || decide (v.tdisp ≠ .unlocked))

/-- Assigns some dies as a partition (R437, R438). DESIGN CHOICE: the queues whose EN stands then come first in binding order, as the
device numbers them; the manual lets an assignment keep EN and gives them no order (R432). -/
def State.assign (s : State) (r : AssignReq) (ds : List Nat) : State :=
  let s1 := ((s.quiesce ds).scrub 64 ds).rekey ds (r.ptag * 2 ^ 48 + r.part * 2 ^ 8 + r.shape)
  let s2 := ds.foldl (fun u d => u.modDie d (fun y => { y with part := some r.part })) s1
  let p : Partition := { Partition.reset with
    dies := ds, ptag := r.ptag, epoch := s2.assigns, vf := r.vfs,
    bound := s2.boundQueues.filter (fun q => decide ((queueReg q).1 ∈ ds)) }
  let s3 : State := { s2 with parts := mapPut s2.parts r.part p }
  (maskVfs r.vfs).foldl (fun u i => u.modVf i (fun v =>
    { v with part := some r.part, tdisp := .unlocked, tenantKey := none, ide := none })) s3

/-- Whether a context of a partition's dies has a phase under cancellation, for whose step 4 a partition event waits (R400). -/
def State.refetching (s : State) (p : Nat) : Bool :=
  s.ctxs.any (fun q => decide (s.partOf (dieOf q.1) = p) && decide (q.2.phase = .waitRefetch))

/-- PARTITION_ASSIGN with a request in the low 32 bytes (R438). -/
def execPartitionAssign (s : State) : Result :=
  match s.ev with
  | .req _ x _ =>
    let r := assignReq x
    match shapeDies r.shape r.x0 r.y0 with
    | none => .next (s.answer pf0 .refused [])
    | some ds =>
      if r.reserved ∨ r.op ≠ 1 ∨ ds.any (fun d => (s.die d).part.isSome) ∨ (mapFind s.parts r.part).isSome ∨ s.vfsBad r then
        .next (s.answer pf0 .refused [])
      else .next ((s.assign r ds).answer pf0 .accepted [])
  | _ => .next s

/-- PARTITION_WITHDRAW with a request in the low 32 bytes (R438); it waits while a phase is being cancelled (R400). -/
def execPartitionWithdraw (s : State) : Result :=
  match s.ev with
  | .req _ x _ =>
    let r := assignReq x
    if s.refetching r.part then .next (s.after 6 .partitionWithdraw s.ev)
    else if r.reserved ∨ r.op ≠ 2 ∨ (shapeDies r.shape r.x0 r.y0).isNone ∨ (mapFind s.parts r.part).isNone ∨ s.vfsBad r then
      .next (s.answer pf0 .refused [])
    else .next ((s.withdraw r.part).answer pf0 .accepted [])
  | _ => .next s

/-! TDISP (R440). -/

/-- LOCK_INTERFACE of function a: CONFIG_UNLOCKED becomes CONFIG_LOCKED, and FEATURES is settled (R440, R449). -/
def execLockInterface (s : State) : Result :=
  match s.ev with
  | .n i _ _ =>
    if 64 ≤ i ∨ (s.vf i).tdisp ≠ .unlocked then .next s
    else .next { s.modVf i (fun v => { v with tdisp := .locked, status := .success }) with features := true }
  | _ => .next s

/-- START_INTERFACE of function a: CONFIG_LOCKED becomes RUN (R440). -/
def execStartInterface (s : State) : Result :=
  match s.ev with
  | .n i _ _ =>
    if 64 ≤ i ∨ (s.vf i).tdisp ≠ .locked then .next s
    else .next (s.modVf i (fun v => { v with tdisp := .run, status := .success }))
  | _ => .next s

/-- Withdraws the partition a function is bound to, and unlocks the function (R437). -/
def State.stopVf (s : State) (i : Nat) : State :=
  let s1 := match (s.vf i).part with
    | some p => s.withdraw p
    | none => s
  s1.modVf i (fun v => { v with tdisp := .unlocked })

/-- STOP_INTERFACE of function a runs R437 (R440); it waits while a phase is being cancelled (R400). -/
def execStopInterface (s : State) : Result :=
  match s.ev with
  | .n i _ _ =>
    if 64 ≤ i then .next s
    else if (s.vf i).part.any s.refetching then .next (s.after 6 .stopInterface s.ev)
    else .next ((s.stopVf i).answer i .success [])
  | _ => .next s

/-- Whether some function bound to a die's partition is locked or runs (R433, R440). -/
def State.dieLocked (s : State) (d : Nat) : Bool :=
  s.vfs.any (fun v => v.2.part.isSome && decide (v.2.part = (s.die d).part) && decide (v.2.tdisp ≠ .unlocked))

/-- An attempt to change a frozen item of a die (R440): its functions go to ERROR, and their withdrawal is due. -/
def State.tdispError (s : State) (d : Nat) : State :=
  match (s.die d).part with
  | none => s
  | some p =>
    let vs : Table Vf := s.vfs.map (fun v => if v.2.part = some p then (v.1, { v.2 with tdisp := .error }) else v)
    match vs.find? (fun v => decide (v.2.part = some p)) with
    | some v => ({ s with vfs := vs } : State).dueOnce .stopInterface (.n v.1 0 0)
    | none => s

/-! BAR 2 (R432). -/

/-- The die whose TRROOT translates a function's BAR 2: the first of its partition; none where the access is not served. -/
def State.barDie (s : State) (i : Nat) (va : W64) (tee : Bool) : Option Nat :=
  let v := s.vf i
  if 64 ≤ i ∨ 2 ^ 38 ≤ va.toNat ∨ v.closed tee then none
  else v.part.bind (fun p => (s.part p).dies.head?)

/-- The port by which a request of the host came (R430). -/
def hostPort : EvArg → Option Nat
  | .host i _ _ _ _ => some (portOfFunction i)
  | .hostAtomic i _ _ _ => some (portOfFunction i)
  | _ => none

/-- Whether a request of the host waits: for a page that a checkpoint has yet to stream, where it writes (R408), or behind a request
of its port that does, or a write of its port that has yet to be performed, since no later one passes a posted write (R432). -/
def State.hostWaits (s : State) (a : EvArg) (held : Bool) : Bool :=
  held || s.hostHeld.any (fun h => decide (hostPort h.arg = hostPort a)) ||
    s.lateOps.any (fun o => decide (16385 ≤ o.ctx) && decide (hostPort a = some (o.ctx - 16385)))

/-- Keeps a request of the host behind those that wait, all of which are looked at again in their order a little later. -/
def State.holdHost (s : State) (i : Instr) (a : EvArg) : State :=
  { (if s.hostHeld.isEmpty then s.after 6 .hostBar2Write .none else s) with hostHeld := s.hostHeld ++ [⟨i, a⟩] }

/-- A read of the host takes its turn, source 73, at each line for which requests wait at an atomic engine, and goes on after it, its
size 2^64 more (R353): none where it need not wait. -/
def State.hostTurn (s : State) (i d : Nat) (va : W64) (size : Nat) (data : List Byte) (tee : Bool) : Option State :=
  match (s.span d none va.toNat size .read).2 with
  | .bad _ _ _ => none
  | .ok ks _ =>
    match s.takeTurns (fun _ => 73) ks with
    | (_, []) => none
    | (s1, turns) => some ((s1.postpone 16384 s1.seq turns
        (.event ⟨.hostBar2Read, .host i va (size + 2 ^ 64) data tee⟩)).fresh)

/-- HOST_BAR2_READ of a function (R432): an acquire read at PKG scope; the bytes of uncorrectable granules are left open. -/
def execHostBar2Read (s : State) : Result :=
  match s.ev with
  | .host i va size0 data tee =>
    let size := size0 % 2 ^ 64
    match s.barDie i va tee with
    | none => .next (s.answer i .unsupportedRequest [])
    | some d =>
      if size0 < 2 ^ 64 ∧ s.hostWaits s.ev false then .next (s.holdHost .hostBar2Read s.ev)
      else
      match if size0 < 2 ^ 64 then s.hostTurn i d va size data tee else none with
      | some s1 => .next s1
      | none =>
      match s.span d none va.toNat size .read with
      | (s1, .bad _ _ _) => .next (s1.answer i .unsupportedRequest [])
      | (s1, .ok ks _) =>
        if s1.uncorr ks then
          .next (s1.spend.answer i .success
            ((List.range size).map (fun j => (Config.freeWord (s1.free * 4096 + j)).setWidth 8)))
        else .next ((s1.cacheFill ks false).answer i .success (s1.mbytes ks))
  | _ => .next s

/-- HOST_BAR2_WRITE of a function (R432): relaxed, in posted order; a payload above 512 bytes is not taken (R430), and a page that
a checkpoint has yet to stream is waited for (R408). With no operands it has the requests that wait looked at again. -/
def execHostBar2Write (s : State) : Result :=
  match s.ev with
  | .host i va _ data tee =>
    match s.barDie i va tee with
    | none => .next (s.answer i .unsupportedRequest [])
    | some d =>
      if 512 < data.length then .next (s.answer i .unsupportedRequest [])
      else if s.hostWaits s.ev (s.cutHolds d va.toNat data.length) then .next (s.holdHost .hostBar2Write s.ev)
      else
        match s.outsideWrite d va.toNat data (portOfFunction i) with
        | (s1, false) => .next (s1.answer i .unsupportedRequest [])
        | (s1, true) => .next (s1.answer i .success [])
  | .none => .next { s with hostHeld := [], agenda := s.hostHeld ++ s.agenda }
  | _ => .next s

/-- HOST_ATOMICOP of a function (R432): performed at the atomic engine of the home die, which answers; 4 or 8 aligned bytes. -/
def execHostAtomicop (s : State) : Result :=
  match s.ev with
  | .hostAtomic i va o tee =>
    match s.barDie i va tee with
    | none => .next (s.answer i .unsupportedRequest [])
    | some d =>
      if s.hostWaits s.ev (s.cutHolds d va.toNat (hostAtomicOp o).1) then .next (s.holdHost .hostAtomicop s.ev)
      else
        match s.outsideAtomic d va.toNat o (.function i) with
        | (s1, true) => .next (s1.answer i .waiting [])
        | (s1, false) => .next (s1.answer i .unsupportedRequest [])
  | _ => .next s

/-! Measurement, sessions and policies (R441, R442). -/

/-- The SHA-384 digest of what a number spells, 48 bytes (R441). -/
def digest (x : Nat) : List Byte := leBytes 48 (Config.sha384 x).toNat

/-- The measurement blocks a function reads (Table 24-6): digests of the firmware, of FEATURES with FEATCAP and the other fuses, and
of PARTINFO, DBGLOCK and the digest of the policy in force; block 5 is zero until start is complete, and block 6 for a function of
no partition. DESIGN CHOICE: the manual gives what each block covers and not how its parts are put together. -/
def State.measurements (s : State) (i : Nat) : List Byte :=
  ([1, 2, 3, 4].flatMap (fun k => digest (Config.firmware k))) ++
  (if s.allReady then digest ((s.modCtl 0x232).toNat + (s.modCtl 0x230).toNat * 2 ^ 64 + Config.firmware 5 * 2 ^ 128) else zeros 48) ++
  (match (s.vf i).part with
    | none => zeros 48
    | some p =>
      let policy := match (s.part p).policy with
        | some x => (Config.sha384 x.toNat).toNat
        | none => 0
      digest ((s.dieCtl ((s.part p).dies.headD 0) 0x229).toNat + (s.partCtl p 0x212).toNat * 2 ^ 64 + policy * 2 ^ 128))

/-- The certificate chain of a slot (R441): 0 the device's identity, 1 the alias derived from it and the measured firmware. -/
def certificate (slot : Nat) : List Byte :=
  Config.spdmBytes 7 slot (if slot = 1 then (Config.sha384 (Config.firmware 2)).toNat else 0)

/-- The tenant key of a partition (R442): the one delivered through any function bound to it. -/
def State.tenantKeyOf (s : State) (p : Nat) : Option (BitVec 768) :=
  s.vfs.findSome? (fun v => if v.2.part = some p then v.2.tenantKey else none)

/-- SPDM_REQUEST of a function (R441, R442): answered once a management core has ended step 1 of its start. Within a session the
tenant delivers its key, once an epoch for its partition, and the keys of the function's IDE stream and of its partition's frames
are set (R440, R443). -/
def execSpdmRequest (s : State) : Result :=
  match s.ev with
  | .spdm i m =>
    if 65 < i ∨ !allDies.any (fun d => (s.die d).ready || decide (1 < (s.die d).failStep)) then .next s
    else
      let v := s.vf i
      let within (ok : Bool) (u : State) : Result :=
        .next (if v.session.isSome && ok then u.answer i .accepted [] else s.answer i .rejected [])
      match m with
      | .getMeasurements => .next (s.answer i .success (s.measurements i))
      | .getCertificate slot =>
        .next (if slot < 2 then s.answer i .success (certificate slot) else s.answer i .rejected [])
      | .keyExchange nonce =>
        .next ((s.spend.modVf i (fun v => { v with session := some nonce })).answer i .success (Config.spdmBytes 8 i s.free))
      | .deliverKey key =>
        within (v.part.any (fun p => (s.tenantKeyOf p).isNone)) (s.modVf i (fun y => { y with tenantKey := some key }))
      | .programIde key => within true (s.modVf i (fun y => { y with ide := some key }))
      | .macKey key =>
        within v.part.isSome (match v.part with
          | some p => s.modPart p (fun y => { y with macKey := some key })
          | none => s)
      | .endSession => .next ((s.modVf i (fun y => { y with session := none })).answer i .success [])
  | _ => .next s

/-- Whether a policy passes every check (Table 24-7). -/
def State.policyOk (s : State) (i : Nat) (x : BitVec 896) : Bool :=
  let n := x.toNat
  let w (k : Nat) : Nat := n / 2 ^ (32 * k) % 2 ^ 32
  let part := (s.vf i).part
  match part, part.bind s.tenantKeyOf with
  | some p, some key =>
    decide (w 0 = 1) && decide (w 1 < 16) && decide (w 2 = (s.part p).epoch % 2 ^ 32) && decide (w 3 = p) &&
    Config.signatureOk (n % 2 ^ 128 + key.toNat * 2 ^ 128) (n / 2 ^ 128)
  | _, _ => false

/-- Every context held by a DEBUG stop acts on its DISP (R442, R384). -/
def State.releaseHeld (s : State) (d : Nat) : State :=
  (s.die d).tasks.foldl (fun u t => match t.phase with
    | .debugHeld i => u.dispose d t i
    | _ => u) s

/-- Ends every armed capture window of a die: a CAPSTOP that waits completes with LOCKED (R428, R442). -/
def State.endCaptures (s : State) (d : Nat) : State :=
  let cs := (s.die d).captures
  (cs.flatMap (fun c => c.2.stops)).foldl (fun u p => u.endSlot (.launch d p.1) p.2.1 (codeWord 0x33) true)
    (s.modDie d (fun x => { x with captures := [] }))

/-- DEBUG_POLICY of a function (R442): a policy that passes every check is in force and sets DBGLOCK; a request that the
function's state turns away is none (R440). -/
def execDebugPolicy (s : State) : Result :=
  match s.ev with
  | .req i x tee =>
    if (s.vf i).closed tee then .next (s.answer i .unsupportedRequest [])
    else if !bit (s.modCtl 0x232) 6 ∨ !s.policyOk i x then .next (s.answer i .rejected [])
    else
      let p := (s.vf i).part.getD 64
      let old := s.partCtl p 0x212
      let new : W64 := BitVec.ofNat 64 (x.toNat / 2 ^ 32 % 16)
      let s1 := (s.setPartCtl p 0x212 new).modPart p (fun y => { y with policy := some x })
      let s2 := if bit old 0 && !bit new 0 then (s1.part p).dies.foldl State.releaseHeld s1 else s1
      let s3 := if bit old 1 && !bit new 1 then (s2.part p).dies.foldl State.endCaptures s2 else s2
      .next (s3.answer i .accepted [])
  | _ => .next s

end Sys2Proof.Machine
end

