-- ==== Sys2Proof/Machine/CtlRw.lean ====
section
/-! DEFINITION. Reading and writing control registers: MFC, MTC and PRIV.MTC (R306), the access codes (R2, R3), and the
registers with behaviour of their own (R121, R125, R131, R139, R140, R146, R160, R161, R284, R395, R401, R406, R423, R426,
R433). -/

namespace Sys2Proof.Machine

/-! Reading (R306). -/

/-- The suspended packet of a suspend slot (R125, R392). -/
def State.suspendedAt (s : State) (en i : Nat) : Option Packet :=
  (s.cengine en).packets.find? (fun p => decide (p.phase = .suspended i))

/-- DPSTAT of a core (R82). -/
def State.dpstat (s : State) (k : Nat) : W64 :=
  let tags := (s.core k).tags.map (fun e => e.1)
  s.coreCtl k 0x040 ||| BitVec.ofNat 64 (natBits 8 (fun i => decide (i ∈ tags)) * 2 ^ 8 + (8 - tags.length))

/-- RFQSTAT of a core (R146). -/
def State.rfqstat (s : State) (k : Nat) : W64 :=
  let n := (s.core k).refreshQ.length
  s.coreCtl k 0x059 ||| BitVec.ofNat 64 (min (n - 8) 255 * 2 ^ 8 + min n 8)

/-- CUPSTAT of a die (R323). -/
def State.cupstat (s : State) (d : Nat) : W64 :=
  s.dieCtl d 0x191 ||| BitVec.ofNat 64 (min ((s.die d).tasks.countP Task.waits) 65535 * 2 ^ 32 +
    min (s.die d).lexicon.length 4095 * 2 ^ 8 + mapGet 0 (s.die d).tfree d % 256)

/-- CEFLT of a suspend slot (R392). -/
def State.ceflt (s : State) (en i : Nat) : W64 :=
  match s.suspendedAt en i with
  | none => 0
  | some p => BitVec.ofNat 64 (2 ^ 63 + (if p.queue.isSome then 2 ^ 62 else 0) + p.tfa % 4 * 2 ^ 60 + p.tfk % 16 * 2 ^ 56 +
      p.tfva % 2 ^ 56)

/-- SAMPCTL of a die: an enable whose right is closed reads 0 (R420, R426). -/
def State.sampctl (s : State) (d : Nat) : W64 :=
  let w := s.dieCtl d 0x210
  let w1 := if s.dbgRight d 2 then w else setBits w 63 63 0
  if s.dbgRight d 3 then w1 else setBits w1 62 62 0

/-- A control register as a context reads it (R306). -/
def State.ctlRead (s : State) (c n : Nat) : W64 :=
  let k := coreOf c
  let d := dieOf c
  if n = 0x040 then s.dpstat k
  else if n = 0x059 then s.rfqstat k
  else if inRange n 0x070 0x077 then s.tshape c (n - 0x070)
  else if inRange n 0x160 0x163 then
    BitVec.ofNat 64 (natBits 8 (fun i => (s.suspendedAt (d * 4 + (n - 0x160)) i).isSome))
  else if n = 0x191 then s.cupstat d
  else if n = 0x1B0 then BitVec.ofNat 64 (natBits 64 (fun l => s.logLinkLive d l))
  else if n = 0x1B1 then BitVec.ofNat 64 (natBits 64 (fun l => s.logLinkLive d (64 + l)))
  else if n = 0x1B2 then BitVec.ofNat 64 (natBits 64 (fun l => s.logDieLive d l))
  else if inRange n 0x1E0 0x1FF then s.ceflt (d * 4 + (n - 0x1E0) / 8) ((n - 0x1E0) % 8)
  else if n = 0x200 then setBits (s.dieCtl d 0x200) 47 32 ((s.die d).level / 1000)
  else if n = 0x210 then s.sampctl d
  else if inRange n 0x300 0x358 ∧ !s.dbgRight d 1 then 0
  else
    match ctlScope n with
    | some .ctx => s.ctxCtl c n
    | some .core => s.coreCtl k n
    | some .die => s.dieCtl d n
    | some .part => s.partCtl (s.partOf d) n
    | some .module => s.modCtl n
    | none => 0

/-! Writing (R2, R306). -/

/-- The value a register takes under the access codes. -/
def ctlNew (w : Writer) (n : Nat) (old x : W64) : W64 := ctlApply (ctlFields n) w old x

/-- Writes the plain fields of a register in its scope. -/
def State.ctlPut (s : State) (w : Writer) (c n : Nat) (x : W64) : State :=
  let k := coreOf c
  let d := dieOf c
  match ctlScope n with
  | some .ctx => s.setCtxCtl c n (ctlNew w n (s.ctxCtl c n) x)
  | some .core => s.setCoreCtl k n (ctlNew w n (s.coreCtl k n) x)
  | some .die => s.setDieCtl d n (ctlNew w n (s.dieCtl d n) x)
  | some .part => s.setPartCtl (s.partOf d) n (ctlNew w n (s.partCtl (s.partOf d) n) x)
  | some .module => s.setModCtl n (ctlNew w n (s.modCtl n) x)
  | none => s

/-- A word with a field kept as it was unless the value offered lies in a range. -/
def keepUnless (old x : W64) (hi lo min_ max_ : Nat) : W64 :=
  if inRange (bits x hi lo) min_ max_ then x else setBits x hi lo (bits old hi lo)

/-- LCLASS (R139): POLICY 3 leaves the field unchanged; where the write lowers the class's effective limit, it applies at once to
the row groups of that class, in ascending order (R144). -/
def State.lclassPut (s : State) (w : Writer) (c n : Nat) (x : W64) : State :=
  let d := dieOf c
  let s1 := s.ctlPut w c n (keepUnless (s.dieCtl d n) x 13 12 0 2)
  if s1.elim d (n - 0x170) < s.elim d (n - 0x170) then
    ((s1.rgList d).filter (fun g => decide ((s1.rg d g).cls = n - 0x170))).foldl (fun u g => u.limitRg d g) s1
  else s1

/-- TEMPTAB (R140): RET outside 32 to 1023 leaves the field unchanged; a limit that falls is met at the next tick (R139). -/
def State.temptabPut (s : State) (w : Writer) (c n : Nat) (x : W64) : State :=
  s.ctlPut w c n (keepUnless (s.dieCtl (dieOf c) n) x 25 16 32 1023)

/-- LAYOUT (R160): every row group whose placement changes becomes invalid, without a trap, and every Lexicon entry that
covers one is removed. -/
def State.layoutPut (s : State) (w : Writer) (c n : Nat) (x : W64) : State :=
  let k := coreOf c
  let d := dieOf c
  let s1 := s.ctlPut w c n x
  let moved (g : Nat) : Bool :=
    decide (rgCore g = some (k % 64) ∧ s.bankOf k (g % 8192 * 32) ≠ s1.bankOf k (g % 8192 * 32))
  let s2 := ((s1.rgList d).filter moved).foldl (fun u g => u.invalidate d g) s1
  s2.modDie d (fun y => { y with lexicon := y.lexicon.filter (fun e => !(rgsOf e.laddr e.bytes).any moved) })

/-- A slice store cut down to what it can hold, the oldest lines leaving (R15, R161). -/
def sliceFit (room : Nat) : Nat → Table SliceLine → Table SliceLine
  | 0, t => t
  | n + 1, t =>
    if t.length ≤ room then t
    else
      match oldestLine t with
      | some v => sliceFit room n (mapDel t v)
      | none => t

/-- SSCARVE (R161): a change of SIZE writes back and drops dirty lines and invalidates slice scratch, and the cache keeps what its
part of the store can hold; SIZE above 112 changes nothing. -/
def State.sscarvePut (s : State) (w : Writer) (c : Nat) (x : W64) : State :=
  let d := dieOf c
  let s1 := s.ctlPut w c 0x181 (keepUnless (s.dieCtl d 0x181) x 6 0 0 112)
  if s1.carved d = s.carved d then s1
  else
    let s2 := s1.modDie d (fun y =>
      let t := y.slice.filter (fun e => !e.2.dirty)
      { y with slice := sliceFit (s1.sliceRoom d) t.length t })
    ((s2.rgList d).filter (fun g => (rgCore g).isNone)).foldl (fun u g => u.invalidate d g) s2

/-- MXSTAT (R284): writing 1 to PEND resumes the held operation. DESIGN CHOICE: the manual does not say how a handler, a task of its
own context, ends the hold of the saved context it serves: a write to the MXSTAT of a resident owner resumes the operation, and
a PEND that a handler clears in the image leaves an operation still in the engine held until its context, restored, ends the
hold by MXSTAT, MSHAPE or MZERO. -/
def State.mxstatPut (s : State) (w : Writer) (c : Nat) (x : W64) : State :=
  let s1 := s.ctlPut w c 0x078 x
  if bit (s.ctxCtl c 0x078) 63 && bit x 63 && s.owns c then s1.resumeHeld (coreOf c) else s1

/-- PHCTL (R395): a misaligned PKTS changes nothing; EN written 0 clears ARMED. -/
def State.phctlPut (s : State) (w : Writer) (c : Nat) (x : W64) : State :=
  if bits x 31 0 % 64 ≠ 0 then s
  else
    let s1 := s.ctlPut w c 0x088 x
    if bit x 63 then s1 else s1.setCtxCtl c 0x088 (setBits (s1.ctxCtl c 0x088) 61 61 0)

/-- CERESUME of an engine (R125): each 1 of a held slot resumes its packet. -/
def State.ceresumePut (s : State) (w : Writer) (en : Nat) (x : W64) : State :=
  if lockOpen .priv w then (List.range 8).foldl (fun u i => if bit x i then u.resumeSlot en i else u) s else s

/-- Binding a queue (R128, R131): where EN or DESC changes, serving begins from its descriptor, and the device looks for ready
slots; a change of PRIO alone leaves the slots taken as they are. -/
def State.bindPut (s : State) (w : Writer) (c n : Nat) (x : W64) : State :=
  let d := dieOf c
  let s1 := s.ctlPut w c n x
  match queueOf d n with
  | none => s1
  | some q =>
    if s1.queueDesc q = s.queueDesc q ∧ bit (s1.dieCtl d n) 63 = bit (s.dieCtl d n) 63 then s1
    else
      let on := bit (s1.dieCtl d n) 63
      let list (l : List QueueRef) : List QueueRef :=
        if on then (if q ∈ l then l else l ++ [q]) else l.filter (fun z => decide (z ≠ q))
      let s0 := s1.modDie d (fun y => { y with queues := mapDel y.queues (queueKey q) })
      let s2 := match (s1.die d).part with
        | some p => s0.modPart p (fun y => { y with bound := list y.bound })
        | none => s0
      let s3 : State := { s2 with timers := s2.timers.filter (fun t => decide (t.2 ≠ ⟨.queuePollTimer, .queue q⟩)) }
      if bit (s3.dieCtl d n) 63 then (s3.dueOnce .queueSlotTake (.queue q)).after 60000 .queuePollTimer (.queue q) else s3

/-- CKCTL (R406): CUT starts an epoch unless one streams or checkpoints are absent (R449). -/
def State.ckctlPut (s : State) (w : Writer) (c : Nat) (x : W64) : State :=
  let p := s.partOf (dieOf c)
  let s1 := s.ctlPut w c 0x1D8 x
  if lockOpen .priv w && bit x 63 && !bit (s.partCtl p 0x1D9) 63 && bit (s.modCtl 0x232) 4 then
    (s1.setPartCtl p 0x1D8 (setBits (s1.partCtl p 0x1D8) 63 63 1)).dueOnce .checkpointCut (.n p 0 0)
  else s1

/-- SAMPCTL (R426): SPER outside 8 to 30 and LOG2N outside 4 to 28 change nothing, nor do enables whose right is closed; a
sample falls at the next multiple of the period, where a write that changes nothing leaves the one that is due. -/
def State.sampctlPut (s : State) (w : Writer) (c : Nat) (x : W64) : State :=
  let d := dieOf c
  let old := s.dieCtl d 0x210
  let x1 := keepUnless old (keepUnless old x 11 6 8 30) 5 0 4 28
  let x2 := if s.dbgRight d 2 then x1 else setBits x1 63 63 (bits old 63 63)
  let x3 := if s.dbgRight d 3 then x2 else setBits x2 62 62 (bits old 62 62)
  let s1 := s.ctlPut w c 0x210 x3
  if s1.dieCtl d 0x210 = old then s1 else
  let s2 : State := { s1 with timers := s1.timers.filter (fun t => decide (t.2 ≠ ⟨.sampleRecord, .n d 0 0⟩)) }
  if bit (s2.dieCtl d 0x210) 63 then s2.at_ (s2.nextSample d) .sampleRecord (.n d 0 0) else s2

/-- DBGREL (R423): with DBG open, releases the context held by a DEBUG stop of this die whose image lies at the VA. -/
def State.dbgrelPut (s : State) (w : Writer) (d : Nat) (x : W64) : State :=
  if !(lockOpen .priv w && s.dbgRight d 0) then s
  else
    (s.die d).tasks.foldl (fun u t => match t.phase with
      | .debugHeld i => if u.imageVa i = x.toNat then u.dispose d t i else u
      | _ => u) s

/-- HOSTWIN (R433): the lock is open only to PRIV.MTC and the driver while no function of the partition is locked, and an attempt
of theirs then moves the functions to ERROR (R440); LOG2SZ outside 30 to 47 leaves the field unchanged. -/
def State.hostwinPut (s : State) (w : Writer) (c n : Nat) (x : W64) : State :=
  let d := dieOf c
  if w ≠ .priv then s
  else if s.dieLocked d then s.tdispError d
  else s.ctlPut w c n (if n % 2 = 0 then keepUnless (s.dieCtl d n) x 5 0 30 47 else x)

/-- RETCTL (R416): where EN becomes 1 the idle time of each core of the die begins, and under a new IDLE each idle core's is
looked at again. -/
def State.retctlPut (s : State) (w : Writer) (c : Nat) (x : W64) : State :=
  let d := dieOf c
  let s1 := s.ctlPut w c 0x203 x
  if s1.dieCtl d 0x203 = s.dieCtl d 0x203 ∨ ¬ bit (s1.dieCtl d 0x203) 63 then s1
  else
    (List.range 64).foldl (fun u i =>
      let k := d * 64 + i
      let y := u.core k
      if y.running.isSome ∨ y.retention then u
      else if !bit (s.dieCtl d 0x203) 63 then u.idleCore k
      else if u.noneResident k && y.engine.owner.isNone then u
      else u.after 6 .retentionEntry (.n k y.idleSince 0)) s1

/-- A write of a control register (R306): the behaviour of its own, or its plain fields. -/
def State.ctlWrite (s : State) (w : Writer) (c n : Nat) (x : W64) : State :=
  let d := dieOf c
  if n = 0x058 then if bit x 63 && bit (s.ctxCtl c 0x058) 63 then s.setCtxCtl c 0x058 0 else s
  else if inRange n 0x060 0x063 then s.layoutPut w c n x
  else if n = 0x068 then s.ctlPut w c n (keepUnless (s.ctxCtl c n) x 1 0 0 2)
  else if n = 0x078 then s.mxstatPut w c x
  else if n = 0x088 then s.phctlPut w c x
  else if n = 0x090 then s.ctlPut w c n (keepUnless (s.ctxCtl c n) x 2 0 1 4)
  else if n = 0x0A0 then s
  else if inRange n 0x110 0x14F ∨ inRange n 0x1A0 0x1AF ∨ inRange n 0x1C0 0x1CF then s.bindPut w c n x
  else if inRange n 0x160 0x163 then s.ceresumePut w (d * 4 + (n - 0x160)) x
  else if inRange n 0x170 0x177 then s.lclassPut w c n x
  else if inRange n 0x178 0x17E then s.temptabPut w c n x
  else if n = 0x181 then s.sscarvePut w c x
  else if n = 0x1D5 then s.ctlPut w c n (if bit (s.modCtl 0x232) 3 then x else setBits x 63 63 0)
  else if n = 0x1D8 then s.ckctlPut w c x
  else if n = 0x203 then s.retctlPut w c x
  else if n = 0x204 then (s.ctlPut w c n (keepUnless (s.dieCtl d n) x 3 0 4 8)).recopy d (s.copyDiv d)
  else if n = 0x210 then s.sampctlPut w c x
  else if n = 0x213 then s.dbgrelPut w d x
  else if inRange n 0x220 0x227 then s.hostwinPut w c n x
  else s.ctlPut w c n x

/-! The instructions (R306). -/

/-- MFC: the register as it stands at issue (R306). -/
def opMfc (d : Reg) (imm : Imm10) : SlotOp :=
  { scalarOp d [] 1 (fun s => s.ctlRead s.iss.ctx imm.raw) with
    check := pureCheck (fun _ => if (ctlScope imm.raw).isNone then some (Stop.of 0x04) else none) }
/-- MFC at issue (R306). -/
def execMfc (d : Reg) (imm : Imm10) (s : State) : Result := (opMfc d imm).exec s

/-- What MTC and PRIV.MTC check: an assigned number, and an aligned PKTS (R306, R395). -/
def mtcCheck (n : Nat) (a : Reg) (s : State) : Option Stop :=
  if (ctlScope n).isNone ∨ (n = 0x088 ∧ bits (s.g a) 31 0 % 64 ≠ 0) then some (Stop.of 0x04) else none

/-- MTC (R306). -/
def opMtc (ctl : Imm10) (a : Reg) : SlotOp :=
  { SlotOp.plain (fun s => s.ctlWrite .user s.iss.ctx ctl.raw (s.g a)) with
    reads := gref a, phase := 1, check := pureCheck (mtcCheck ctl.raw a) }
/-- MTC at issue (R306). -/
def execMtc (ctl : Imm10) (a : Reg) (s : State) : Result := (opMtc ctl a).exec s

/-- PRIV.MTC: privileged, and open to the locks that privileged state opens (R41, R306). -/
def opPrivMtc (ctl : Imm10) (a : Reg) : SlotOp :=
  { SlotOp.plain (fun s => s.ctlWrite .priv s.iss.ctx ctl.raw (s.g a)) with
    reads := gref a, phase := 1, check := pureCheck (mtcCheck ctl.raw a),
    before := fun s => if s.cx.priv then none else some (Stop.of 0x03) }
/-- PRIV.MTC at issue (R306). -/
def execPrivMtc (ctl : Imm10) (a : Reg) (s : State) : Result := (opPrivMtc ctl a).exec s

/-! Writes by the driver and the management cores (R306, R461). -/

/-- The context slot that a write's operands name. -/
def ctlCtx (d k slot : Nat) : Nat := (d * 64 + k) * 4 + slot

/-- The registers that a locked function freezes against the driver (R440). -/
def frozenCtl (n : Nat) : Bool :=
  inRange n 0x110 0x14F || inRange n 0x1A0 0x1AF || inRange n 0x1C0 0x1CF || inRange n 0x220 0x227

/-- A write to one of some registers by an agent (R306): the driver's attempt on a frozen one moves the function to ERROR
(R440). -/
def State.agentWrite (s : State) (own : Nat → Bool) : Result :=
  match s.ev with
  | .ctl w d k slot n x =>
    if !own n ∨ 64 ≤ d ∨ 64 ≤ k ∨ 4 ≤ slot then .next s
    else if w = .priv ∧ frozenCtl n ∧ s.dieLocked d then .next (s.tdispError d)
    else .next (s.ctlWrite w (ctlCtx d k slot) n x)
  | _ => .next s

/-- CONTROL_REGISTER_WRITE (R306): any assigned register. -/
def execControlRegisterWrite (s : State) : Result := s.agentWrite (fun n => (ctlScope n).isSome)

/-- LCLASS_WRITE (R139). -/
def execLclassWrite (s : State) : Result := s.agentWrite (fun n => inRange n 0x170 0x177)

/-- TEMPTAB_WRITE (R140). -/
def execTemptabWrite (s : State) : Result := s.agentWrite (fun n => inRange n 0x178 0x17F)

/-- LAYOUT_WRITE (R160). -/
def execLayoutWrite (s : State) : Result := s.agentWrite (fun n => inRange n 0x060 0x063)

/-- SSCARVE_WRITE (R161). -/
def execSscarveWrite (s : State) : Result := s.agentWrite (fun n => decide (n = 0x181))

/-- MXSTAT_WRITE (R284). -/
def execMxstatWrite (s : State) : Result := s.agentWrite (fun n => decide (n = 0x078))

/-- PHCTL_WRITE (R395). -/
def execPhctlWrite (s : State) : Result := s.agentWrite (fun n => decide (n = 0x088))

/-- DEBUG_RELEASE (R423). -/
def execDebugRelease (s : State) : Result := s.agentWrite (fun n => decide (n = 0x213))

end Sys2Proof.Machine
end

