-- ==== Sys2Proof/Machine/Boot.lean ====
section
/-! DEFINITION. Reset (R446), the start of the management cores (R447), and feature negotiation (R448, R449). -/

namespace Sys2Proof.Machine

/-- POWER_ON_RESET (R446): every field at reset; device memory reads under new keys (R439), and the host's memory and the
free-value counter stand. -/
def execPowerOnReset (s : State) : Result :=
  .next { State.reset with
    free := s.free + 1, hostMem := s.hostMem,
    dies := allDies.map (fun d => (d, { Die.reset with keyGen := s.free + 1 })) }

/-- Some bits of a word set. -/
def setMask (x : W64) (m : Nat) : W64 := x ||| BitVec.ofNat 64 m

/-- Records the links of a die that trained, and its own bit (R359, R447). -/
def State.train (s : State) (d : Nat) (l0 l1 : W64) : State :=
  let mine (n : Nat) : Bool := decide (n ∈ linksOf d)
  let m0 := natBits 64 (fun i => bit l0 i && mine i)
  let m1 := natBits 64 (fun i => bit l1 i && mine (64 + i))
  let put (u : State) (n m : Nat) : State :=
    { u.setModCtl n (setMask (u.modCtl n) m) with trained := mapPut u.trained n (setMask (mapGet 0 u.trained n) m) }
  put (put (put s 0x1B0 m0) 0x1B1 m1) 0x1B2 (2 ^ d)

/-- A control with bit 63 cleared. -/
def clearTop (t : Table W64) (n : Nat) : Table W64 :=
  match mapFind t n with
  | none => t
  | some v => mapPut t n (setBits v 63 63 0)

/-- FEATURES takes a value on every die (R449): without AUDIT or CKPT, EN of PRCTL or CUT of CKCTL is 0, and FLOOR follows BOOST. -/
def State.setFeatures (s : State) (x : W64) : State :=
  let s1 := s.setModCtl 0x232 x
  let drop (p : Partition) : Partition :=
    let c1 := if bit x 3 then p.ctl else clearTop p.ctl 0x1D5
    { p with ctl := if bit x 4 then c1 else clearTop c1 0x1D8 }
  allDies.foldl State.refloor { s1 with parts := s1.parts.map (fun p => (p.1, drop p.2)) }

/-- The answer to a negotiation once the dies are READY (R449). -/
def State.negotiate (s : State) (x : BitVec 896) : State :=
  let r := x.toNat % 2 ^ 128
  if s.features then s.answer pf0 .locked []
  else if 128 ≤ r ∨ BitVec.ofNat 64 r &&& ~~~(s.modCtl 0x230) ≠ 0 then s.answer pf0 .unsupported []
  else (s.setFeatures (BitVec.ofNat 64 r)).answer pf0 .accepted []

/-- MANAGEMENT_CORE_BOOT of a die (R447): a failed step leaves it in reset, offline, and is reported; else the firmware runs, links
train, FEATCAP is loaded, and the die is READY. A die that was lost before (R393) stays so. -/
def execManagementCoreBoot (s : State) : Result :=
  match s.ev with
  | .boot d o =>
    if 64 ≤ d ∨ (s.die d).ready ∨ (s.die d).failCode ≠ 0 ∨ !(s.die d).online then .next s
    else
      match o.failed with
      | some (step, code) =>
        let s1 := s.modDie d (fun x => { x with failCode := code.toNat + 1, failStep := step, online := false })
        .next ((s1.answer pf0 (.bootFailed d code) []).wakeRequests)
      | none =>
        let s1 := (s.fwSignal d).train d o.links0 o.links1
        let s2 := s1.setModCtl 0x230 (BitVec.ofNat 64 (o.fuses.toNat % 128) ||| 1)
        .next ((s2.modDie d (fun x => { x with ready := true })).wakeRequests)
  | _ => .next s

/-- FEATURE_NEGOTIATION with a request in the low 128 bits (R449). -/
def execFeatureNegotiation (s : State) : Result :=
  match s.ev with
  | .req _ x _ =>
    .next (if s.allReady then s.negotiate x else ({ s with requests := s.requests ++ [x] } : State).answer pf0 .waiting [])
  | _ => .next s

end Sys2Proof.Machine
end

