-- ==== Sys2Proof/Machine/Scalar.lean ====
section
/-! DEFINITION. Scalar and integer instructions (R191 to R211). Each reads its sources at issue and writes one scalar
register at its latency; a write to g0 is discarded. -/

namespace Sys2Proof.Machine

/-- A register-register operation landing at 1 (R196). -/
def alu3 (d a b : Reg) (f : W64 → W64 → W64) : SlotOp := scalarOp d [a, b] 1 (fun s => f (s.g a) (s.g b))
/-- A register-immediate operation landing at 1 (R197). -/
def aluI (d a : Reg) (imm : Imm10) (f : W64 → W64 → W64) : SlotOp := scalarOp d [a] 1 (fun s => f (s.g a) imm.w)
/-- A one-source operation landing at 1 (R204). -/
def alu2 (d a : Reg) (f : W64 → W64) : SlotOp := scalarOp d [a] 1 (fun s => f (s.g a))
/-- 1 when a relation holds, else 0 (R201). -/
def flag64 (b : Bool) : W64 := if b then 1 else 0

/-- ADD wraps modulo 2^64 (R196). -/
def opAdd (d a b : Reg) : SlotOp := alu3 d a b (· + ·)
/-- ADD at issue (R196). -/
def execAdd (d a b : Reg) (s : State) : Result := (opAdd d a b).exec s

/-- SUB wraps modulo 2^64 (R196). -/
def opSub (d a b : Reg) : SlotOp := alu3 d a b (· - ·)
/-- SUB at issue (R196). -/
def execSub (d a b : Reg) (s : State) : Result := (opSub d a b).exec s

/-- AND (R196). -/
def opAnd (d a b : Reg) : SlotOp := alu3 d a b (· &&& ·)
/-- AND at issue (R196). -/
def execAnd (d a b : Reg) (s : State) : Result := (opAnd d a b).exec s

/-- OR (R196). -/
def opOr (d a b : Reg) : SlotOp := alu3 d a b (· ||| ·)
/-- OR at issue (R196). -/
def execOr (d a b : Reg) (s : State) : Result := (opOr d a b).exec s

/-- XOR (R196). -/
def opXor (d a b : Reg) : SlotOp := alu3 d a b (· ^^^ ·)
/-- XOR at issue (R196). -/
def execXor (d a b : Reg) (s : State) : Result := (opXor d a b).exec s

/-- ANDN: a and not b (R196). -/
def opAndn (d a b : Reg) : SlotOp := alu3 d a b (fun x y => x &&& ~~~y)
/-- ANDN at issue (R196). -/
def execAndn (d a b : Reg) (s : State) : Result := (opAndn d a b).exec s

/-- ADDI (R197). -/
def opAddi (d a : Reg) (imm : Imm10) : SlotOp := aluI d a imm (· + ·)
/-- ADDI at issue (R197). -/
def execAddi (d a : Reg) (imm : Imm10) (s : State) : Result := (opAddi d a imm).exec s

/-- ANDI (R197). -/
def opAndi (d a : Reg) (imm : Imm10) : SlotOp := aluI d a imm (· &&& ·)
/-- ANDI at issue (R197). -/
def execAndi (d a : Reg) (imm : Imm10) (s : State) : Result := (opAndi d a imm).exec s

/-- ORI (R197). -/
def opOri (d a : Reg) (imm : Imm10) : SlotOp := aluI d a imm (· ||| ·)
/-- ORI at issue (R197). -/
def execOri (d a : Reg) (imm : Imm10) (s : State) : Result := (opOri d a imm).exec s

/-- XORI (R197). -/
def opXori (d a : Reg) (imm : Imm10) : SlotOp := aluI d a imm (· ^^^ ·)
/-- XORI at issue (R197). -/
def execXori (d a : Reg) (imm : Imm10) (s : State) : Result := (opXori d a imm).exec s

/-- SHL by an unreduced count: 64 and above give 0 (R198). -/
def shl64 (x n : W64) : W64 := if n.toNat < 64 then x <<< n.toNat else 0
/-- SHR by an unreduced count (R198). -/
def shr64 (x n : W64) : W64 := if n.toNat < 64 then x >>> n.toNat else 0
/-- SAR by an unreduced count: 64 and above give copies of the sign bit (R198). -/
def sar64 (x n : W64) : W64 := if n.toNat < 64 then x.sshiftRight n.toNat else x.sshiftRight 63

/-- SHL (R198). -/
def opShl (d a b : Reg) : SlotOp := alu3 d a b shl64
/-- SHL at issue (R198). -/
def execShl (d a b : Reg) (s : State) : Result := (opShl d a b).exec s

/-- SHR (R198). -/
def opShr (d a b : Reg) : SlotOp := alu3 d a b shr64
/-- SHR at issue (R198). -/
def execShr (d a b : Reg) (s : State) : Result := (opShr d a b).exec s

/-- SAR (R198). -/
def opSar (d a b : Reg) : SlotOp := alu3 d a b sar64
/-- SAR at issue (R198). -/
def execSar (d a b : Reg) (s : State) : Result := (opSar d a b).exec s

/-- SHLI: the count lies in 0 to 63 (R198, WellFormed). -/
def opShli (d a : Reg) (imm : Imm10) : SlotOp := aluI d a imm shl64
/-- SHLI at issue (R198). -/
def execShli (d a : Reg) (imm : Imm10) (s : State) : Result := (opShli d a imm).exec s

/-- SHRI (R198). -/
def opShri (d a : Reg) (imm : Imm10) : SlotOp := aluI d a imm shr64
/-- SHRI at issue (R198). -/
def execShri (d a : Reg) (imm : Imm10) (s : State) : Result := (opShri d a imm).exec s

/-- SARI (R198). -/
def opSari (d a : Reg) (imm : Imm10) : SlotOp := aluI d a imm sar64
/-- SARI at issue (R198). -/
def execSari (d a : Reg) (imm : Imm10) (s : State) : Result := (opSari d a imm).exec s

/-- A multiplication landing at 3 (R194, R199). -/
def mul3 (d a b : Reg) (f : W64 → W64 → W64) : SlotOp := scalarOp d [a, b] 3 (fun s => f (s.g a) (s.g b))
/-- MUL: the low half of the product (R199). -/
def opMul (d a b : Reg) : SlotOp := mul3 d a b (· * ·)
/-- MUL at issue (R199). -/
def execMul (d a b : Reg) (s : State) : Result := (opMul d a b).exec s

/-- MULH: the high half of the exact signed product (R199). -/
def opMulh (d a b : Reg) : SlotOp := mul3 d a b (fun x y => BitVec.ofInt 64 (x.toInt * y.toInt / (2 ^ 64 : Nat)))
/-- MULH at issue (R199). -/
def execMulh (d a b : Reg) (s : State) : Result := (opMulh d a b).exec s

/-- MULHU: the high half of the exact unsigned product (R199). -/
def opMulhu (d a b : Reg) : SlotOp := mul3 d a b (fun x y => BitVec.ofNat 64 (x.toNat * y.toNat / 2 ^ 64))
/-- MULHU at issue (R199). -/
def execMulhu (d a b : Reg) (s : State) : Result := (opMulhu d a b).exec s

/-- MIN, signed (R200). -/
def opMin (d a b : Reg) : SlotOp := alu3 d a b (fun x y => if x.slt y then x else y)
/-- MIN at issue (R200). -/
def execMin (d a b : Reg) (s : State) : Result := (opMin d a b).exec s

/-- MAX, signed (R200). -/
def opMax (d a b : Reg) : SlotOp := alu3 d a b (fun x y => if x.slt y then y else x)
/-- MAX at issue (R200). -/
def execMax (d a b : Reg) (s : State) : Result := (opMax d a b).exec s

/-- MINU (R200). -/
def opMinu (d a b : Reg) : SlotOp := alu3 d a b (fun x y => if x.ult y then x else y)
/-- MINU at issue (R200). -/
def execMinu (d a b : Reg) (s : State) : Result := (opMinu d a b).exec s

/-- MAXU (R200). -/
def opMaxu (d a b : Reg) : SlotOp := alu3 d a b (fun x y => if x.ult y then y else x)
/-- MAXU at issue (R200). -/
def execMaxu (d a b : Reg) (s : State) : Result := (opMaxu d a b).exec s

/-- SEQ (R201). -/
def opSeq (d a b : Reg) : SlotOp := alu3 d a b (fun x y => flag64 (x == y))
/-- SEQ at issue (R201). -/
def execSeq (d a b : Reg) (s : State) : Result := (opSeq d a b).exec s

/-- SNE (R201). -/
def opSne (d a b : Reg) : SlotOp := alu3 d a b (fun x y => flag64 (x != y))
/-- SNE at issue (R201). -/
def execSne (d a b : Reg) (s : State) : Result := (opSne d a b).exec s

/-- SLT, signed (R201). -/
def opSlt (d a b : Reg) : SlotOp := alu3 d a b (fun x y => flag64 (x.slt y))
/-- SLT at issue (R201). -/
def execSlt (d a b : Reg) (s : State) : Result := (opSlt d a b).exec s

/-- SLTU (R201). -/
def opSltu (d a b : Reg) : SlotOp := alu3 d a b (fun x y => flag64 (x.ult y))
/-- SLTU at issue (R201). -/
def execSltu (d a b : Reg) (s : State) : Result := (opSltu d a b).exec s

/-- SEQI (R201). -/
def opSeqi (d a : Reg) (imm : Imm10) : SlotOp := aluI d a imm (fun x y => flag64 (x == y))
/-- SEQI at issue (R201). -/
def execSeqi (d a : Reg) (imm : Imm10) (s : State) : Result := (opSeqi d a imm).exec s

/-- SNEI (R201). -/
def opSnei (d a : Reg) (imm : Imm10) : SlotOp := aluI d a imm (fun x y => flag64 (x != y))
/-- SNEI at issue (R201). -/
def execSnei (d a : Reg) (imm : Imm10) (s : State) : Result := (opSnei d a imm).exec s

/-- SLTI, signed (R201). -/
def opSlti (d a : Reg) (imm : Imm10) : SlotOp := aluI d a imm (fun x y => flag64 (x.slt y))
/-- SLTI at issue (R201). -/
def execSlti (d a : Reg) (imm : Imm10) (s : State) : Result := (opSlti d a imm).exec s

/-- SLTUI: the immediate sign-extends, then compares unsigned (R201). -/
def opSltui (d a : Reg) (imm : Imm10) : SlotOp := aluI d a imm (fun x y => flag64 (x.ult y))
/-- SLTUI at issue (R201). -/
def execSltui (d a : Reg) (imm : Imm10) (s : State) : Result := (opSltui d a imm).exec s

/-- The register a 4-bit field names (R202). -/
def reg4 (c : BitVec 4) : Reg := c.zeroExtend 6
/-- SEL: g[a] when g[c] is not zero, else g[b] (R202). -/
def opSel (d a b : Reg) (c : BitVec 4) : SlotOp :=
  scalarOp d [a, b, reg4 c] 1 (fun s => if s.g (reg4 c) ≠ 0 then s.g a else s.g b)
/-- SEL at issue (R202). -/
def execSel (d a b : Reg) (c : BitVec 4) (s : State) : Result := (opSel d a b c).exec s

/-- LDI (R203). -/
def opLdi (d : Reg) (imm : Imm16) : SlotOp := scalarOp d [] 1 (fun _ => imm.w)
/-- LDI at issue (R203). -/
def execLdi (d : Reg) (imm : Imm16) (s : State) : Result := (opLdi d imm).exec s

/-- LDHI replaces the upper 32 bits and keeps the lower, reading g[d] as a source (R192, R203). -/
def opLdhi (d : Reg) (imm : Imm16) : SlotOp :=
  scalarOp d [d] 1 (fun s => (imm.w <<< 32) ||| (s.g d &&& 0xFFFFFFFF#64))
/-- LDHI at issue (R203). -/
def execLdhi (d : Reg) (imm : Imm16) (s : State) : Result := (opLdhi d imm).exec s

/-- Leading zeros from bit 63 (R204). -/
def clz64 (x : W64) : Nat := if x = 0 then 64 else 63 - x.toNat.log2
/-- Trailing zeros from bit 0 (R204). -/
def ctz64 (x : W64) : Nat := ((List.range 64).find? (fun i => x.getLsbD i)).getD 64
/-- One bits (R204). -/
def popc64 (x : W64) : Nat := (List.range 64).countP (fun i => x.getLsbD i)
/-- Bit reversal (R204). -/
def brev64 (x : W64) : W64 :=
  BitVec.ofNat 64 ((List.range 64).foldl (fun n i => n + (if x.getLsbD (63 - i) then 2 ^ i else 0)) 0)

/-- CLZ (R204). -/
def opClz (d a : Reg) : SlotOp := alu2 d a (fun x => BitVec.ofNat 64 (clz64 x))
/-- CLZ at issue (R204). -/
def execClz (d a : Reg) (s : State) : Result := (opClz d a).exec s

/-- CTZ (R204). -/
def opCtz (d a : Reg) : SlotOp := alu2 d a (fun x => BitVec.ofNat 64 (ctz64 x))
/-- CTZ at issue (R204). -/
def execCtz (d a : Reg) (s : State) : Result := (opCtz d a).exec s

/-- POPC (R204). -/
def opPopc (d a : Reg) : SlotOp := alu2 d a (fun x => BitVec.ofNat 64 (popc64 x))
/-- POPC at issue (R204). -/
def execPopc (d a : Reg) (s : State) : Result := (opPopc d a).exec s

/-- BREV (R204). -/
def opBrev (d a : Reg) : SlotOp := alu2 d a brev64
/-- BREV at issue (R204). -/
def execBrev (d a : Reg) (s : State) : Result := (opBrev d a).exec s

/-- LEN of a bit-field control word: 65 to 127 act as 64 (R205). -/
def bfLen (c : W64) : Nat := min (bits c 14 8) 64
/-- POS of a bit-field control word (R205). -/
def bfPos (c : W64) : Nat := bits c 5 0

/-- A field as a signed or unsigned 64-bit value (R206): `x` is g[a] extended to 128 bits in the operation's way. -/
def bfExtract (signed : Bool) (x : Int) (c : W64) : W64 :=
  let n := bfLen c
  if n = 0 then 0
  else
    let f := (x / (2 ^ bfPos c : Nat)) % (2 ^ n : Nat)
    if signed then sext64 n f.toNat else BitVec.ofInt 64 f

/-- BFX: above bit 63 stand copies of the sign (R206). -/
def opBfx (d a b : Reg) : SlotOp := alu3 d a b (fun x c => bfExtract true x.toInt c)
/-- BFX at issue (R206). -/
def execBfx (d a b : Reg) (s : State) : Result := (opBfx d a b).exec s

/-- BFX.U: above bit 63 stand zeros (R206). -/
def opBfxU (d a b : Reg) : SlotOp := alu3 d a b (fun x c => bfExtract false (x.toNat : Int) c)
/-- BFX.U at issue (R206). -/
def execBfxU (d a b : Reg) (s : State) : Result := (opBfxU d a b).exec s

/-- The mask of a field cut off at bit 63 (R207). -/
def bfMask (c : W64) : W64 := BitVec.ofNat 64 ((2 ^ bfLen c - 1) * 2 ^ bfPos c)
/-- BFI, which reads g[d] (R192, R207). -/
def opBfi (d a b : Reg) : SlotOp :=
  scalarOp d [a, b, d] 1 (fun s =>
    (s.g d &&& ~~~(bfMask (s.g b))) ||| ((s.g a <<< bfPos (s.g b)) &&& bfMask (s.g b)))
/-- BFI at issue (R207). -/
def execBfi (d a b : Reg) (s : State) : Result := (opBfi d a b).exec s

/-- The register after an even register. -/
def succReg (a : Reg) : Reg := a + 1
/-- The funnel shift of the pair g[a+1] : g[a] (R208). -/
def funnel64 (hi lo : W64) (n : Nat) : W64 := BitVec.ofNat 64 ((hi.toNat * 2 ^ 64 + lo.toNat) / 2 ^ n)
/-- FSHR: the count is g[b][6:0] (R208). -/
def opFshr (d a b : Reg) : SlotOp :=
  scalarOp d [a, succReg a, b] 1 (fun s => funnel64 (s.g (succReg a)) (s.g a) (bits (s.g b) 6 0))
/-- FSHR at issue (R208). -/
def execFshr (d a b : Reg) (s : State) : Result := (opFshr d a b).exec s

/-- FSHRI: the count is the immediate, 0 to 127 (R208, WellFormed). -/
def opFshri (d a : Reg) (imm : Imm10) : SlotOp :=
  scalarOp d [a, succReg a] 1 (fun s => funnel64 (s.g (succReg a)) (s.g a) imm.int.toNat)
/-- FSHRI at issue (R208). -/
def execFshri (d a : Reg) (imm : Imm10) (s : State) : Result := (opFshri d a imm).exec s

/-- A divide: lands at 20, and a zero divisor sets DIVZ in its issue cycle after every read of its bundle (R209 to
R211), also when d is 0. -/
def divOp (d a b : Reg) (f : W64 → W64 → W64) : SlotOp :=
  { scalarOp d [a, b] 20 (fun s => f (s.g a) (s.g b)) with
    phase := 1
    effect := fun s =>
      (s.pendG d 20 (f (s.g a) (s.g b))).setStat s.iss.ctx (if s.g b = 0 then 0x20 else 0) }

/-- IDIV: truncated toward zero; by zero −1 (R209). -/
def opIdiv (d a b : Reg) : SlotOp :=
  divOp d a b (fun x y => if y = 0 then BitVec.ofInt 64 (-1) else BitVec.ofInt 64 (x.toInt.tdiv y.toInt))
/-- IDIV at issue (R209). -/
def execIdiv (d a b : Reg) (s : State) : Result := (opIdiv d a b).exec s

/-- IDIVU: by zero 2^64 − 1 (R209). -/
def opIdivu (d a b : Reg) : SlotOp :=
  divOp d a b (fun x y => if y = 0 then BitVec.ofInt 64 (-1) else BitVec.ofNat 64 (x.toNat / y.toNat))
/-- IDIVU at issue (R209). -/
def execIdivu (d a b : Reg) (s : State) : Result := (opIdivu d a b).exec s

/-- IREM: the sign of g[a]; by zero g[a] (R209). -/
def opIrem (d a b : Reg) : SlotOp :=
  divOp d a b (fun x y => if y = 0 then x else BitVec.ofInt 64 (x.toInt.tmod y.toInt))
/-- IREM at issue (R209). -/
def execIrem (d a b : Reg) (s : State) : Result := (opIrem d a b).exec s

/-- IREMU: by zero g[a] (R209). -/
def opIremu (d a b : Reg) : SlotOp :=
  divOp d a b (fun x y => if y = 0 then x else BitVec.ofNat 64 (x.toNat % y.toNat))
/-- IREMU at issue (R209). -/
def execIremu (d a b : Reg) (s : State) : Result := (opIremu d a b).exec s

end Sys2Proof.Machine
end

