-- ==== Sys2Proof/Machine/Sfu.lean ====
section
/-! DEFINITION. The special functions of the F slot (R252 to R254). RCP and SQRT are exact before their one rounding.
Of the others the manual bounds the result and fixes no bits: the exact value is computed to some 200 bits, and the internal
value is any that the free value of Config picks within the bounds of Table 12-6. -/

namespace Sys2Proof.Machine

/-- What a special function makes of a lane before rounding (R252, R254): a fixed result with flags and no rounding, or
the internal value y with whether it is reported exact. -/
inductive SfuY where
  | fixed (bits : Nat) (flags : Nat)
  | value (y : FVal) (exact : Option Bool)
deriving DecidableEq, Repr

/-- The integer square root, bit by bit from 2^39. -/
def isqrt (n : Nat) : Nat :=
  (List.range 40).foldl (fun r i =>
    let c := r + 2 ^ (39 - i)
    if c * c ≤ n then c else r) 0

/-- The square root of a positive num / den × 2^e as an exact value, or, where it is irrational, a value strictly between
the same two neighbours on any grid of up to 36 bits (R252). -/
def sqrtEx (n d : Nat) (e : Int) : Ex :=
  let e0 := if e % 2 = 0 then e else e - 1
  let n0 := if e % 2 = 0 then n else 2 * n
  let k := (72 + d.log2 - n0.log2) / 2
  let q := n0 * 4 ^ k / d
  let r := isqrt q
  if r * r * d = n0 * 4 ^ k then ⟨false, r, 1, e0 / 2 - (k : Int)⟩
  else ⟨false, 2 * r + 1, 1, e0 / 2 - (k : Int) - 1⟩

/-- Whether a positive value is a power of two, and its exponent. -/
def powerOf2 (n : Nat) (e : Int) : Option Int := if n = 2 ^ n.log2 then some (e + (n.log2 : Int)) else none

/-! The exact values, as multiples of 2^−256. -/

/-- One. -/
def fx1 : Nat := 2 ^ 256
/-- The natural logarithm of 2, of which the first 256 bits after the point stand here. -/
def fxLn2 : Nat := 0xb17217f7d1cf79abc9e3b39803f2f6af40f343267298b62d8a0d175b8baafa2b
/-- The number π, likewise. -/
def fxPi : Nat := 0x3243f6a8885a308d313198a2e03707344a4093822299f31d0082efa98ec4e6c89

/-- The magnitude of an exact value whose last bit is no finer than 2^−256. -/
def Ex.fx (x : Ex) : Nat := x.num * 2 ^ (x.exp + 256).toNat / x.den

/-- A positive multiple of 2^−256 as an exact value. -/
def Ex.ofFx (neg : Bool) (n : Nat) : Ex := ⟨neg, n, 1, -256⟩

/-- e^t for t below 1, by its series. -/
def fxExp (t : Nat) : Nat :=
  ((List.range 64).foldl (fun (p : Nat × Nat) i => (p.1 * t / fx1 / (i + 1), p.2 + p.1 * t / fx1 / (i + 1))) (fx1, fx1)).2

/-- e^−t; never zero. -/
def fxExpNeg (t : Nat) : Nat := max 1 (fx1 * fx1 / fxExp (t % fxLn2) / 2 ^ (t / fxLn2))

/-- The natural logarithm of m in [1, 2): twice the series of atanh of (m − 1) / (m + 1). -/
def fxLn (m : Nat) : Nat :=
  let z := (m - fx1) * fx1 / (m + fx1)
  let z2 := z * z / fx1
  2 * ((List.range 90).foldl (fun (p : Nat × Nat) i => (p.1 * z2 / fx1, p.2 + p.1 / (2 * i + 1))) (z, 0)).2

/-- The sine of t, or its cosine, by the series; t is below 2π. No FP32 number but 0 has the cosine 1. -/
def fxTrig (cos : Bool) (t : Nat) : Int :=
  let step (p : Nat × Int) (i : Nat) : Nat × Int :=
    let term : Int := if i % 4 < 2 then (p.1 : Int) else -(p.1 : Int)
    (p.1 * t / fx1 / (i + 1), if (i % 2 = 0) = cos then p.2 + term else p.2)
  min ((List.range 80).foldl step (fx1, 0)).2 ((fx1 : Int) - 1)

/-- The base-2 logarithm of a positive value, as a signed multiple of 2^−256. -/
def Ex.fxLog2 (x : Ex) : Int :=
  let k := x.ilog2
  let n := x.num * 2 ^ (x.exp - k).toNat
  let d := x.den * 2 ^ (k - x.exp).toNat
  k * (fx1 : Int) + ((fxLn (n * fx1 / d) * fx1 / fxLn2 : Nat) : Int)

/-- The exact value of EXP2, TANH or SIGM of a non-zero operand (R252), whose magnitude is below 256 for EXP2. -/
def exactY (op : Nat) (x : Ex) : Ex :=
  let a := x.fx
  match op with
  | 4 =>
    let n : Int := if x.neg then -((a + fx1 - 1) / fx1 : Nat) else (a / fx1 : Nat)
    let f := if x.neg then (fx1 - a % fx1) % fx1 else a % fx1
    ⟨false, fxExp (f * fxLn2 / fx1), 1, n - 256⟩
  | 6 =>
    if Ex.lt ⟨false, x.num, x.den, x.exp⟩ ⟨false, 1, 1, -60⟩ then
      ⟨x.neg, x.num * 2 ^ 70 - 1, x.den, x.exp - 70⟩
    else
      let u := fxExpNeg (min (2 * a) (1000 * fx1))
      ⟨x.neg, fx1 - u, fx1 + u, 0⟩
  | _ =>
    let u := fxExpNeg (min a (1000 * fx1))
    if x.neg then ⟨false, u, fx1 + u, 0⟩ else ⟨false, fx1, fx1 + u, 0⟩

/-! The bounds of Table 12-6 (R253). -/

/-- The value a quarter-step t above magnitude code c. -/
def quarter (neg : Bool) (c t : Nat) : FVal :=
  let (m, e) := fp32.magOf c
  .fin ⟨neg, 4 * m + t, 1, e - 2⟩

/-- Whether magnitude code c lies within k ulp of an exact magnitude, the ulp being the spacing at c. -/
def withinUlp (k : Nat) (f : Ex) (c : Nat) : Bool :=
  let (m, e) := fp32.magOf c
  let g : Ex := { f with neg := false }
  decide (c ≤ fp32.maxFin) && !g.lt ⟨decide (m < k), ((m : Int) - (k : Int)).natAbs, 1, e⟩ && !(Ex.lt ⟨false, m + k, 1, e⟩ g)

/-- The internal value for an exact value f that is no FP32 number: one that the free value r picks, of which both FP32
neighbours, and so every rounding, lie within k ulp of f. -/
def nearY (k r : Nat) (f : Ex) : FVal :=
  let c := (fp32.trunc f).1
  let b := c + r % 4 - 1
  let t := r / 4 % 4
  if withinUlp k f b && (decide (t = 0) || withinUlp k f (b + 1)) then quarter f.neg b t else quarter f.neg c 0

/-- FP32 values in their order, the two zeros apart. -/
def orderKey (neg : Bool) (c : Nat) : Int := if neg then -1 - (c : Int) else (c : Int)

/-- The keys of the least FP32 value not below, and the greatest not above, a signed multiple of 2^−256. -/
def fxKeys (x : Int) : Int × Int :=
  let neg := decide (x < 0)
  let (c, t) := fp32.trunc (Ex.ofFx false x.natAbs)
  let away := if t = .exact then c else c + 1
  if neg then (orderKey true c, orderKey true away) else (orderKey false away, orderKey false c)

/-- The internal value for an exact value f, a signed multiple of 2^−256, whose result may differ from it by 2^−22: one that the
free value r picks, of which both FP32 neighbours lie within that. -/
def closeY (r : Nat) (f : Int) : FVal :=
  let bound : Int := 2 ^ 234
  let lo := (fxKeys (f - bound)).1
  let hi := (fxKeys (f + bound)).2
  let key := lo + ((r / 4 % 2 ^ 31 % (hi - lo + 1).toNat : Nat) : Int)
  let t := if key = hi ∨ key = -1 then 0 else r % 4
  if 0 ≤ key then quarter false key.toNat t
  else if t = 0 then quarter true (-1 - key).toNat 0
  else quarter true (-2 - key).toNat (4 - t)

/-- A value strictly between zero and the smallest subnormal: where in it the free value r picks (R254). -/
def belowAll (neg : Bool) (r : Nat) : FVal := .fin ⟨neg, 1 + r % 3, 1, -151⟩

/-- The magnitude just below half the smallest subnormal: what rounds as any value between it and zero. -/
def tiny : FVal := .fin ⟨false, 1, 1, -152⟩

/-- The FP32 constants of Table 12-7. -/
def fOne : Nat := 0x3F800000
/-- One half. -/
def fHalf : Nat := 0x3F000000
/-- +∞. -/
def fInf : Nat := 0x7F800000
/-- −∞. -/
def fNInf : Nat := 0xFF800000
/-- −0. -/
def fNZero : Nat := 0x80000000

/-- The internal value of special function `op` on a lane (R252, R253, R254, Table 12-7). DEDUCED, in LOG2's two bounds: the
absolute one alone stands for operands in [0.5, 2], where beside the relative one it would say nothing, and 2 ulp elsewhere. -/
def sfuY (op : Nat) (b : W32) : SfuY :=
  let nan := fp32.nanc
  let r := (Config.sfu op b).toNat
  let least := decide (b.toNat % 2 ^ 31 = 1)
  let inv : SfuY := .fixed nan fFNV
  match fp32.decode b.toNat with
  | .nan => .fixed nan 0
  | .inf neg =>
    match op with
    | 1 => .fixed (if neg then fNZero else 0) 0
    | 2 => if neg then inv else .fixed 0 0
    | 3 => if neg then inv else .fixed fInf 0
    | 4 => .fixed (if neg then 0 else fInf) 0
    | 5 => if neg then inv else .fixed fInf 0
    | 6 => .fixed (if neg then 0xBF800000 else fOne) 0
    | 7 => inv
    | 8 => inv
    | _ => .fixed (if neg then 0 else fOne) 0
  | .fin x =>
    if x.num = 0 then
      match op with
      | 1 => .fixed (if x.neg then fNInf else fInf) 0
      | 2 => .fixed (if x.neg then fNInf else fInf) 0
      | 3 => .fixed (if x.neg then fNZero else 0) 0
      | 4 => .fixed fOne 0
      | 5 => .fixed fNInf 0
      | 6 => .fixed (if x.neg then fNZero else 0) 0
      | 7 => .fixed (if x.neg then fNZero else 0) 0
      | 8 => .fixed fOne 0
      | _ => .fixed fHalf 0
    else
      match op with
      | 1 => .value (.fin ⟨x.neg, x.den, x.num, -x.exp⟩) none
      | 2 =>
        if x.neg then inv
        else
          let y := sqrtEx x.den x.num (-x.exp)
          match powerOf2 x.num x.exp with
          | some k =>
            if k % 2 = 0 then .value (.fin y) (some true) else .value (nearY 1 r y) (some false)
          | none => .value (nearY 1 r y) (some false)
      | 3 => if x.neg then inv else .value (.fin (sqrtEx x.num x.den x.exp)) none
      | 4 =>
        if x.isInt ∧ ¬ Ex.lt x ⟨true, 149, 1, 0⟩ ∧ Ex.lt x ⟨false, 128, 1, 0⟩ then
          .value (.fin ⟨false, 1, 1, rint .rtz x⟩) (some true)
        else if ¬ Ex.lt x ⟨false, 128, 1, 0⟩ then .value (.fin ⟨false, 1, 1, 128⟩) (some false)
        else if ¬ Ex.lt ⟨true, 151, 1, 0⟩ x then .value tiny (some false)
        else if Ex.lt x ⟨true, 149, 1, 0⟩ then .value (belowAll false r) (some false)
        else .value (nearY 2 r (exactY 4 x)) (some false)
      | 5 =>
        if x.neg then inv
        else
          match powerOf2 x.num x.exp with
          | some k => .value (.fin (Ex.ofInt k)) (some true)
          | none =>
            let f := x.fxLog2
            if Ex.lt x ⟨false, 1, 1, -1⟩ ∨ Ex.lt ⟨false, 2, 1, 0⟩ x then
              .value (nearY 2 r (Ex.ofFx (decide (f < 0)) f.natAbs)) (some false)
            else .value (closeY r f) (some false)
      | 6 =>
        if least then .value (belowAll x.neg r) (some false) else .value (nearY 2 r (exactY 6 x)) (some false)
      | 7 =>
        if least then .value (belowAll x.neg r) (some false)
        else
          let f := fxTrig false (x.fx % (2 * fxPi))
          .value (closeY r (if x.neg then -f else f)) (some false)
      | 8 => .value (closeY r (fxTrig true (x.fx % (2 * fxPi)))) (some false)
      | _ =>
        let f := exactY 9 x
        if ¬ Ex.lt ⟨true, 105, 1, 0⟩ x then .value tiny (some false)
        else if Ex.lt f ⟨false, 1, 1, -149⟩ then .value (belowAll false r) (some false)
        else .value (nearY 2 r f) (some false)

/-- The result, S and flags of a special-function lane (R252). -/
def sfuLane (op : Nat) (fin : Bool) (mode : RMode) (b : W32) : Elem × Nat :=
  match sfuY op b with
  | .fixed r fl => (felem r false, fl)
  | .value y ex =>
    let (r, st) := ro32 y
    let exact := ex.getD (!st)
    let small := match y with
      | .fin e => belowNormal fp32 e
      | _ => false
    let high := match y with
      | .fin e => overMax fp32 e
      | _ => false
    let fl := (if high then fFOF else 0) + (if small && !exact then fFUF else 0) + (if exact then 0 else fFNX)
    (if fin then felem (finFloat fp32 mode y) false else felem r (!exact), fl)

/-- A special function: RCP and RSQ land at 8, the others at 12 (R252). -/
def sfuOp (op lat : Nat) (d a : Reg) (fin : Bool) (m : BitVec 3) : SlotOp :=
  flagOp d [a] m lat (fun s i => sfuLane op fin (modeOf s.fmtNow) (s.v a i).val)

/-- RCP (R252). -/
def opRcp (d a : Reg) (fin : Bool) (m : BitVec 3) : SlotOp := sfuOp 1 8 d a fin m
/-- RCP at issue (R252). -/
def execRcp (d a : Reg) (fin : Bool) (m : BitVec 3) (s : State) : Result := (opRcp d a fin m).exec s

/-- RSQ (R252). -/
def opRsq (d a : Reg) (fin : Bool) (m : BitVec 3) : SlotOp := sfuOp 2 8 d a fin m
/-- RSQ at issue (R252). -/
def execRsq (d a : Reg) (fin : Bool) (m : BitVec 3) (s : State) : Result := (opRsq d a fin m).exec s

/-- SQRT (R252). -/
def opSqrt (d a : Reg) (fin : Bool) (m : BitVec 3) : SlotOp := sfuOp 3 12 d a fin m
/-- SQRT at issue (R252). -/
def execSqrt (d a : Reg) (fin : Bool) (m : BitVec 3) (s : State) : Result := (opSqrt d a fin m).exec s

/-- EXP2 (R252). -/
def opExp2 (d a : Reg) (fin : Bool) (m : BitVec 3) : SlotOp := sfuOp 4 12 d a fin m
/-- EXP2 at issue (R252). -/
def execExp2 (d a : Reg) (fin : Bool) (m : BitVec 3) (s : State) : Result := (opExp2 d a fin m).exec s

/-- LOG2 (R252). -/
def opLog2 (d a : Reg) (fin : Bool) (m : BitVec 3) : SlotOp := sfuOp 5 12 d a fin m
/-- LOG2 at issue (R252). -/
def execLog2 (d a : Reg) (fin : Bool) (m : BitVec 3) (s : State) : Result := (opLog2 d a fin m).exec s

/-- TANH (R252). -/
def opTanh (d a : Reg) (fin : Bool) (m : BitVec 3) : SlotOp := sfuOp 6 12 d a fin m
/-- TANH at issue (R252). -/
def execTanh (d a : Reg) (fin : Bool) (m : BitVec 3) (s : State) : Result := (opTanh d a fin m).exec s

/-- SIN (R252). -/
def opSin (d a : Reg) (fin : Bool) (m : BitVec 3) : SlotOp := sfuOp 7 12 d a fin m
/-- SIN at issue (R252). -/
def execSin (d a : Reg) (fin : Bool) (m : BitVec 3) (s : State) : Result := (opSin d a fin m).exec s

/-- COS (R252). -/
def opCos (d a : Reg) (fin : Bool) (m : BitVec 3) : SlotOp := sfuOp 8 12 d a fin m
/-- COS at issue (R252). -/
def execCos (d a : Reg) (fin : Bool) (m : BitVec 3) (s : State) : Result := (opCos d a fin m).exec s

/-- SIGM (R252). -/
def opSigm (d a : Reg) (fin : Bool) (m : BitVec 3) : SlotOp := sfuOp 9 12 d a fin m
/-- SIGM at issue (R252). -/
def execSigm (d a : Reg) (fin : Bool) (m : BitVec 3) (s : State) : Result := (opSigm d a fin m).exec s

end Sys2Proof.Machine
end

