-- ==== Sys2Proof/Machine/Issue.lean ====
section
/-! DEFINITION. ISSUE_BUNDLE: one attempt of a core to issue its running context's next bundle (R18 to R24, R44, R171,
R182, R190, R290, R294, R298 to R300, R375 to R381, R404, R414, R415, R421, R422, R425, R429, R456, R458). -/

namespace Sys2Proof.Machine

/-- The slot operation of an instruction; none for an event. -/
def slotOp (i : Instr) : Option SlotOp :=
  match i with
  | .add d a b => some (opAdd d a b)
  | .sub d a b => some (opSub d a b)
  | .and d a b => some (opAnd d a b)
  | .or d a b => some (opOr d a b)
  | .xor d a b => some (opXor d a b)
  | .andn d a b => some (opAndn d a b)
  | .addi d a imm => some (opAddi d a imm)
  | .andi d a imm => some (opAndi d a imm)
  | .ori d a imm => some (opOri d a imm)
  | .xori d a imm => some (opXori d a imm)
  | .shl d a b => some (opShl d a b)
  | .shr d a b => some (opShr d a b)
  | .sar d a b => some (opSar d a b)
  | .shli d a imm => some (opShli d a imm)
  | .shri d a imm => some (opShri d a imm)
  | .sari d a imm => some (opSari d a imm)
  | .mul d a b => some (opMul d a b)
  | .mulh d a b => some (opMulh d a b)
  | .mulhu d a b => some (opMulhu d a b)
  | .min d a b => some (opMin d a b)
  | .max d a b => some (opMax d a b)
  | .minu d a b => some (opMinu d a b)
  | .maxu d a b => some (opMaxu d a b)
  | .seq d a b => some (opSeq d a b)
  | .sne d a b => some (opSne d a b)
  | .slt d a b => some (opSlt d a b)
  | .sltu d a b => some (opSltu d a b)
  | .seqi d a imm => some (opSeqi d a imm)
  | .snei d a imm => some (opSnei d a imm)
  | .slti d a imm => some (opSlti d a imm)
  | .sltui d a imm => some (opSltui d a imm)
  | .sel d a b c => some (opSel d a b c)
  | .ldi d imm => some (opLdi d imm)
  | .ldhi d imm => some (opLdhi d imm)
  | .clz d a => some (opClz d a)
  | .ctz d a => some (opCtz d a)
  | .popc d a => some (opPopc d a)
  | .brev d a => some (opBrev d a)
  | .bfx d a b => some (opBfx d a b)
  | .bfxU d a b => some (opBfxU d a b)
  | .bfi d a b => some (opBfi d a b)
  | .fshr d a b => some (opFshr d a b)
  | .fshri d a imm => some (opFshri d a imm)
  | .bCond cond a off => some (opBCond cond a off)
  | .jmp imm => some (opJmp imm)
  | .jmpr a => some (opJmpr a)
  | .call d imm => some (opCall d imm)
  | .ret a => some (opRet a)
  | .loop a last => some (opLoop a last)
  | .loopi count last => some (opLoopi count last)
  | .lidx d imm => some (opLidx d imm)
  | .lbrk a => some (opLbrk a)
  | .fmtset a => some (opFmtset a)
  | .fmtget d => some (opFmtget d)
  | .clkdiv a => some (opClkdiv a)
  | .mfc d imm => some (opMfc d imm)
  | .mtc ctl a => some (opMtc ctl a)
  | .tstamp d => some (opTstamp d)
  | .cycles d => some (opCycles d)
  | .yield => some opYield
  | .wait a => some (opWait a)
  | .spawn d a => some (opSpawn d a)
  | .done => some opDone
  | .phase => some opPhase
  | .trap imm => some (opTrap imm)
  | .sys imm => some (opSys imm)
  | .vaddF d a b fin m => some (opVaddF d a b fin m)
  | .vsubF d a b fin m => some (opVsubF d a b fin m)
  | .vmulF d a b fin m => some (opVmulF d a b fin m)
  | .vfma d a b fin m => some (opVfma d a b fin m)
  | .vfms d a b fin m => some (opVfms d a b fin m)
  | .vfnma d a b fin m => some (opVfnma d a b fin m)
  | .vminF d a b m => some (opVminF d a b m)
  | .vmaxF d a b m => some (opVmaxF d a b m)
  | .vabs d a m => some (opVabs d a m)
  | .vneg d a m => some (opVneg d a m)
  | .vcmpF d a b cond => some (opVcmpF d a b cond)
  | .vclass d a imm => some (opVclass d a imm)
  | .vcvt d a imm => some (opVcvt d a imm)
  | .vro d a imm => some (opVro d a imm)
  | .vfin d a imm => some (opVfin d a imm)
  | .vstky d a => some (opVstky d a)
  | .vclrs d a m => some (opVclrs d a m)
  | .vaddI d a b m => some (opVaddI d a b m)
  | .vsubI d a b m => some (opVsubI d a b m)
  | .vmulI d a b m => some (opVmulI d a b m)
  | .vmulhI d a b m => some (opVmulhI d a b m)
  | .vminI d a b m => some (opVminI d a b m)
  | .vmaxI d a b m => some (opVmaxI d a b m)
  | .vaddsI d a b m => some (opVaddsI d a b m)
  | .vand d a b m => some (opVand d a b m)
  | .vor d a b m => some (opVor d a b m)
  | .vxor d a b m => some (opVxor d a b m)
  | .vandn d a b m => some (opVandn d a b m)
  | .vshl d a b m => some (opVshl d a b m)
  | .vshr d a b m => some (opVshr d a b m)
  | .vsar d a b m => some (opVsar d a b m)
  | .vcmpI d a b cond => some (opVcmpI d a b cond)
  | .vbfx d a b m => some (opVbfx d a b m)
  | .vfshr d a imm => some (opVfshr d a imm)
  | .vpopc d a m => some (opVpopc d a m)
  | .vclz d a m => some (opVclz d a m)
  | .kand d a b => some (opKand d a b)
  | .kor d a b => some (opKor d a b)
  | .knot d a => some (opKnot d a)
  | .vsel d a b k => some (opVsel d a b k)
  | .vmov d a m => some (opVmov d a m)
  | .vmovi d imm => some (opVmovi d imm)
  | .vmoviW d imm lit => some (opVmoviW d imm lit)
  | .vbcast d a m => some (opVbcast d a m)
  | .vget d a imm => some (opVget d a imm)
  | .vset d a imm => some (opVset d a imm)
  | .vperm d a b m => some (opVperm d a b m)
  | .vrot d a imm => some (opVrot d a imm)
  | .xgMov d a imm => some (opXgMov d a imm)
  | .xgBcast d a imm => some (opXgBcast d a imm)
  | .vred d a imm => some (opVred d a imm)
  | .vscan d a imm => some (opVscan d a imm)
  | .mredF d a b k => some (opMredF d a b k)
  | .mredI d a b k => some (opMredI d a b k)
  | .trdRow d a imm => some (opTrdRow d a imm)
  | .trdCol d a imm => some (opTrdCol d a imm)
  | .twrRow d a imm => some (opTwrRow d a imm)
  | .twrCol d a imm => some (opTwrCol d a imm)
  | .rcp d a fin m => some (opRcp d a fin m)
  | .rsq d a fin m => some (opRsq d a fin m)
  | .sqrt d a fin m => some (opSqrt d a fin m)
  | .exp2 d a fin m => some (opExp2 d a fin m)
  | .log2 d a fin m => some (opLog2 d a fin m)
  | .tanh d a fin m => some (opTanh d a fin m)
  | .sin d a fin m => some (opSin d a fin m)
  | .cos d a fin m => some (opCos d a fin m)
  | .sigm d a fin m => some (opSigm d a fin m)
  | .idiv d a b => some (opIdiv d a b)
  | .idivu d a b => some (opIdivu d a b)
  | .irem d a b => some (opIrem d a b)
  | .iremu d a b => some (opIremu d a b)
  | .mshape d imm => some (opMshape d imm)
  | .mzero d => some (opMzero d)
  | .mma d a b => some (opMma d a b)
  | .mmas d a b => some (opMmas d a b)
  | .mstore d a => some (opMstore d a)
  | .mwait d => some (opMwait d)
  | .mwaitAll => some opMwaitAll
  | .lldB d base off => some (opLldB d base off)
  | .lldBU d base off => some (opLldBU d base off)
  | .lldH d base off => some (opLldH d base off)
  | .lldHU d base off => some (opLldHU d base off)
  | .lldW d base off => some (opLldW d base off)
  | .lldWU d base off => some (opLldWU d base off)
  | .lldD d base off => some (opLldD d base off)
  | .lstB d base off => some (opLstB d base off)
  | .lstH d base off => some (opLstH d base off)
  | .lstW d base off => some (opLstW d base off)
  | .lstD d base off => some (opLstD d base off)
  | .gldB d base off => some (opGldB d base off)
  | .gldBU d base off => some (opGldBU d base off)
  | .gldH d base off => some (opGldH d base off)
  | .gldHU d base off => some (opGldHU d base off)
  | .gldW d base off => some (opGldW d base off)
  | .gldWU d base off => some (opGldWU d base off)
  | .gldD d base off => some (opGldD d base off)
  | .gstB d base off => some (opGstB d base off)
  | .gstH d base off => some (opGstH d base off)
  | .gstW d base off => some (opGstW d base off)
  | .gstD d base off => some (opGstD d base off)
  | .gldWAcq d base off => some (opGldWAcq d base off)
  | .gldDAcq d base off => some (opGldDAcq d base off)
  | .gstWRel d base off => some (opGstWRel d base off)
  | .gstDRel d base off => some (opGstDRel d base off)
  | .vldRow d base off => some (opVldRow d base off)
  | .vldCol d base off => some (opVldCol d base off)
  | .vldStr d base off => some (opVldStr d base off)
  | .vstRow d base off => some (opVstRow d base off)
  | .vstCol d base off => some (opVstCol d base off)
  | .vstStr d base off => some (opVstStr d base off)
  | .vstBf16 d base off => some (opVstBf16 d base off)
  | .vstF16 d base off => some (opVstF16 d base off)
  | .vstF8e4 d base off => some (opVstF8e4 d base off)
  | .vstF8e5 d base off => some (opVstF8e5 d base off)
  | .vldg d base idx m => some (opVldg d base idx m)
  | .vsts d base idx m => some (opVsts d base idx m)
  | .vspl d base off => some (opVspl d base off)
  | .vfil d base off => some (opVfil d base off)
  | .gvld d base off => some (opGvld d base off)
  | .gvst d base off => some (opGvst d base off)
  | .aaddW d base src ord sc => some (opAaddW d base src ord sc)
  | .aaddD d base src ord sc => some (opAaddD d base src ord sc)
  | .afaddW d base src ord sc => some (opAfaddW d base src ord sc)
  | .aminW d base src ord sc => some (opAminW d base src ord sc)
  | .aminD d base src ord sc => some (opAminD d base src ord sc)
  | .amaxW d base src ord sc => some (opAmaxW d base src ord sc)
  | .amaxD d base src ord sc => some (opAmaxD d base src ord sc)
  | .aminuW d base src ord sc => some (opAminuW d base src ord sc)
  | .aminuD d base src ord sc => some (opAminuD d base src ord sc)
  | .amaxuW d base src ord sc => some (opAmaxuW d base src ord sc)
  | .amaxuD d base src ord sc => some (opAmaxuD d base src ord sc)
  | .aandW d base src ord sc => some (opAandW d base src ord sc)
  | .aandD d base src ord sc => some (opAandD d base src ord sc)
  | .aorW d base src ord sc => some (opAorW d base src ord sc)
  | .aorD d base src ord sc => some (opAorD d base src ord sc)
  | .axorW d base src ord sc => some (opAxorW d base src ord sc)
  | .axorD d base src ord sc => some (opAxorD d base src ord sc)
  | .axchgW d base src ord sc => some (opAxchgW d base src ord sc)
  | .axchgD d base src ord sc => some (opAxchgD d base src ord sc)
  | .acasW d base src ord sc => some (opAcasW d base src ord sc)
  | .acasD d base src ord sc => some (opAcasD d base src ord sc)
  | .futRd d base off => some (opFutRd d base off)
  | .futFill d base off => some (opFutFill d base off)
  | .futReset base off => some (opFutReset base off)
  | .fence ord sc => some (opFence ord sc)
  | .barArr base sc => some (opBarArr base sc)
  | .barWait base sc => some (opBarWait base sc)
  | .cntAdd base src ord sc => some (opCntAdd base src ord sc)
  | .cntWait base ord sc => some (opCntWait base ord sc)
  | .icinv base sc => some (opIcinv base sc)
  | .cpy d a => some (opCpy d a)
  | .cpyMc d a b => some (opCpyMc d a b)
  | .cpyw d a => some (opCpyw d a)
  | .subOpen d a => some (opSubOpen d a)
  | .subClose d => some (opSubClose d)
  | .qcfg d a => some (opQcfg d a)
  | .qstat d a => some (opQstat d a)
  | .ltClass d a b => some (opLtClass d a b)
  | .ltTouch a b => some (opLtTouch a b)
  | .ltFree a b => some (opLtFree a b)
  | .ltStat d a => some (opLtStat d a)
  | .resReg d a => some (opResReg d a)
  | .resDrop a b => some (opResDrop a b)
  | .resQry d a b => some (opResQry d a b)
  | .tlbinv a b => some (opTlbinv a b)
  | .privMtc ctl a => some (opPrivMtc ctl a)
  | .powerOnReset => none
  | .managementCoreBoot => none
  | .featureNegotiation => none
  | .partitionAssign => none
  | .partitionWithdraw => none
  | .spdmRequest => none
  | .debugPolicy => none
  | .lockInterface => none
  | .startInterface => none
  | .stopInterface => none
  | .hostBar2Read => none
  | .hostBar2Write => none
  | .hostAtomicop => none
  | .doorbellWrite => none
  | .queuePollTimer => none
  | .queueSlotTake => none
  | .controlRegisterWrite => none
  | .issueBundle => none
  | .resultLanding => none
  | .lateItemArrival => none
  | .directReplyArrival => none
  | .directStoreAck => none
  | .portRequestService => none
  | .pageWalk => none
  | .turretSlotLoad => none
  | .turretSlotStore => none
  | .streamRetry => none
  | .streamCompletion => none
  | .copyPacketStart => none
  | .copyUnitWrite => none
  | .suspendSlotTake => none
  | .ceresumeWrite => none
  | .multicastLanding => none
  | .copyCompletion => none
  | .tickBoundary => none
  | .bandStepDown => none
  | .rowGroupLimit => none
  | .refreshComplete => none
  | .missedRefresh => none
  | .sliceLineAgeLimit => none
  | .lclassWrite => none
  | .temptabWrite => none
  | .layoutWrite => none
  | .sscarveWrite => none
  | .tileWriteComplete => none
  | .matrixKStep => none
  | .matrixOpComplete => none
  | .tileOwnerChange => none
  | .mxstatWrite => none
  | .deferredMatrixFault => none
  | .expiryTrap => none
  | .copyErrorTrap => none
  | .bufferContractTrap => none
  | .progressFault => none
  | .preemptionRequest => none
  | .preemptStop => none
  | .timesliceExpiry => none
  | .runningContextChange => none
  | .contextSave => none
  | .contextRestore => none
  | .trapHandlerStart => none
  | .taskCompletion => none
  | .placementDecision => none
  | .patienceExpiry => none
  | .tileStepProduce => none
  | .teamMigration => none
  | .teamArrival => none
  | .launchPacket => none
  | .launchNopPacket => none
  | .launchCompletion => none
  | .capstart => none
  | .capstop => none
  | .waitTimerExpiry => none
  | .clkdivPauseEnd => none
  | .atomicEnginePerform => none
  | .collectivePacket => none
  | .collectiveNopPacket => none
  | .collectiveChunkStep => none
  | .chunkMarkWrite => none
  | .linkFall => none
  | .podLinkLoss => none
  | .fabricFrameReceive => none
  | .epochAckCollect => none
  | .memberAckTimeout => none
  | .treeRebuild => none
  | .collectiveCompletion => none
  | .dieLoss => none
  | .moduleHeartbeatLoss => none
  | .thermalEmergency => none
  | .firmwareWatchdogExpiry => none
  | .pcapRaise => none
  | .droopTrip => none
  | .droopStretchEnd => none
  | .droopFreezeEnd => none
  | .retentionEntry => none
  | .retentionExit => none
  | .phaseRefetchComplete => none
  | .phctlWrite => none
  | .auditReplayStart => none
  | .checkpointCut => none
  | .checkpointPageStream => none
  | .debugRelease => none
  | .sampleRecord => none
  | .goBackNRetransmission => none
  | .powerFirmwareWatchdogSignal => none
  | .powerFirmwareUpdateStart => none

/-- LIDX lies in the control-flow range, whose operations are never marked done (R379). -/
def isLidx (i : Instr) : Bool :=
  match i with
  | .lidx _ _ => true
  | _ => false

/-- Whether an instruction enters a copy engine (R105). -/
def isCopy (i : Instr) : Bool :=
  match i with
  | .cpy _ _ => true
  | .cpyMc _ _ _ => true
  | .cpyw _ _ => true
  | _ => false

/-- Whether an operation reaches outside what an audit logs, which ends a replay (R404): the global accesses, the atomics and
FUT operations, the barriers and counters, the copies and SPAWN; DEDUCED: SUB.OPEN too, whose stream is a global access, and
RES.REG, RES.DROP and RES.QRY, which read or change the die's Lexicon, state outside the log. -/
def reachesOut (i : Instr) : Bool :=
  match encode i with
  | some e =>
    let op := (fOp e.word).toNat
    match e.cls with
    | .s => decide (op = 0x69)
    | .m => inRange op 0x0C 0x1A || inRange op 0x29 0x2A || inRange op 0x30 0x47 || inRange op 0x51 0x54 ||
        inRange op 0x70 0x73 || inRange op 0xA0 0xA2
    | _ => false
  | none => false

/-- Whether an operation reads the state of a row group that lies in neither a replay's allocation nor a logged region (R404). -/
def State.statsOut (s : State) (c : Nat) (i : Instr) : Bool :=
  match i with
  | .ltStat _ a =>
    let at_ := ((s.ctx c).rg a.toNat).toNat
    match s.replayOf c with
    | none => false
    | some x => !s.inAlloc c at_ && (regionsOf x).all (fun r => decide (at_ / 512 ∉ rgsOf r.1 r.2.1))
  | _ => false

/-- An operation of the bundle in hand, with its slot. -/
structure SlotRun where
  slot : Nat
  instr : Instr
  op : SlotOp

/-- Whether an operation is performed for the bundle as a whole and never marked done (R379, R331, R357). -/
def SlotRun.level (r : SlotRun) : Bool := decide (3 ≤ r.op.phase) || isLidx r.instr

/-- The operations of a decoded bundle but those of slots done already (R379). -/
def runsOf (done : Nat) (l : List (Nat × Instr)) : List SlotRun :=
  l.filterMap (fun p => if done.testBit p.1 then none else (slotOp p.2).map (fun o => ⟨p.1, p.2, o⟩))

/-- Where an attempt stands: over for this cycle, or going on with what has been found. -/
inductive Gate (α : Type) where
  | wait (s : State)
  | go (s : State) (x : α)

/-- Goes on where an attempt is not over. -/
def Gate.then_ {α β : Type} (g : Gate α) (f : State → α → Gate β) : Gate β :=
  match g with
  | .wait s => .wait s
  | .go s x => f s x

/-- Points the issue latch at a slot. -/
def State.atSlot (s : State) (n : Nat) : State := { s with iss := { s.iss with slot := n } }

/-- Loads the issue latch for the next bundle of a context (R21). -/
def State.latch (s : State) (c : Nat) : State :=
  { s with iss := ⟨c, 0, (s.ctx c).cycles, (s.ctx c).pc, [], false, false, 0, [], none, s.seq, []⟩ }

/-! Counters (R425, R429). -/

/-- The number of slots of a class that a test selects. -/
def slotCount (cl : Cls) (f : Nat → Bool) : Nat :=
  slots8.countP (fun i => decide (slotClass i = cl) && f i)

/-- Counts an issued bundle: the slots of each class, filled and empty, for each loop entry on the stack, and in capture
windows (R425, R429). -/
def State.countIssue (s : State) (c depth : Nat) (x : BitVec 256) : State :=
  let classes : List (Nat × Cls) := [(0, .s), (1, .v), (2, .f), (3, .m)]
  let s1 := (List.range depth).foldl (fun u j =>
    classes.foldl (fun w p =>
      (w.bump c (0x300 + 16 * j + p.1) (slotCount p.2 (fun i => !isNop x i))).bump c (0x304 + 16 * j + p.1)
        (slotCount p.2 (isNop x))) u) s
  s1.captures c (fun w => { w with
    cycles := w.cycles + 1, filled := w.filled + slots8.countP (fun i => !isNop x i),
    nops := w.nops + slots8.countP (isNop x) })

/-! What a held cycle does. -/

/-- Whether an empty issue cycle has passed since the last issue: `held` is 8 in one, and 16 more than the slot in a frozen
cycle that follows one (R299, R304, R332). -/
def Core.pastEmpty (y : Core) : Bool := inRange (y.held.getD 0) 8 31

/-- A frozen cycle of a core that holds a bundle or stalls (R182); `slot` is that of the item it waits on. -/
def State.frozenCycle (s : State) (k c slot : Nat) : State :=
  (s.countFrozen c 1).modCore k (fun y => { y with
    next := max y.next s.now + s.ticksOf (dieOfCore k) y.cdiv 1, pause := 0, held := some (if y.pastEmpty then 16 + slot else slot) })

/-- A frozen cycle of a wait that ends before any stop (R299): `kind` is 32 for a refresh and 64 for LT.TOUCH. -/
def State.committedCycle (s : State) (k c kind slot : Nat) : State :=
  (s.frozenCycle k c slot).modCore k (fun y => { y with held := some (kind + slot) })

/-- Whether a pending pre-emption may be taken where R298 or R299 allows one: an image must be free, and the bundle have no
slot done (R387, R378). -/
def State.mayPreempt (s : State) (c : Nat) : Bool :=
  (s.ctx c).preempt && decide ((s.ctx c).doneMask = 0) && (s.freeImage (dieOf c)).isSome

/-- A pending pre-emption is taken at a bundle held before issue, which is a pre-emption point then (R299, R300). -/
def State.preemptHeld (s : State) (c : Nat) : State := (s.modCtx c (fun x => { x with wdc := 0 })).stopBefore c 0x41

/-- A bundle held before issue: it takes a pending pre-emption, or a frozen cycle passes (R299). -/
def State.heldCycle (s : State) (k c slot : Nat) : State :=
  if s.mayPreempt c then s.preemptHeld c else s.frozenCycle k c slot

/-- An empty issue cycle (R6, R304, R332): CYCLES and WDC advance; a pending pre-emption is taken before the first. -/
def State.emptyCycle (s : State) (k c : Nat) : State :=
  if s.mayPreempt c && !(s.core k).pastEmpty then s.preemptHeld c
  else
    let s1 := (s.modCtx c (fun x => { x with cycles := x.cycles + 1, wdc := x.wdc + 1 })).captures c (fun w =>
      { w with cycles := w.cycles + 1 })
    s1.modCore k (fun y => { y with
      next := max y.next s.now + s.ticksOf (dieOfCore k) y.cdiv 1, pause := 0, held := some 8 })

/-! The boundary before a bundle (R381, Table 20-6). -/

/-- Whether a pending write is the result of a CPYW whose packet has not completed. -/
def Pend.awaitsCopy (w : Pend) : Bool :=
  !w.arrived && match w.payload with
    | .cpyw _ _ => true
    | _ => false

/-- Landing at the context's present cycle (R180 to R182): a stall freezes the core, but one that results of CPYW alone make
takes a pending asynchronous trap (R456) and, before any empty cycle, a pre-emption (R299, R304); landing faults stop the
context. -/
def State.landGate (s : State) (k c : Nat) : Gate Unit :=
  let x := s.ctx c
  match s.seenWith c (fun u => u.landDue c x.cycles) with
  | (s1, true, _) =>
    let due := (pendSort (s1.ctx c).pend).filter (fun w => decide (w.land ≤ x.cycles))
    let stuck := due.filter (fun w => decide ((s1.landOne c w).2.1 = .stall))
    let slot := (stuck.head?.map (fun w => w.slot)).getD 0
    .wait (if stuck.all Pend.awaitsCopy && !(s1.ctx c).traps.isEmpty then s1.takeAsync c
      else if stuck.all Pend.awaitsCopy && !(s1.core k).pastEmpty then s1.heldCycle k c slot
      else s1.frozenCycle k c slot)
  | (s1, false, []) => .go s1 ()
  | (s1, false, fs) => .wait (s1.landingStop c fs)

/-- The stop of a FUT.RD that its future has deferred, before the next bundle (R338): a wait that ends before any stop ends first
(R299). DEDUCED: it comes before what falls at the same boundary, as a stop of class After does. -/
def State.futGate (s : State) (c : Nat) : Gate Unit :=
  match (s.ctx c).futStop with
  | some (n, pc) => if (s.core (coreOf c)).committed then .go s () else .wait (s.takeStop c ⟨0x42, 0, n % 8, none⟩ pc 0 false)
  | none => .go s ()

/-- The core freezes before the bundle of the cycle before a FUT.RD's landing until the state of its future has come (R338). -/
def State.stateGate (s : State) (k c : Nat) : Gate Unit :=
  let x := s.ctx c
  match x.pend.find? (fun w => decide (w.payload = .state) && decide (w.land ≤ x.cycles + 1)) with
  | some w => .wait (s.frozenCycle k c w.slot)
  | none => .go s ()

/-- Rows 2 and 3 of Table 20-6: the lowest pending asynchronous trap, then a pre-emption at a point (R298, R456); in a wait for a
refresh neither, until it ends (R299). -/
def State.causeGate (s : State) (c : Nat) : Gate Unit :=
  let x := s.ctx c
  if (s.core (coreOf c)).committed then .go s ()
  else if !x.traps.isEmpty then .wait (s.takeAsync c)
  else if decide (x.wdc = 0) && s.mayPreempt c then .wait (s.stopBefore c 0x41)
  else .go s ()

/-! Fetch and decode. -/

/-- The 128 bytes of code that a line fill reads; the manual gives uncorrectable code no effect, so its bytes are free. -/
def State.lineBytes (s : State) (keys : List Nat) : State × List Byte :=
  if s.uncorr keys then
    (s.spend, (List.range 128).map (fun j => (Config.freeWord (s.free * 4096 + j)).setWidth 8))
  else (s, s.mbytes keys)

/-- Fetches the bundle at a context's PC through its core's instruction cache (R96, R424): the bundle, or the stop. -/
def State.fetch (s : State) (k c : Nat) : State × Except Stop (BitVec 256) :=
  let pc := (s.ctx c).pc
  let line := pc / 128
  match s.span (dieOf c) (some k) (line * 128) 128 .fetch with
  | (s1, .bad _ kind lvl) => (s1, .error (Stop.transl .fetch pc kind lvl))
  | (s1, .ok keys _) =>
    let (s2, bs) := match mapFind (s1.core k).icache line with
      | some bs => (s1, bs)
      | none =>
        let (s2, bs) := s1.lineBytes keys
        ((s2.cacheFill keys false).modCore k (fun y => { y with icache := mapPut y.icache line bs }), bs)
    (s2, .ok (BitVec.ofNat 256 (leNat ((bs.drop (pc % 128)).take 32))))

/-- Whether DEBUG is taken before a bundle, and its WHY (R420 to R422): the D bit unless SKIPD, or STEP after the first
bundle. -/
def State.debugWhy (s : State) (c : Nat) (d : Bool) : Nat :=
  let w := s.ctxCtl c 0x0A0
  let first := (s.ctx c).lastDepth.isNone
  if !s.dbgRight (dieOf c) 0 then 0
  else if d && !(bit w 0 && first) then 1
  else if bit w 1 && !first then 2
  else 0

/-- Whether the vector divisor is twice the control divisor and the issue cycle odd (R43, R308). -/
def State.oddHalf (s : State) (k c : Nat) : Bool :=
  decide ((s.core k).vdiv = 2 * (s.core k).cdiv) && decide ((s.ctx c).cycles % 2 = 1)

/-- The most writes that some operations can make pending. -/
def newWrites (runs : List SlotRun) : Nat := runs.foldl (fun n r => n + max 1 r.op.writes.length) 0

/-- The slots whose pending writes R185 counts together: the S slots, and each other slot alone. -/
def slotGroup (n : Nat) : Nat := if slotClass n = .s then 0 else n

/-- The most writes that the slots of a group can have pending (R185). -/
def groupCap (n : Nat) : Nat :=
  match slotClass n with
  | .s => 9
  | .v => 12
  | .f => 20
  | .m => 40

/-- Whether the writes of some operations have no room among those that their slots have pending (R185). -/
def overfull (pend : List Pend) (runs : List SlotRun) : Bool :=
  decide (145 < pend.length + newWrites runs) ||
  runs.any (fun r =>
    let g (n : Nat) : Bool := decide (slotGroup n = slotGroup r.slot)
    decide (groupCap r.slot < pend.countP (fun w => g w.slot) + newWrites (runs.filter (fun q => g q.slot))))

/-- Whether a bundle waits for empty issue cycles: for an operation of it (R304, R332), or for room in the landing queue, which
holds at most 145 writes, 12 for each V slot (R185). DESIGN CHOICE: only the two results of MRED, and of two SPAWNs of one bundle, can
fill it, and the manual does not say what keeps R185's bounds then; two SPAWNs of one bundle both issue. -/
def State.needsEmpty (s : State) (c : Nat) (runs : List SlotRun) : Bool :=
  runs.any (fun r => r.op.empty s) || overfull (s.ctx c).pend runs

/-- The bundle's operations, once neither a debug stop, the progress fault, the fetch nor the decode stops it; the parity
rule is judged in the issue cycle and not in an empty one (R44, R300, R308, R421). -/
def State.decodeGate (s : State) (k c : Nat) : Gate (BitVec 256 × List SlotRun) :=
  match s.fetch k c with
  | (s1, f) =>
    let d := match f with | .ok x => bundleD x | .error _ => false
    let why := s1.debugWhy c d
    if why ≠ 0 then .wait ((s1.setCtxCtl c 0x0A0 (setBits (s1.ctxCtl c 0x0A0) 9 8 why)).stopBefore c 0x40)
    else if 4096 ≤ (s1.ctx c).wdc then .wait (s1.stopBefore c 0x10)
    else
      let y := s1.ctx c
      match f with
      | .error st => .wait (s1.stopCtx c st y.pc 0 false)
      | .ok x =>
        let s2 := s1.latch c
        let empties := match decodeBundle x y.priv false with
          | .ok l => s2.needsEmpty c (runsOf y.doneMask l)
          | .error _ => false
        if empties then .wait (s1.emptyCycle k c)
        else
          match decodeBundle x y.priv (s1.oddHalf k c) with
          | .error (code, slot) => .wait (s1.stopCtx c ⟨code, 0, slot, none⟩ y.pc 0 false)
          | .ok l => .go s2 (x, runsOf y.doneMask l)

/-! Faults and holds before issue. -/

/-- The class number and register number of a reference (Table 9-6). -/
def RegRef.code : RegRef → Nat × Nat
  | .g n => (0, n)
  | .v n => (1, n)
  | .k n => (2, n)

/-- Whether checking looks at a register: a queue register never (R190). -/
def RegRef.checked : RegRef → Bool
  | .v n => decide (n < 56)
  | _ => true

/-- Whether a pending write is to a register. -/
def RegRef.owned (x : RegRef) (w : Pend) : Bool := decide (w.payload.cls = some x.code.1) && decide (w.reg = x.code.2)

/-- The pending writes that are results of the bundle in hand already, by their numbers: those its slots marked done made
before a stop, each of which has its full latency left (R184, R378). -/
def Ctx.ownSeqs (x : Ctx) (done : List SlotRun) : List Nat :=
  done.flatMap (fun r => r.op.writes.filterMap (fun p =>
    (x.pend.reverse.find? (fun w =>
      decide (w.slot = r.slot) && p.1.owned w && decide (w.land = x.cycles + p.2))).map (fun w => w.seq)))

/-- The slots of a bundle that are done already (R379). -/
def doneRuns (done : Nat) (x : BitVec 256) (priv : Bool) : List SlotRun :=
  if done = 0 then []
  else
    match decodeBundle x priv false with
    | .ok l => runsOf (255 - done % 256) l
    | .error _ => []

/-- The results of a bundle in hand that a context made before a stop of it (R184). -/
def State.ownOf (s : State) (c : Nat) (b : BitVec 256) : List Nat :=
  (s.ctx c).ownSeqs (doneRuns (s.ctx c).doneMask b (s.ctx c).priv)

/-- The breach of an operation, as its register and BKIND: a write that would land at or before one pending to the same
register, else, in mode 2, a read of a register that a pending write owns (R190). -/
def SlotRun.breach (r : SlotRun) (pend : List Pend) (cyc mode : Nat) : Option (RegRef × Nat) :=
  match r.op.writes.find? (fun p => p.1.checked && pend.any (fun w => p.1.owned w && decide (cyc + p.2 ≤ w.land))) with
  | some p => some (p.1, 0)
  | none =>
    if mode = 2 then (r.op.reads.find? (fun x => pend.any x.owned)).map (fun x => (x, 1)) else none

/-- The lowest breach of a bundle. -/
def firstBreach (pend : List Pend) (cyc mode : Nat) : List SlotRun → Option (Nat × RegRef × Nat)
  | [] => none
  | r :: t =>
    match r.breach pend cyc mode with
    | some (x, kind) => some (r.slot, x, kind)
    | none => firstBreach pend cyc mode t

/-- The faults taken before a bundle issues: those of its operations, then an ownership breach of a write from an earlier
bundle, recorded in CHKCTL (R190, R280). -/
def State.beforeGate (s : State) (c : Nat) (b : BitVec 256) (runs : List SlotRun) : Gate Unit :=
  let x := s.ctx c
  match runs.findSome? (fun r => (r.op.before s).map (fun st => (r.slot, st))) with
  | some (slot, st) => .wait (s.stopCtx c { st with slot := slot } x.pc 0 false)
  | none =>
    let mode := bits (s.ctxCtl c 0x068) 1 0
    let own := s.ownOf c b
    match if mode = 0 then none else firstBreach (x.pend.filter (fun w => decide (w.seq ∉ own))) x.cycles mode runs with
    | none => .go s ()
    | some (slot, r, kind) =>
      let w := setBits (setBits (setBits (s.ctxCtl c 0x068) 31 26 r.code.2) 25 24 r.code.1) 16 16 kind
      .wait ((s.setCtxCtl c 0x068 w).stopCtx c ⟨0x0E, 0, slot, none⟩ x.pc 0 false)

/-- Direct-path tags that a bundle needs (R77). -/
def State.tagNeed (s : State) (runs : List SlotRun) : Nat := runs.foldl (fun n r => n + r.op.tags s) 0

/-- Whether every outstanding tag of a core belongs to a load that lands later (R458). -/
def State.tagsStuck (s : State) (k c : Nat) : Bool :=
  (s.core k).tags.all (fun p => (s.ctx c).pend.any (fun w => decide (w.seq = p.2) && decide ((s.ctx c).cycles < w.land)))

/-- The copy engine of a core. -/
def engineOf (k : Nat) : Nat := k / 64 * 4 + k % 64 / 16

/-- Free entries of an engine's intake (R105). -/
def State.intakeRoom (s : State) (en : Nat) : Nat :=
  64 - (s.cengine en).packets.countP (fun p => decide (p.phase = .intake))

/-- Whether an operation accesses memory, or forks an engine's operation that does, so that an acquire or a fence of an earlier bundle
holds its bundle (R347 to R349): the loads, stores, atomics, FUT operations, barriers, counters, copies, SUB.OPEN, the lifetime
operations that change row groups, the matrix operations with operands in memory, SPAWN, and the pops and pushes of queues. -/
def SlotRun.accesses (r : SlotRun) : Bool :=
  !(queueNums r.op.pops).isEmpty ||
  r.op.writes.any (fun p => match p.1 with
    | .v n => decide (56 ≤ n)
    | _ => false) ||
  (match encode r.instr with
    | some e =>
      let op := (fOp e.word).toNat
      match e.cls with
      | .s => decide (op = 0x69)
      | .f => inRange op 0x42 0x44
      | .m => inRange op 0x01 0x2A || inRange op 0x30 0x47 || inRange op 0x51 0x54 || inRange op 0x70 0x73 || inRange op 0x90 0x92
      | _ => false
    | none => false)

/-- Whether something that its core may wait for follows a queue push of a context: an access of its own, an operation of the plane
engine, or a packet. DESIGN CHOICE: a push lands in an issue cycle (R172), which a frozen core does not have, so that a wait for
what follows one passes in empty cycles, as R304's and R332's do. -/
def State.pushTied (s : State) (c : Nat) : Bool :=
  (s.ctx c).pend.any (fun w => w.isPush && s.pushOpen w.seq) &&
  (s.lateOps.any (fun o => decide (o.ctx = c) && s.pushBound o.behind) ||
    (s.owns c && (s.eng (coreOf c)).ops.any (fun o => s.pushBound o.behind)) ||
    s.dies.any (fun p => p.2.copy.any (fun e => e.2.packets.any (fun q =>
      decide (q.tid = some (s.ctx c).tid) && s.pushBound q.behind))))

/-- A cycle of a bundle that waits for accesses which are not performed yet: no stop comes before the wait ends (R347, R348). -/
def State.orderCycle (s : State) (k c slot : Nat) : State :=
  if s.pushTied c then s.emptyCycle k c else s.committedCycle k c 32 slot

/-- The waits of a bundle for accesses of earlier bundles: of one with an access for the acquires and fences before it (R347, R348),
and of an operation for those that it must see as it issues (R337, R349, R424). -/
def State.orderGate (s : State) (k c : Nat) (runs : List SlotRun) : Gate Unit :=
  match runs.find? (fun r => (r.accesses && s.anyOpen (s.ctx c).order) || s.anyOpen (r.op.after (s.atSlot r.slot))) with
  | some r => .wait (s.orderCycle k c r.slot)
  | none => .go s ()

/-- The slot and the queue of each pop and peek of some operations, in slot order. -/
def popList (runs : List SlotRun) : List (Nat × Nat) :=
  runs.flatMap (fun r => (queueNums r.op.pops).map (fun qn => (r.slot, qn)))

/-- The row groups of the ring slots that some pops and peeks read, with their slots; `adv` counts the pops before. -/
def Ctx.popRgs (x : Ctx) : List (Nat × Nat) → Table Nat → List (Nat × Nat)
  | [], _ => []
  | (slot, qn) :: t, adv =>
    let q := x.queue qn
    let a := mapGet 0 adv qn
    (rgsOf (q.pos ((q.head + a) % max q.nslot 1)) 512).map (fun g => (slot, g)) ++
      x.popRgs t (if q.peeks slot then adv else mapPut adv qn (a + 1))

/-- The lowest slot whose access meets a row group under refresh: the core waits, with frozen cycles (R149). -/
def State.refreshWait (s : State) (c : Nat) (runs : List SlotRun) : Option Nat :=
  let u := s.latch c
  let direct := runs.flatMap (fun r => (r.op.rgs (u.atSlot r.slot)).map (fun g => (r.slot, g)))
  ((direct ++ (s.ctx c).popRgs (popList runs) []).find? (fun p => s.inRefresh (dieOf c) p.2)).map (fun p => p.1)

/-- A cycle of a bundle held before issue: an empty one where what holds it may follow a queue push. -/
def State.waitCycle (s : State) (k c slot : Nat) : State := if s.pushTied c then s.emptyCycle k c else s.heldCycle k c slot

/-- What holds a bundle before issue (R299): a tile owner to change (R285), direct-path tags (R77, R458), a full intake
(R105), or an operation's own wait. -/
def State.holdGate (s : State) (k c : Nat) (runs : List SlotRun) : Gate Unit :=
  let copies := runs.filter (fun r => isCopy r.instr)
  match runs.find? (fun r => r.op.engine), s.owns c with
  | some r, false =>
    let s1 := s.dueOnce .tileOwnerChange (.n c 0 0)
    .wait (if (s.core k).held.isSome then s1.waitCycle k c r.slot else s1.frozenCycle k c r.slot)
  | _, _ =>
    let need := s.tagNeed runs
    let slot := ((runs.find? (fun r => decide (r.op.tags s ≠ 0))).map (fun r => r.slot)).getD 0
    if need ≠ 0 ∧ (s.core k).freeTags < need then
      .wait (if s.tagsStuck k c then s.stopCtx c ⟨0x10, 0, slot, none⟩ (s.ctx c).pc 0 false
        else s.waitCycle k c slot)
    else if s.intakeRoom (engineOf k) < copies.length then
      let s1 := s.modCengine (engineOf k) (fun e => { e with
        waiting := e.waiting.filter (fun w => decide (w.1 ≠ c)) ++ [(c, (s.ctx c).tid, (s.ctx c).pc)] })
      .wait (s1.waitCycle k c ((copies.head?.map (fun r => r.slot)).getD 0))
    else
      match runs.find? (fun r => r.op.hold (s.atSlot r.slot)) with
      | some r => .wait (s.waitCycle k c r.slot)
      | none => .go s ()

/-! Pops and checks. -/

/-- Serves the pops of some operations in slot order, as far as one that stalls or faults (R171). DESIGN CHOICE: where a lower slot's
pop stalls and a higher slot's would fault, the bundle stalls and the fault comes once the lower pop can be served; the manual does
not say which goes first. -/
def State.servePops (s : State) : List SlotRun → State × RingAnswer × Nat × Option Stop
  | [] => (s, .go, 0, none)
  | r :: t =>
    match s.popSlot r.slot (queueNums r.op.pops) with
    | (s1, .go, _) => s1.servePops t
    | (s1, a, st) => (s1, a, r.slot, st)

/-- The lowest slot that fails a check made at issue (R378). -/
def State.checkRuns (s : State) : List SlotRun → State × Option (Nat × Stop)
  | [] => (s, none)
  | r :: t =>
    match r.op.check (s.atSlot r.slot) with
    | (s1, some st) => (s1, some (r.slot, st))
    | (s1, none) => s1.checkRuns t

/-- Performs the effects of the operations of one phase, in slot order. -/
def State.runPhase (s : State) (runs : List SlotRun) (p : Nat) : State :=
  (runs.filter (fun r => decide (r.op.phase = p))).foldl (fun u r => r.op.act (u.atSlot r.slot)) s

/-- Performs the effects of operations other than those of the bundle as a whole: the readers, then the writers, then those
that follow the accesses of their own bundle (R21). -/
def State.runSlots (s : State) (runs : List SlotRun) : State :=
  ((s.runPhase runs 0).runPhase runs 1).runPhase runs 2

/-- Puts a pending write among those of its bundle, by slot (R22, R181). -/
def slotInsert (w : Pend) : List Pend → List Pend
  | [] => [w]
  | x :: t => if w.slot < x.slot then w :: x :: t else x :: slotInsert w t

/-- Puts the pending writes of the bundle in hand, numbered from `seq` on or made before a stop of it, into slot order. -/
def State.orderPend (s : State) (c seq : Nat) (own : List Nat) : State :=
  let mine (w : Pend) : Bool := decide (seq ≤ w.seq) || decide (w.seq ∈ own)
  s.modCtx c (fun x => { x with
    pend := x.pend.filter (fun w => !mine w) ++ (x.pend.filter mine).foldl (fun l w => slotInsert w l) [] })

/-- Puts the writes that a signed step's bundle makes in slot order, its queue pushes among them (R403). -/
def State.orderFolds (s s0 : State) (c : Nat) : State :=
  let n := ((s0.taskAt c).map (fun t => t.folds.length)).getD 0
  let pushes := ((s.ctx c).pend.filter (fun w => decide (s0.seq ≤ w.seq) && decide (56 ≤ w.reg) && w.payload.isVec)).map
    (fun w => (⟨w.seq, w.slot, 0, []⟩ : Fold))
  s.modFolds (dieOf c) (s.ctx c).tid (fun l => l.take n ++ slots8.flatMap (fun i =>
    (l.drop n ++ pushes).filter (fun e => decide (e.slot = i))))

/-- The set of slots of some operations. -/
def slotMask (runs : List SlotRun) : Nat := runs.foldl (fun m r => m ||| 2 ^ r.slot) 0

/-- The operations below slot f that may be marked done (R378, R379). -/
def lowRuns (f : Nat) (runs : List SlotRun) : List SlotRun := runs.filter (fun r => decide (r.slot < f) && !r.level)

/-- A check at issue has failed in slot f (R378, R379): the slots below it that passed take effect and are marked done. -/
def State.failIssue (s s0 : State) (c : Nat) (b : BitVec 256) (f : Nat) (st : Stop) (runs : List SlotRun) : State :=
  let low := lowRuns f runs
  let s1 := ({ s with iss := s0.iss }).modCtx c (fun x => { x with queues := (s0.ctx c).queues })
  let s2 := (((s1.servePops low).1.runSlots low).orderFolds s0 c).orderPend c s0.seq (s0.ownOf c b)
  s2.stopCtx c { st with slot := f } (s0.ctx c).pc (slotMask low) false

/-! The bundle as a whole. -/

/-- The end action of hardware loops at address p (R294): the loop stack and the next PC; with p no last body bundle, the
stack as it was and p + 32. -/
def endLoops (p : Nat) : List LoopEntry → List LoopEntry × Nat
  | [] => ([], addr56 (p + 32))
  | e :: t =>
    if p ≠ e.lastAddr then (e :: t, addr56 (p + 32))
    else if e.index + 1 < e.count then ({ e with index := e.index + 1 } :: t, e.start)
    else endLoops p t

/-- Whether p is the last body bundle of the top entry. -/
def atLoopEnd (p : Nat) (l : List LoopEntry) : Bool := (l.head?.map (fun e => decide (p = e.lastAddr))).getD false

/-- Chooses the next PC of a bundle at p by R290, once its control flow has run. -/
def State.nextPc (s : State) (c p : Nat) : State :=
  if s.iss.taken then s
  else
    let l := (s.ctx c).loops
    let (l1, pc) := endLoops p l
    let s1 := s.modCtx c (fun x => { x with loops := l1, pc := pc })
    if atLoopEnd p l then { s1 with iss := { s1.iss with point := true } } else s1

/-- Zeroes the counters of a loop entry that has been pushed at depth j (R425). -/
def State.zeroCounters (s : State) (c j : Nat) : State :=
  (List.range 9).foldl (fun u n => u.setCtxCtl c (0x300 + 16 * j + n) 0) s

/-- Heavy slots of a bundle: V0, V1, V2 and F that are neither NOP nor literal (R412). -/
def heavy (x : BitVec 256) : Nat := slotCount .v (isOp x) + slotCount .f (isOp x)

/-- The effective cap of a context (R413). -/
def State.capOf (s : State) (c : Nat) : Nat := max 1 (min (bits (s.ctxCtl c 0x090) 2 0) (s.pcap (dieOf c)))

/-- Frozen cycles of a bundle that splits (R414). -/
def splitCycles (h cap : Nat) : Nat := if cap < h then (h + cap - 1) / cap else 0

/-- Frozen cycles of the queue port: two slots move per cycle (R159). -/
def queueCycles (n : Nat) : Nat := if 2 < n then (n + 1) / 2 - 1 else 0

/-- Ring slots that a bundle moves: its pops and peeks, and the pushes it makes pending (R159). -/
def State.ringMoves (s : State) (c seq : Nat) (runs : List SlotRun) : Nat :=
  runs.foldl (fun n r => n + (queueNums r.op.pops).length) 0 +
    (s.ctx c).pend.countP (fun w => decide (seq ≤ w.seq) && decide (56 ≤ w.reg) && w.payload.isVec)

/-- The frozen cycles that follow a bundle (R45, R159, R182, R190, R414, R415). -/
def State.frozenAfter (s : State) (k c seq : Nat) (x : BitVec 256) (runs : List SlotRun) : Nat :=
  (s.core k).frozen + (s.iss.bank - 1) + (if bits (s.ctxCtl c 0x068) 1 0 = 0 then 0 else 3) +
    splitCycles (heavy x) (s.capOf c) + queueCycles (s.ringMoves c seq runs) + (if (s.core k).droop = 0 then 0 else 1)

/-- The slot that a sample names in the frozen cycles that follow a bundle (R427). DESIGN CHOICE, the manual saying only `the
item it waits on`: the control operation where one ran, else the first slot whose words a bank conflict or whose ring slots
the queue port delays, else 2, the first heavy slot, in a split. -/
def State.waitSlot (s : State) (runs : List SlotRun) (split : Bool) : Nat :=
  match runs.find? (fun r => decide (r.op.phase = 3)) with
  | some r => r.slot
  | none =>
    if 1 < s.iss.bank then ((runs.find? (fun r => decide (slotClass r.slot = .m))).map (fun r => r.slot)).getD 0
    else if split then 2
    else ((runs.find? (fun r => decide (r.op.pops ≠ []))).map (fun r => r.slot)).getD 0

/-- Closes the issue of a bundle: CYCLES, WDC, DONE, SKIPD, the counters, and the time of the core's next issue, with the
frozen cycles `n` (R300, R305, R379, R415, R422, R425, R427); `s0` is the state the bundle issued in, `w` the slot of the item
that the frozen cycles are for. -/
def State.account (s s0 : State) (k c n w : Nat) (x : BitVec 256) : State :=
  let depth := (s0.ctx c).loops.length
  let s1 := s.modCtx c (fun y => { y with
    cycles := y.cycles + 1, wdc := if s.iss.point then 0 else y.wdc + 1, doneMask := 0, lastDepth := some depth })
  let dbg := s1.ctxCtl c 0x0A0
  let s1 := if bits (s1.ctxCtl c 0x081) 47 40 = 0 then s1 else s1.setCtxCtl c 0x081 (setBits (s1.ctxCtl c 0x081) 47 40 0)
  let s2 := if bit dbg 0 then s1.setCtxCtl c 0x0A0 (setBits dbg 0 0 0) else s1
  let s3 := (s2.countIssue c depth x).countFrozen c n
  let s4 := if depth < (s3.ctx c).loops.length then s3.zeroCounters c depth else s3
  let y := s4.core k
  let d := dieOfCore k
  let v := (s0.core k).cdiv
  let t := s0.ticksOf d v (1 + n)
  let s5 := s4.setCore k { y with
    next := y.next + t, pause := if y.pausing then y.pause else 0, frozen := 0, held := none, droop := y.droop - 1,
    issued := ⟨c, (s0.ctx c).pc, (s0.ctx c).cycles, s0.now, s0.now + s0.ticksOf d v 1, s0.now + t, w,
      ((s0.taskAt c).map (fun y => y.launchId)).getD 0⟩ }
  if y.droop = 1 then s5.dueOnce .droopFreezeEnd (.n k 0 0) else s5

/-- What a context that DONE has ended keeps: the bundle of DONE, with its other slots done, in case a deferred fault stops
it yet (R284, R303). -/
def State.keepDone (s s0 : State) (c : Nat) (runs : List SlotRun) : State :=
  let x := s0.ctx c
  s.modCtx c (fun y => { y with
    pc := x.pc, loops := x.loops, cycles := x.cycles, wdc := x.wdc,
    doneMask := x.doneMask ||| slotMask (runs.filter (fun r => !r.level)) })

/-- A context whose stop keeps its slot: its tile writes are performed, and the tags of the replies that are in are free (R81, R251),
as those of the rest are once they come; the stop is traced (R427); but a task of a failed launch is discarded here (R386). -/
def State.parked (s : State) (c p : Nat) : State :=
  let s1 := ((if s.owns c then s.drainWrites (coreOf c) else s).leaveTags c).traceRec c 2
    (bits (s.ctxCtl c 0x081) 34 32) p 0x42 (s.ctx c).cycles
  match s1.taskAt c with
  | some t =>
    if s1.doomed t then (s1.endTask (dieOf c) t).launchCheck t.launch else s1
  | none => s1

/-- A taken transfer is traced, once the next PC stands and before what the operations of the After class do (R427). -/
def State.traceTransfer (s s0 : State) (c : Nat) (runs : List SlotRun) : State :=
  if s.iss.taken then
    s.traceRec c 1 (((runs.find? (fun r => decide (r.op.phase = 3))).map (fun r => r.slot)).getD 0) (s0.ctx c).pc 0 (s.ctx c).pc
  else s

/-- What follows the operations of the After class: a context that waits has its stop traced, and a
pre-emption point has the core choose its context (R335, R427). -/
def State.afterBundle (s s0 : State) (k c : Nat) (runs : List SlotRun) : State :=
  match (s.ctx c).phase with
  | .done => s.keepDone s0 c runs
  | .ready => if s.iss.point && !s.mayPreempt c then s.chooseCtx k else s
  | ph => if ph.waiting then s.parked c (s0.ctx c).pc else s

/-- What follows the effects of a bundle's operations but those of the After class: the order of its pending writes, the
next PC, the accounts, then the After class. -/
def State.closeBundle (s s0 : State) (k c : Nat) (x : BitVec 256) (runs : List SlotRun) : State :=
  let s1 := ((s.orderFolds s0 c).orderPend c s0.seq (s0.ownOf c x)).nextPc c (s0.ctx c).pc
  let s2 := s1.account s0 k c (s1.frozenAfter k c s0.seq x runs)
    (s1.waitSlot runs (decide (s1.capOf c < heavy x))) x
  ((s2.traceTransfer s0 c runs).runPhase runs 4).afterBundle s0 k c runs

/-- Issues a bundle whose pops were served and whose checks passed. -/
def State.perform (s s0 : State) (k c : Nat) (x : BitVec 256) (runs : List SlotRun) : State :=
  ((s.seenBy c (fun u => u.runSlots runs)).runPhase runs 3).closeBundle s0 k c x runs

/-- What a bundle does where nothing holds it any more, or, before it, the stop of a deferred FUT.RD that a wait has put off (R338). -/
def State.unlessDeferred (s : State) (c : Nat) (t : State) : State :=
  match (s.ctx c).futStop with
  | some (n, pc) => s.takeStop c ⟨0x42, 0, n % 8, none⟩ pc 0 false
  | none => t

/-- The last gate: the pops and the checks made at issue; then the bundle issues, or stops, or is held (R171, R378). What is to
take effect first waits for a refresh of a row group it touches, with frozen cycles and no stop before the refresh ends (R149,
R299). -/
def State.issue (s : State) (k c : Nat) (x : BitVec 256) (runs : List SlotRun) : State :=
  if (s.replayOf c).isSome && runs.any (fun r => reachesOut r.instr || s.statsOut c r.instr) then s.endReplay c
  else
    match s.seenWith c (fun u => u.servePops runs) with
    | (_, .stall, slot, _) => s.heldCycle k c slot
    | (_, .bad, slot, st) => s.stopCtx c { st.getD (Stop.of 0x0A) with slot := slot } (s.ctx c).pc 0 false
    | (s1, .go, _, _) =>
      match s1.seenWith c (fun u => u.checkRuns runs) with
      | (s2, some (f, st)) =>
        match s.refreshWait c (lowRuns f runs) with
        | some n => s.committedCycle k c 32 n
        | none => s.unlessDeferred c (s2.seenBy c (fun u => u.failIssue s c x f st runs))
      | (s2, none) =>
        match s.refreshWait c runs with
        | some n => s.committedCycle k c 32 n
        | none => s.unlessDeferred c (s2.perform s k c x runs)

/-- The slot of an LT.TOUCH of a core of which a refresh, in any scratchpad of the die or its slice scratch, has yet to end
(R156). -/
def State.touchWait (s : State) (k : Nat) : Option Nat :=
  let mine (q : List (Nat × Option Nat)) : Option Nat :=
    q.findSome? (fun e => e.2.bind (fun n => if n / 8 = k then some (n % 8) else none))
  (mine (s.die (k / 64)).refreshQ).or
    ((List.range 64).findSome? (fun i => mine (s.core (k / 64 * 64 + i)).refreshQ))

/-- The slot of a TLBINV or ICINV of a context of which accesses have yet to be performed (R104, R424). -/
def State.stallWait (s : State) (c : Nat) : Option Nat :=
  match (s.ctx c).stall with
  | some (n, l) => if s.anyOpen l then some n else none
  | none => none

/-- The gates before a bundle's pops and checks: a deferred FUT.RD, landing, the causes of Table 20-6, fetch and decode, the faults
before issue, and the waits and holds. -/
def State.gates (s : State) (k c : Nat) : Gate (BitVec 256 × List SlotRun) :=
  (s.futGate c).then_ (fun s0 _ => (s0.landGate k c).then_ (fun s1 _ => (s1.stateGate k c).then_ (fun s1 _ =>
    (s1.causeGate c).then_ (fun s2 _ => (s2.decodeGate k c).then_ (fun s3 p =>
      (s3.beforeGate c p.1 p.2).then_ (fun s4 _ => (s4.orderGate k c p.2).then_ (fun s5 _ =>
        (s5.holdGate k c p.2).then_ (fun s6 _ => .go s6 p))))))))

/-- A stall that follows a bundle has ended: the next may take a stop again (R298). -/
def State.stallOver (s : State) (k : Nat) : State :=
  if 64 ≤ (s.core k).held.getD 0 then s.modCore k (fun y => { y with held := none }) else s

/-- One attempt of core k to issue the next bundle of its running context c. -/
def State.attempt (s : State) (k c : Nat) : State :=
  match (s.touchWait k).or (s.stallWait c) with
  | some n => s.committedCycle k c 64 n
  | none =>
    match (s.stallOver k).gates k c with
    | .wait s1 => s1
    | .go s1 (x, runs) => s1.issue k c x runs

/-- ISSUE_BUNDLE of core a: the running context's next bundle, where its cycle has come; a core of a die that is not live, or
that no partition holds, issues nothing (R435, R446). -/
def execIssueBundle (s : State) : Result :=
  match s.ev with
  | .n k _ _ =>
    let y := s.core k
    match y.running with
    | none => .next s
    | some r =>
      let c := k * 4 + r
      if (s.ctx c).phase ≠ .ready ∨ y.retention ∨ s.now < y.next ∨ s.dieRuns (k / 64) = false then .next s
      else .next ((s.modCore k (fun z => { z with next := s.now })).attempt k c)
  | _ => .next s

end Sys2Proof.Machine
end

