-- ==== Sys2Proof/Machine/Sample.lean ====
section
/-! DEFINITION. Samples (R427): what each core of a die does when TSTAMP crosses a multiple of 2^SPER. -/

namespace Sys2Proof.Machine

/-- Whether a core has a bundle to issue: its running context is ready, and its die runs (R435, R446). -/
def State.issues (s : State) (k : Nat) (y : Core) : Bool :=
  !y.retention && s.dieRuns (k / 64) && match y.running with
    | some r => decide ((s.ctx (k * 4 + r)).phase = .ready)
    | none => false

/-- Whether a core's next attempt to issue comes now. -/
def State.attempts (s : State) (k : Nat) : Bool := s.issues k (s.core k) && decide ((s.core k).next ≤ s.now)

/-- What a sample says of a core (R427): the context and LAUNCHID, whether the cycle is frozen, the bundle, the slot, and CYCLES. -/
structure Sampled where
  ctx : Nat
  lid : Nat
  frozen : Bool
  pc : Nat
  slot : Nat
  cycles : Nat
deriving DecidableEq, Repr

/-- A sample of the context in a slot of a core. -/
def State.sampleCtx (s : State) (c : Nat) (frozen : Bool) (pc slot cycles : Nat) : Sampled :=
  ⟨c, ((s.taskAt c).map (fun t => t.launchId)).getD 0, frozen, pc, slot, cycles⟩

/-- What a core does in a cycle, for a sample (R427); none where no context runs. The cycles of the bundle issued last stand, though it
may have stopped its context. A cycle that begins now is what the core's attempt to issue makes of it. DESIGN CHOICE: none too
in a pause and in a change of running context, whose cycles no context counts (R307, R335). -/
def State.sampleOf (s : State) (k : Nat) : Option Sampled :=
  let x := s.core k
  let i := x.issued
  if i.start ≤ s.now ∧ s.now < i.stop then
    some ⟨i.ctx, i.lid, decide (i.cycle ≤ s.now), i.pc, if i.cycle ≤ s.now then i.slot else 0, i.cycles⟩
  else
    match x.running with
    | none => none
    | some r =>
      let c := k * 4 + r
      let y := s.ctx c
      let u := if s.attempts k then (s.modCore k (fun z => { z with next := s.now })).attempt k c else s
      let z := u.core k
      if s.attempts k && decide (z.issued.start = s.now) then some (s.sampleCtx c false y.pc 0 y.cycles)
      else if z.running ≠ some r then none
      else
        match z.held with
        | none => none
        | some n =>
          some (if 64 ≤ n then s.sampleCtx c true i.pc (n % 8) i.cycles else s.sampleCtx c (decide (n ≠ 8)) y.pc (n % 8) y.cycles)

/-- One core's sample (Table 23-5). -/
def State.sampleCore (s : State) (k : Nat) : State :=
  let d := dieOfCore k
  match s.sampleOf k with
  | none => s.ringRecord d [0, s.tstamp, k % 64 * 2 ^ 24 + 2 * 2 ^ 8, 0]
  | some p =>
    s.ringRecord d [p.slot * 2 ^ 56 + p.pc, s.tstamp,
      p.lid % 2 ^ 32 * 2 ^ 32 + k % 64 * 2 ^ 24 + p.ctx % 4 * 2 ^ 22 + (if p.frozen then 2 ^ 8 else 0), p.cycles]

/-- SAMPLE_RECORD of die a (R427): with SEN set and SAMP open, each core writes one sample; while SAMP is closed SEN stands
and reads 0 (R426), and samples go on once it opens. -/
def execSampleRecord (s : State) : Result :=
  match s.ev with
  | .n d _ _ =>
    if !bit (s.dieCtl d 0x210) 63 then .next s
    else
      let s1 := if s.dbgRight d 2 then (coresOf d).foldl State.sampleCore s else s
      .next (s1.at_ (s1.nextSample d) .sampleRecord (.n d 0 0))
  | _ => .next s

end Sys2Proof.Machine
end

