-- ==== Sys2Proof/Machine/Sched.lean ====
section
/-! DEFINITION. What comes next (R15, R134): the event at the head of the agenda; else, in time order, a tick boundary, an
event that falls at a time, or a core's next issue. -/

namespace Sys2Proof.Machine

/-- The time of the next tick boundary: each 1,000 ns (R134), of 6 reference ticks (R15). -/
def State.nextTick (s : State) : Nat := (s.now / 6000 + 1) * 6000

/-- The earlier of two issues, the lower-numbered core first among equals. -/
def earlier (a b : Option (Nat × Nat)) : Option (Nat × Nat) :=
  match a, b with
  | some x, some y => if y.1 < x.1 then some y else some x
  | none, y => y
  | x, none => x

/-- The earliest next issue, as its time and core. -/
def State.nextIssue (s : State) : Option (Nat × Nat) :=
  s.cores.foldl (fun b p => if s.issues p.1 p.2 then earlier b (some (max p.2.next s.now, p.1)) else b) none

/-- Whether a time comes no later than another that may be absent. -/
def noLater (t : Nat) (x : Option Nat) : Bool :=
  match x with
  | some u => decide (t ≤ u)
  | none => true

/-- The event that comes next, with the state in which it is performed. -/
def State.pick (s : State) : State × Instr :=
  match s.agenda with
  | d :: rest => ({ s with agenda := rest, ev := d.arg }, d.ev)
  | [] =>
    let issue := s.nextIssue
    if noLater s.nextTick (s.timers.head?.map (fun p => p.1)) && noLater s.nextTick (issue.map (fun p => p.1)) then
      ({ s with now := s.nextTick, ev := .none }, .tickBoundary)
    else
      match s.timers, issue with
      | (t, d) :: rest, some (u, k) =>
        if t ≤ u then ({ s with now := max t s.now, timers := rest, ev := d.arg }, d.ev)
        else ({ s with now := u, ev := .n k 0 0 }, .issueBundle)
      | (t, d) :: rest, none => ({ s with now := max t s.now, timers := rest, ev := d.arg }, d.ev)
      | [], some (u, k) => ({ s with now := u, ev := .n k 0 0 }, .issueBundle)
      | [], none => ({ s with now := s.nextTick, ev := .none }, .tickBoundary)

end Sys2Proof.Machine
end

