-- ==== Sys2Proof/Machine/Dispatch.lean ====
section
/-! DEFINITION. The dispatch: one arm per constructor of Instr, each one call of its meaning. A slot operation acts on the
issue latch of the state, an event on the operands in `ev`. -/

namespace Sys2Proof.Machine

def exec (i : Instr) (s : State) : Host.Outcome State Fault Refusal :=
  match i with
  | .add d a b => Sys2Proof.Machine.execAdd d a b s
  | .sub d a b => Sys2Proof.Machine.execSub d a b s
  | .and d a b => Sys2Proof.Machine.execAnd d a b s
  | .or d a b => Sys2Proof.Machine.execOr d a b s
  | .xor d a b => Sys2Proof.Machine.execXor d a b s
  | .andn d a b => Sys2Proof.Machine.execAndn d a b s
  | .addi d a imm => Sys2Proof.Machine.execAddi d a imm s
  | .andi d a imm => Sys2Proof.Machine.execAndi d a imm s
  | .ori d a imm => Sys2Proof.Machine.execOri d a imm s
  | .xori d a imm => Sys2Proof.Machine.execXori d a imm s
  | .shl d a b => Sys2Proof.Machine.execShl d a b s
  | .shr d a b => Sys2Proof.Machine.execShr d a b s
  | .sar d a b => Sys2Proof.Machine.execSar d a b s
  | .shli d a imm => Sys2Proof.Machine.execShli d a imm s
  | .shri d a imm => Sys2Proof.Machine.execShri d a imm s
  | .sari d a imm => Sys2Proof.Machine.execSari d a imm s
  | .mul d a b => Sys2Proof.Machine.execMul d a b s
  | .mulh d a b => Sys2Proof.Machine.execMulh d a b s
  | .mulhu d a b => Sys2Proof.Machine.execMulhu d a b s
  | .min d a b => Sys2Proof.Machine.execMin d a b s
  | .max d a b => Sys2Proof.Machine.execMax d a b s
  | .minu d a b => Sys2Proof.Machine.execMinu d a b s
  | .maxu d a b => Sys2Proof.Machine.execMaxu d a b s
  | .seq d a b => Sys2Proof.Machine.execSeq d a b s
  | .sne d a b => Sys2Proof.Machine.execSne d a b s
  | .slt d a b => Sys2Proof.Machine.execSlt d a b s
  | .sltu d a b => Sys2Proof.Machine.execSltu d a b s
  | .seqi d a imm => Sys2Proof.Machine.execSeqi d a imm s
  | .snei d a imm => Sys2Proof.Machine.execSnei d a imm s
  | .slti d a imm => Sys2Proof.Machine.execSlti d a imm s
  | .sltui d a imm => Sys2Proof.Machine.execSltui d a imm s
  | .sel d a b c => Sys2Proof.Machine.execSel d a b c s
  | .ldi d imm => Sys2Proof.Machine.execLdi d imm s
  | .ldhi d imm => Sys2Proof.Machine.execLdhi d imm s
  | .clz d a => Sys2Proof.Machine.execClz d a s
  | .ctz d a => Sys2Proof.Machine.execCtz d a s
  | .popc d a => Sys2Proof.Machine.execPopc d a s
  | .brev d a => Sys2Proof.Machine.execBrev d a s
  | .bfx d a b => Sys2Proof.Machine.execBfx d a b s
  | .bfxU d a b => Sys2Proof.Machine.execBfxU d a b s
  | .bfi d a b => Sys2Proof.Machine.execBfi d a b s
  | .fshr d a b => Sys2Proof.Machine.execFshr d a b s
  | .fshri d a imm => Sys2Proof.Machine.execFshri d a imm s
  | .bCond cond a off => Sys2Proof.Machine.execBCond cond a off s
  | .jmp imm => Sys2Proof.Machine.execJmp imm s
  | .jmpr a => Sys2Proof.Machine.execJmpr a s
  | .call d imm => Sys2Proof.Machine.execCall d imm s
  | .ret a => Sys2Proof.Machine.execRet a s
  | .loop a last => Sys2Proof.Machine.execLoop a last s
  | .loopi count last => Sys2Proof.Machine.execLoopi count last s
  | .lidx d imm => Sys2Proof.Machine.execLidx d imm s
  | .lbrk a => Sys2Proof.Machine.execLbrk a s
  | .fmtset a => Sys2Proof.Machine.execFmtset a s
  | .fmtget d => Sys2Proof.Machine.execFmtget d s
  | .clkdiv a => Sys2Proof.Machine.execClkdiv a s
  | .mfc d imm => Sys2Proof.Machine.execMfc d imm s
  | .mtc ctl a => Sys2Proof.Machine.execMtc ctl a s
  | .tstamp d => Sys2Proof.Machine.execTstamp d s
  | .cycles d => Sys2Proof.Machine.execCycles d s
  | .yield => Sys2Proof.Machine.execYield s
  | .wait a => Sys2Proof.Machine.execWait a s
  | .spawn d a => Sys2Proof.Machine.execSpawn d a s
  | .done => Sys2Proof.Machine.execDone s
  | .phase => Sys2Proof.Machine.execPhase s
  | .trap imm => Sys2Proof.Machine.execTrap imm s
  | .sys imm => Sys2Proof.Machine.execSys imm s
  | .vaddF d a b fin m => Sys2Proof.Machine.execVaddF d a b fin m s
  | .vsubF d a b fin m => Sys2Proof.Machine.execVsubF d a b fin m s
  | .vmulF d a b fin m => Sys2Proof.Machine.execVmulF d a b fin m s
  | .vfma d a b fin m => Sys2Proof.Machine.execVfma d a b fin m s
  | .vfms d a b fin m => Sys2Proof.Machine.execVfms d a b fin m s
  | .vfnma d a b fin m => Sys2Proof.Machine.execVfnma d a b fin m s
  | .vminF d a b m => Sys2Proof.Machine.execVminF d a b m s
  | .vmaxF d a b m => Sys2Proof.Machine.execVmaxF d a b m s
  | .vabs d a m => Sys2Proof.Machine.execVabs d a m s
  | .vneg d a m => Sys2Proof.Machine.execVneg d a m s
  | .vcmpF d a b cond => Sys2Proof.Machine.execVcmpF d a b cond s
  | .vclass d a imm => Sys2Proof.Machine.execVclass d a imm s
  | .vcvt d a imm => Sys2Proof.Machine.execVcvt d a imm s
  | .vro d a imm => Sys2Proof.Machine.execVro d a imm s
  | .vfin d a imm => Sys2Proof.Machine.execVfin d a imm s
  | .vstky d a => Sys2Proof.Machine.execVstky d a s
  | .vclrs d a m => Sys2Proof.Machine.execVclrs d a m s
  | .vaddI d a b m => Sys2Proof.Machine.execVaddI d a b m s
  | .vsubI d a b m => Sys2Proof.Machine.execVsubI d a b m s
  | .vmulI d a b m => Sys2Proof.Machine.execVmulI d a b m s
  | .vmulhI d a b m => Sys2Proof.Machine.execVmulhI d a b m s
  | .vminI d a b m => Sys2Proof.Machine.execVminI d a b m s
  | .vmaxI d a b m => Sys2Proof.Machine.execVmaxI d a b m s
  | .vaddsI d a b m => Sys2Proof.Machine.execVaddsI d a b m s
  | .vand d a b m => Sys2Proof.Machine.execVand d a b m s
  | .vor d a b m => Sys2Proof.Machine.execVor d a b m s
  | .vxor d a b m => Sys2Proof.Machine.execVxor d a b m s
  | .vandn d a b m => Sys2Proof.Machine.execVandn d a b m s
  | .vshl d a b m => Sys2Proof.Machine.execVshl d a b m s
  | .vshr d a b m => Sys2Proof.Machine.execVshr d a b m s
  | .vsar d a b m => Sys2Proof.Machine.execVsar d a b m s
  | .vcmpI d a b cond => Sys2Proof.Machine.execVcmpI d a b cond s
  | .vbfx d a b m => Sys2Proof.Machine.execVbfx d a b m s
  | .vfshr d a imm => Sys2Proof.Machine.execVfshr d a imm s
  | .vpopc d a m => Sys2Proof.Machine.execVpopc d a m s
  | .vclz d a m => Sys2Proof.Machine.execVclz d a m s
  | .kand d a b => Sys2Proof.Machine.execKand d a b s
  | .kor d a b => Sys2Proof.Machine.execKor d a b s
  | .knot d a => Sys2Proof.Machine.execKnot d a s
  | .vsel d a b k => Sys2Proof.Machine.execVsel d a b k s
  | .vmov d a m => Sys2Proof.Machine.execVmov d a m s
  | .vmovi d imm => Sys2Proof.Machine.execVmovi d imm s
  | .vmoviW d imm lit => Sys2Proof.Machine.execVmoviW d imm lit s
  | .vbcast d a m => Sys2Proof.Machine.execVbcast d a m s
  | .vget d a imm => Sys2Proof.Machine.execVget d a imm s
  | .vset d a imm => Sys2Proof.Machine.execVset d a imm s
  | .vperm d a b m => Sys2Proof.Machine.execVperm d a b m s
  | .vrot d a imm => Sys2Proof.Machine.execVrot d a imm s
  | .xgMov d a imm => Sys2Proof.Machine.execXgMov d a imm s
  | .xgBcast d a imm => Sys2Proof.Machine.execXgBcast d a imm s
  | .vred d a imm => Sys2Proof.Machine.execVred d a imm s
  | .vscan d a imm => Sys2Proof.Machine.execVscan d a imm s
  | .mredF d a b k => Sys2Proof.Machine.execMredF d a b k s
  | .mredI d a b k => Sys2Proof.Machine.execMredI d a b k s
  | .trdRow d a imm => Sys2Proof.Machine.execTrdRow d a imm s
  | .trdCol d a imm => Sys2Proof.Machine.execTrdCol d a imm s
  | .twrRow d a imm => Sys2Proof.Machine.execTwrRow d a imm s
  | .twrCol d a imm => Sys2Proof.Machine.execTwrCol d a imm s
  | .rcp d a fin m => Sys2Proof.Machine.execRcp d a fin m s
  | .rsq d a fin m => Sys2Proof.Machine.execRsq d a fin m s
  | .sqrt d a fin m => Sys2Proof.Machine.execSqrt d a fin m s
  | .exp2 d a fin m => Sys2Proof.Machine.execExp2 d a fin m s
  | .log2 d a fin m => Sys2Proof.Machine.execLog2 d a fin m s
  | .tanh d a fin m => Sys2Proof.Machine.execTanh d a fin m s
  | .sin d a fin m => Sys2Proof.Machine.execSin d a fin m s
  | .cos d a fin m => Sys2Proof.Machine.execCos d a fin m s
  | .sigm d a fin m => Sys2Proof.Machine.execSigm d a fin m s
  | .idiv d a b => Sys2Proof.Machine.execIdiv d a b s
  | .idivu d a b => Sys2Proof.Machine.execIdivu d a b s
  | .irem d a b => Sys2Proof.Machine.execIrem d a b s
  | .iremu d a b => Sys2Proof.Machine.execIremu d a b s
  | .mshape d imm => Sys2Proof.Machine.execMshape d imm s
  | .mzero d => Sys2Proof.Machine.execMzero d s
  | .mma d a b => Sys2Proof.Machine.execMma d a b s
  | .mmas d a b => Sys2Proof.Machine.execMmas d a b s
  | .mstore d a => Sys2Proof.Machine.execMstore d a s
  | .mwait d => Sys2Proof.Machine.execMwait d s
  | .mwaitAll => Sys2Proof.Machine.execMwaitAll s
  | .lldB d base off => Sys2Proof.Machine.execLldB d base off s
  | .lldBU d base off => Sys2Proof.Machine.execLldBU d base off s
  | .lldH d base off => Sys2Proof.Machine.execLldH d base off s
  | .lldHU d base off => Sys2Proof.Machine.execLldHU d base off s
  | .lldW d base off => Sys2Proof.Machine.execLldW d base off s
  | .lldWU d base off => Sys2Proof.Machine.execLldWU d base off s
  | .lldD d base off => Sys2Proof.Machine.execLldD d base off s
  | .lstB d base off => Sys2Proof.Machine.execLstB d base off s
  | .lstH d base off => Sys2Proof.Machine.execLstH d base off s
  | .lstW d base off => Sys2Proof.Machine.execLstW d base off s
  | .lstD d base off => Sys2Proof.Machine.execLstD d base off s
  | .gldB d base off => Sys2Proof.Machine.execGldB d base off s
  | .gldBU d base off => Sys2Proof.Machine.execGldBU d base off s
  | .gldH d base off => Sys2Proof.Machine.execGldH d base off s
  | .gldHU d base off => Sys2Proof.Machine.execGldHU d base off s
  | .gldW d base off => Sys2Proof.Machine.execGldW d base off s
  | .gldWU d base off => Sys2Proof.Machine.execGldWU d base off s
  | .gldD d base off => Sys2Proof.Machine.execGldD d base off s
  | .gstB d base off => Sys2Proof.Machine.execGstB d base off s
  | .gstH d base off => Sys2Proof.Machine.execGstH d base off s
  | .gstW d base off => Sys2Proof.Machine.execGstW d base off s
  | .gstD d base off => Sys2Proof.Machine.execGstD d base off s
  | .gldWAcq d base off => Sys2Proof.Machine.execGldWAcq d base off s
  | .gldDAcq d base off => Sys2Proof.Machine.execGldDAcq d base off s
  | .gstWRel d base off => Sys2Proof.Machine.execGstWRel d base off s
  | .gstDRel d base off => Sys2Proof.Machine.execGstDRel d base off s
  | .vldRow d base off => Sys2Proof.Machine.execVldRow d base off s
  | .vldCol d base off => Sys2Proof.Machine.execVldCol d base off s
  | .vldStr d base off => Sys2Proof.Machine.execVldStr d base off s
  | .vstRow d base off => Sys2Proof.Machine.execVstRow d base off s
  | .vstCol d base off => Sys2Proof.Machine.execVstCol d base off s
  | .vstStr d base off => Sys2Proof.Machine.execVstStr d base off s
  | .vstBf16 d base off => Sys2Proof.Machine.execVstBf16 d base off s
  | .vstF16 d base off => Sys2Proof.Machine.execVstF16 d base off s
  | .vstF8e4 d base off => Sys2Proof.Machine.execVstF8e4 d base off s
  | .vstF8e5 d base off => Sys2Proof.Machine.execVstF8e5 d base off s
  | .vldg d base idx m => Sys2Proof.Machine.execVldg d base idx m s
  | .vsts d base idx m => Sys2Proof.Machine.execVsts d base idx m s
  | .vspl d base off => Sys2Proof.Machine.execVspl d base off s
  | .vfil d base off => Sys2Proof.Machine.execVfil d base off s
  | .gvld d base off => Sys2Proof.Machine.execGvld d base off s
  | .gvst d base off => Sys2Proof.Machine.execGvst d base off s
  | .aaddW d base src ord sc => Sys2Proof.Machine.execAaddW d base src ord sc s
  | .aaddD d base src ord sc => Sys2Proof.Machine.execAaddD d base src ord sc s
  | .afaddW d base src ord sc => Sys2Proof.Machine.execAfaddW d base src ord sc s
  | .aminW d base src ord sc => Sys2Proof.Machine.execAminW d base src ord sc s
  | .aminD d base src ord sc => Sys2Proof.Machine.execAminD d base src ord sc s
  | .amaxW d base src ord sc => Sys2Proof.Machine.execAmaxW d base src ord sc s
  | .amaxD d base src ord sc => Sys2Proof.Machine.execAmaxD d base src ord sc s
  | .aminuW d base src ord sc => Sys2Proof.Machine.execAminuW d base src ord sc s
  | .aminuD d base src ord sc => Sys2Proof.Machine.execAminuD d base src ord sc s
  | .amaxuW d base src ord sc => Sys2Proof.Machine.execAmaxuW d base src ord sc s
  | .amaxuD d base src ord sc => Sys2Proof.Machine.execAmaxuD d base src ord sc s
  | .aandW d base src ord sc => Sys2Proof.Machine.execAandW d base src ord sc s
  | .aandD d base src ord sc => Sys2Proof.Machine.execAandD d base src ord sc s
  | .aorW d base src ord sc => Sys2Proof.Machine.execAorW d base src ord sc s
  | .aorD d base src ord sc => Sys2Proof.Machine.execAorD d base src ord sc s
  | .axorW d base src ord sc => Sys2Proof.Machine.execAxorW d base src ord sc s
  | .axorD d base src ord sc => Sys2Proof.Machine.execAxorD d base src ord sc s
  | .axchgW d base src ord sc => Sys2Proof.Machine.execAxchgW d base src ord sc s
  | .axchgD d base src ord sc => Sys2Proof.Machine.execAxchgD d base src ord sc s
  | .acasW d base src ord sc => Sys2Proof.Machine.execAcasW d base src ord sc s
  | .acasD d base src ord sc => Sys2Proof.Machine.execAcasD d base src ord sc s
  | .futRd d base off => Sys2Proof.Machine.execFutRd d base off s
  | .futFill d base off => Sys2Proof.Machine.execFutFill d base off s
  | .futReset base off => Sys2Proof.Machine.execFutReset base off s
  | .fence ord sc => Sys2Proof.Machine.execFence ord sc s
  | .barArr base sc => Sys2Proof.Machine.execBarArr base sc s
  | .barWait base sc => Sys2Proof.Machine.execBarWait base sc s
  | .cntAdd base src ord sc => Sys2Proof.Machine.execCntAdd base src ord sc s
  | .cntWait base ord sc => Sys2Proof.Machine.execCntWait base ord sc s
  | .icinv base sc => Sys2Proof.Machine.execIcinv base sc s
  | .cpy d a => Sys2Proof.Machine.execCpy d a s
  | .cpyMc d a b => Sys2Proof.Machine.execCpyMc d a b s
  | .cpyw d a => Sys2Proof.Machine.execCpyw d a s
  | .subOpen d a => Sys2Proof.Machine.execSubOpen d a s
  | .subClose d => Sys2Proof.Machine.execSubClose d s
  | .qcfg d a => Sys2Proof.Machine.execQcfg d a s
  | .qstat d a => Sys2Proof.Machine.execQstat d a s
  | .ltClass d a b => Sys2Proof.Machine.execLtClass d a b s
  | .ltTouch a b => Sys2Proof.Machine.execLtTouch a b s
  | .ltFree a b => Sys2Proof.Machine.execLtFree a b s
  | .ltStat d a => Sys2Proof.Machine.execLtStat d a s
  | .resReg d a => Sys2Proof.Machine.execResReg d a s
  | .resDrop a b => Sys2Proof.Machine.execResDrop a b s
  | .resQry d a b => Sys2Proof.Machine.execResQry d a b s
  | .tlbinv a b => Sys2Proof.Machine.execTlbinv a b s
  | .privMtc ctl a => Sys2Proof.Machine.execPrivMtc ctl a s
  | .powerOnReset => Sys2Proof.Machine.execPowerOnReset s
  | .managementCoreBoot => Sys2Proof.Machine.execManagementCoreBoot s
  | .featureNegotiation => Sys2Proof.Machine.execFeatureNegotiation s
  | .partitionAssign => Sys2Proof.Machine.execPartitionAssign s
  | .partitionWithdraw => Sys2Proof.Machine.execPartitionWithdraw s
  | .spdmRequest => Sys2Proof.Machine.execSpdmRequest s
  | .debugPolicy => Sys2Proof.Machine.execDebugPolicy s
  | .lockInterface => Sys2Proof.Machine.execLockInterface s
  | .startInterface => Sys2Proof.Machine.execStartInterface s
  | .stopInterface => Sys2Proof.Machine.execStopInterface s
  | .hostBar2Read => Sys2Proof.Machine.execHostBar2Read s
  | .hostBar2Write => Sys2Proof.Machine.execHostBar2Write s
  | .hostAtomicop => Sys2Proof.Machine.execHostAtomicop s
  | .doorbellWrite => Sys2Proof.Machine.execDoorbellWrite s
  | .queuePollTimer => Sys2Proof.Machine.execQueuePollTimer s
  | .queueSlotTake => Sys2Proof.Machine.execQueueSlotTake s
  | .controlRegisterWrite => Sys2Proof.Machine.execControlRegisterWrite s
  | .issueBundle => Sys2Proof.Machine.execIssueBundle s
  | .resultLanding => Sys2Proof.Machine.execResultLanding s
  | .lateItemArrival => Sys2Proof.Machine.execLateItemArrival s
  | .directReplyArrival => Sys2Proof.Machine.execDirectReplyArrival s
  | .directStoreAck => Sys2Proof.Machine.execDirectStoreAck s
  | .portRequestService => Sys2Proof.Machine.execPortRequestService s
  | .pageWalk => Sys2Proof.Machine.execPageWalk s
  | .turretSlotLoad => Sys2Proof.Machine.execTurretSlotLoad s
  | .turretSlotStore => Sys2Proof.Machine.execTurretSlotStore s
  | .streamRetry => Sys2Proof.Machine.execStreamRetry s
  | .streamCompletion => Sys2Proof.Machine.execStreamCompletion s
  | .copyPacketStart => Sys2Proof.Machine.execCopyPacketStart s
  | .copyUnitWrite => Sys2Proof.Machine.execCopyUnitWrite s
  | .suspendSlotTake => Sys2Proof.Machine.execSuspendSlotTake s
  | .ceresumeWrite => Sys2Proof.Machine.execCeresumeWrite s
  | .multicastLanding => Sys2Proof.Machine.execMulticastLanding s
  | .copyCompletion => Sys2Proof.Machine.execCopyCompletion s
  | .tickBoundary => Sys2Proof.Machine.execTickBoundary s
  | .bandStepDown => Sys2Proof.Machine.execBandStepDown s
  | .rowGroupLimit => Sys2Proof.Machine.execRowGroupLimit s
  | .refreshComplete => Sys2Proof.Machine.execRefreshComplete s
  | .missedRefresh => Sys2Proof.Machine.execMissedRefresh s
  | .sliceLineAgeLimit => Sys2Proof.Machine.execSliceLineAgeLimit s
  | .lclassWrite => Sys2Proof.Machine.execLclassWrite s
  | .temptabWrite => Sys2Proof.Machine.execTemptabWrite s
  | .layoutWrite => Sys2Proof.Machine.execLayoutWrite s
  | .sscarveWrite => Sys2Proof.Machine.execSscarveWrite s
  | .tileWriteComplete => Sys2Proof.Machine.execTileWriteComplete s
  | .matrixKStep => Sys2Proof.Machine.execMatrixKStep s
  | .matrixOpComplete => Sys2Proof.Machine.execMatrixOpComplete s
  | .tileOwnerChange => Sys2Proof.Machine.execTileOwnerChange s
  | .mxstatWrite => Sys2Proof.Machine.execMxstatWrite s
  | .deferredMatrixFault => Sys2Proof.Machine.execDeferredMatrixFault s
  | .expiryTrap => Sys2Proof.Machine.execExpiryTrap s
  | .copyErrorTrap => Sys2Proof.Machine.execCopyErrorTrap s
  | .bufferContractTrap => Sys2Proof.Machine.execBufferContractTrap s
  | .progressFault => Sys2Proof.Machine.execProgressFault s
  | .preemptionRequest => Sys2Proof.Machine.execPreemptionRequest s
  | .preemptStop => Sys2Proof.Machine.execPreemptStop s
  | .timesliceExpiry => Sys2Proof.Machine.execTimesliceExpiry s
  | .runningContextChange => Sys2Proof.Machine.execRunningContextChange s
  | .contextSave => Sys2Proof.Machine.execContextSave s
  | .contextRestore => Sys2Proof.Machine.execContextRestore s
  | .trapHandlerStart => Sys2Proof.Machine.execTrapHandlerStart s
  | .taskCompletion => Sys2Proof.Machine.execTaskCompletion s
  | .placementDecision => Sys2Proof.Machine.execPlacementDecision s
  | .patienceExpiry => Sys2Proof.Machine.execPatienceExpiry s
  | .tileStepProduce => Sys2Proof.Machine.execTileStepProduce s
  | .teamMigration => Sys2Proof.Machine.execTeamMigration s
  | .teamArrival => Sys2Proof.Machine.execTeamArrival s
  | .launchPacket => Sys2Proof.Machine.execLaunchPacket s
  | .launchNopPacket => Sys2Proof.Machine.execLaunchNopPacket s
  | .launchCompletion => Sys2Proof.Machine.execLaunchCompletion s
  | .capstart => Sys2Proof.Machine.execCapstart s
  | .capstop => Sys2Proof.Machine.execCapstop s
  | .waitTimerExpiry => Sys2Proof.Machine.execWaitTimerExpiry s
  | .clkdivPauseEnd => Sys2Proof.Machine.execClkdivPauseEnd s
  | .atomicEnginePerform => Sys2Proof.Machine.execAtomicEnginePerform s
  | .collectivePacket => Sys2Proof.Machine.execCollectivePacket s
  | .collectiveNopPacket => Sys2Proof.Machine.execCollectiveNopPacket s
  | .collectiveChunkStep => Sys2Proof.Machine.execCollectiveChunkStep s
  | .chunkMarkWrite => Sys2Proof.Machine.execChunkMarkWrite s
  | .linkFall => Sys2Proof.Machine.execLinkFall s
  | .podLinkLoss => Sys2Proof.Machine.execPodLinkLoss s
  | .fabricFrameReceive => Sys2Proof.Machine.execFabricFrameReceive s
  | .epochAckCollect => Sys2Proof.Machine.execEpochAckCollect s
  | .memberAckTimeout => Sys2Proof.Machine.execMemberAckTimeout s
  | .treeRebuild => Sys2Proof.Machine.execTreeRebuild s
  | .collectiveCompletion => Sys2Proof.Machine.execCollectiveCompletion s
  | .dieLoss => Sys2Proof.Machine.execDieLoss s
  | .moduleHeartbeatLoss => Sys2Proof.Machine.execModuleHeartbeatLoss s
  | .thermalEmergency => Sys2Proof.Machine.execThermalEmergency s
  | .firmwareWatchdogExpiry => Sys2Proof.Machine.execFirmwareWatchdogExpiry s
  | .pcapRaise => Sys2Proof.Machine.execPcapRaise s
  | .droopTrip => Sys2Proof.Machine.execDroopTrip s
  | .droopStretchEnd => Sys2Proof.Machine.execDroopStretchEnd s
  | .droopFreezeEnd => Sys2Proof.Machine.execDroopFreezeEnd s
  | .retentionEntry => Sys2Proof.Machine.execRetentionEntry s
  | .retentionExit => Sys2Proof.Machine.execRetentionExit s
  | .phaseRefetchComplete => Sys2Proof.Machine.execPhaseRefetchComplete s
  | .phctlWrite => Sys2Proof.Machine.execPhctlWrite s
  | .auditReplayStart => Sys2Proof.Machine.execAuditReplayStart s
  | .checkpointCut => Sys2Proof.Machine.execCheckpointCut s
  | .checkpointPageStream => Sys2Proof.Machine.execCheckpointPageStream s
  | .debugRelease => Sys2Proof.Machine.execDebugRelease s
  | .sampleRecord => Sys2Proof.Machine.execSampleRecord s
  | .goBackNRetransmission => Sys2Proof.Machine.execGoBackNRetransmission s
  | .powerFirmwareWatchdogSignal => Sys2Proof.Machine.execPowerFirmwareWatchdogSignal s
  | .powerFirmwareUpdateStart => Sys2Proof.Machine.execPowerFirmwareUpdateStart s

end Sys2Proof.Machine
end

