-- ==== Sys2Proof/Machine/Fetch.lean ====
section
/-! DEFINITION. Placing a bundle where the next step fetches it. -/

namespace Sys2Proof.Machine

/-- The address at which a placed bundle stands. -/
def placeVa : Nat := 0

/-- The translation a placed bundle is fetched through: a 64 KiB page at 0, readable, writable and executable. -/
def placeEntry : TlbEntry := ⟨0, 16, 0, 0x31F, true⟩

/-- A machine with the 32-byte bundle whose bits are `w` stored at the VA 0 of die 0 and ready to issue: the die is live and
in a partition (R435, R446), translation is on, core 0 holds the page's translation and runs context slot 0, in privileged
state, at that address, and nothing else is due before it. -/
def State.placeBundle (s : State) (w : Nat) : State :=
  let s1 : State := { s with agenda := [], timers := s.timers.filter (fun t => decide (s.now < t.1)) }
  let up := (s1.setModCtl 0x1B2 (setBits (s1.modCtl 0x1B2) 0 0 1)).modDie 0 (fun x => { x with part := some (x.part.getD 0) })
  let s2 := up.setDieCtl 0 0x100 (setBits (up.dieCtl 0 0x100) 4 4 1)
  let keys := (List.range 32).map (fun i => s2.paKey 0 i)
  let s3 := s2.setMbytes keys (leBytes 32 w)
  let s4 : State := { s3 with poison := mapDel s3.poison (s2.paKey 0 0 / 32) }
  let s5 := s4.modCore 0 (fun x => { x with
    running := some 0, next := s.now, retention := false, tlb := placeEntry :: x.tlb, icache := mapDel x.icache 0,
    refreshQ := [] })
  s5.modCtx 0 (fun x => { x with
    phase := .ready, priv := true, pc := placeVa, wdc := 0, pend := [], traps := [], preempt := false, doneMask := 0 })

end Sys2Proof.Machine
end

