-- ==== Sys2Proof/Machine/Step.lean ====
section
/-! DEFINITION. One step of the machine: the event that comes next is performed. -/

namespace Sys2Proof.Machine

/-- One step: the next event, with its operands, is given its meaning. -/
def step (s : State) : Host.Outcome State Fault Refusal := exec s.pick.2 s.pick.1

/-- The state with an instruction's words stored where the next step fetches: `w` numbers the bits of a whole bundle from
bit 0 of its first byte, and the opcode table gives no row any bits, so `nbits` decides nothing (bits above it are those of
`w`, zero unless given). -/
def State.withFetchWord (s : State) (_nbits w : Nat) : State := s.placeBundle w

end Sys2Proof.Machine
end

