-- ==== Sys2Proof/Safety.lean ====
section
/-! DEFINITION. What counts as a safe run, and the conditions in which the claims speak of instructions. -/

namespace Sys2Proof

/-- A property that every step keeps, from every state that has it. -/
def Kept (P : Machine.State → Prop) : Prop := ∀ s s', P s → Machine.step s = .next s' → P s'

/-- An instruction answers a given next state. -/
def Runs (i : Instr) (s t : Machine.State) : Prop := Machine.exec i s = .next t

/-- The instructions that only compute or read: the arithmetic of class S with LIDX, FMTGET, TSTAMP and CYCLES, class V but
the tile moves, the special functions and the divides, and of class M the local loads, QSTAT, LT.STAT and RES.QRY (R39). -/
def Instr.registerOnly (i : Instr) : Bool :=
  match encode i with
  | some e =>
    let op := (fOp e.word).toNat
    match e.cls with
    | .s => decide (op ≤ 0x2F) || decide (op = 0x47) || decide (op = 0x61) || decide (op = 0x65) || decide (op = 0x66)
    | .v => decide (op < 0xA0)
    | .f => decide (op < 0x40)
    | .m => decide (op ≤ 0x07) || (decide (0x1B ≤ op) && decide (op ≤ 0x1D)) || decide (op = 0x25) || decide (op = 0x28) ||
        decide (op = 0x76) || decide (op = 0x93) || decide (op = 0xA2)
  | none => false

namespace Machine

/-- The vector sources of an operation have been popped and peeked: each queue among them had a slot to read, and `s1` is the
state after them (R170, R171). Sources that are registers pop nothing, and `s1` is `s`. -/
def Popped (s : State) (rs : List Reg) (s1 : State) : Prop :=
  s.popSlot s.iss.slot (queueNums rs) = (s1, .go, none)

/-- The vector sources of an operation have been served: popped and peeked, and no slot that they read held uncorrectable data
(R375, R380). -/
def Served (s : State) (rs : List Reg) (s1 : State) : Prop :=
  Popped s rs s1 ∧ (queueNums rs).all (fun q => decide (s.iss.slot * 8 + q ∉ s1.iss.spoilt)) = true

/-- The results made pending from number `n` on land the fault UNCORR in their place (R375, R380). -/
def State.landFaults (t : State) (n : Nat) : State :=
  t.modCtx t.iss.ctx (fun x => { x with pend := x.pend.map (fun w =>
    if n ≤ w.seq then { w with payload := .fault ⟨0x09, 0, t.iss.slot, none⟩ w.payload.cls, arrived := true } else w) })

/-- Whether a pattern is a finite FP32 value. -/
def finite32 (b : W32) : Bool := decide (b.toNat % 2 ^ 31 < 0x7F800000)

/-- The finite value of a magnitude code on the grid of a format, the exponent unbounded (R54, R69). -/
def gridValue (f : FloatFmt) (code : Nat) : Ex := ⟨false, (f.magOf code).1, 1, (f.magOf code).2⟩

/-- Whether a mode of Table 3-3 takes an inexact value `x` of magnitude `a`, between the values of the magnitudes `lo` and
`hi`, away from zero; `odd` says whether `lo` is odd. -/
def awayFromZero (mode : RMode) (x : Ex) (odd : Prop) (lo hi : Ex) : Prop :=
  let a : Ex := { x with neg := false }
  let mid : Ex := { lo.add hi with exp := (lo.add hi).exp - 1 }
  Ex.lt lo a = true ∧
    match mode with
    | .rne => Ex.lt mid a = true ∨ (Ex.lt a mid = false ∧ odd)
    | .rna => Ex.lt a mid = false
    | .rtz => False
    | .rdn => x.neg = true
    | .rup => x.neg = false

/-- A finite FP32 value as a multiple of 2^−149. -/
def exact32 (b : W32) : Int :=
  let (m, e) := fp32.magOf (b.toNat % 2 ^ 31)
  if 2 ^ 31 ≤ b.toNat then -((m * 2 ^ (e + 149).toNat : Nat) : Int) else ((m * 2 ^ (e + 149).toNat : Nat) : Int)

/-- The state once a vector result whose selected lanes accrue flags is pending (R179, R219). -/
def State.flagged (s : State) (d : Reg) (m : BitVec 3) (lat : Nat) (f : Nat → Elem × Nat) : State :=
  let r := (lanes.filter (s.sel m)).map (fun i => (i, f i))
  (s.pendRaw d.toNat lat (.lanes (r.map (fun p => (p.1, p.2.1)))) true).setStat s.iss.ctx
    (orFlags (r.map (fun p => p.2.2)))

/-- Every register of every context but those that wait in landing queues reads in `t` as in `s`, and so do the loop stack,
the PC, the queues and the mode. -/
def SameRegs (s t : State) : Prop :=
  ∀ c, (t.ctx c).g = (s.ctx c).g ∧ (t.ctx c).v = (s.ctx c).v ∧ (t.ctx c).k = (s.ctx c).k ∧ (t.ctx c).fmt = (s.ctx c).fmt ∧
    (t.ctx c).loops = (s.ctx c).loops ∧ (t.ctx c).pc = (s.ctx c).pc ∧ (t.ctx c).priv = (s.ctx c).priv

/-- Every control register of every unit reads in `t` as in `s`, but CTXSTAT. -/
def SameControls (s t : State) : Prop :=
  (∀ c n, n ≠ 0x080 → t.ctxCtl c n = s.ctxCtl c n) ∧ (∀ k n, t.coreCtl k n = s.coreCtl k n) ∧
    (∀ d n, t.dieCtl d n = s.dieCtl d n) ∧ (∀ n, t.modCtl n = s.modCtl n) ∧ (∀ p n, t.partCtl p n = s.partCtl p n)

/-- Every byte of local, device and host memory reads in `t` as in `s`, and every row group is as it was. -/
def SameMemory (s t : State) : Prop :=
  (∀ d a, t.lb d a = s.lb d a) ∧ (∀ key, t.mb key = s.mb key) ∧ (∀ d g, t.rg d g = s.rg d g)

/-- Every engine is as it was. -/
def SameEngines (s t : State) : Prop := ∀ k, (t.core k).engine = (s.core k).engine

end Machine

end Sys2Proof
end

