-- ==== Sys2Proof/Certificates/Slice0/Obligations.lean ====
section
/-! DEFINITION. The statements for the provers. Each docstring names the rules of the manual it formalises. -/

open Sys2Proof Sys2Proof.Machine

/-! Encoding. -/

/-- O1 (R29 to R42, R44). Decoding the word and literal of every well-formed slot operation, in every slot it may stand in,
gives it back with every operand. -/
def Obligations.DecodeOfEncode : Prop :=
  ∀ (i : Instr) (e : Enc) (slot : Nat), encode i = some e → i.wf = true → slotClass slot = e.cls → i.slotOk slot = true →
    decodeSlot slot e.word e.lit = .ok i

/-- O2 (R18, R25, R44). A bundle that holds one operation in a slot it may stand in, with its literal in the next slot,
decodes to that operation alone. -/
def Obligations.BundleOfOneOperation : Prop :=
  ∀ (i : Instr) (e : Enc) (slot : Nat), encode i = some e → i.wf = true → slot < 8 → slotClass slot = e.cls →
    i.slotOk slot = true → (e.lit.isSome → slot < 7) →
    decodeTableWord 256 (oneSlotBundle slot e).toNat = some i

/-- O3 (R28, R32). Words of the encodings of the manual, each written out, decode to the instructions they stand for: one or
more of each class S, V, F and M, and of each format RRR, RRI, RI, MEM, MV, AT, BR and LOOP. -/
def Obligations.DecodedWords : Prop :=
  decodeSlot 0 0x00510301#30 none = .ok (.add 3 4 5) ∧
  decodeSlot 1 0x3FF1C703#30 none = .ok (.addi 7 7 ⟨0x3FF, none⟩) ∧
  decodeSlot 0 0x18510320#30 none = .ok (.sel 3 4 5 6) ∧
  decodeSlot 0 0x00014321#30 none = .ok (.ldi 3 ⟨5, none⟩) ∧
  decodeSlot 0 0x04000563#30 none = .ok (.mfc 5 ⟨0x40, none⟩) ∧
  decodeSlot 0 0x00010048#30 none = .ok (.lbrk 4) ∧
  decodeSlot 0 0x3FF44540#30 none = .ok (.bCond 1 5 ⟨0xFFD, none⟩) ∧
  decodeSlot 0 0x00140945#30 none = .ok (.loop 9 5) ∧
  decodeSlot 0 0x000C0546#30 none = .ok (.loopi ⟨5, none⟩ 3) ∧
  decodeSlot 6 0x00208905#30 none = .ok (.lldW 9 2 ⟨2, none⟩) ∧
  decodeSlot 7 0x0020C40B#30 none = .ok (.lstD 4 3 ⟨2, none⟩) ∧
  decodeSlot 6 0x08610525#30 none = .ok (.vldg 5 4 6 2) ∧
  decodeSlot 2 0x28510304#30 none = .ok (.vfma 3 4 5 true 2) ∧
  decodeSlot 3 0x0851030B#30 none = .ok (.vcmpF 3 4 5 2) ∧
  decodeSlot 4 0x00008282#30 (some 0x00003F80#30) = .ok (.vmoviW 2 2 0x00003F80#30) ∧
  decodeSlot 5 0x00614042#30 none = .ok (.mma 0 5 6) ∧
  decodeSlot 6 0x1A614430#30 none = .ok (.aaddW 4 5 6 1 3) ∧
  decodeSlot 7 0x1C000050#30 none = .ok (.fence 2 3) ∧
  decodeSlot 6 0x100100B1#30 none = .ok (.privMtc ⟨0x100, none⟩ 4)

/-- O4 (R41). "Opcodes 0xB0 to 0xBF of class M are privileged. An assigned privileged opcode issued in user state raises a
privilege fault. No other class has privileged opcodes." In user state the opcode alone decides, whatever the other fields
hold; in privileged state the slot is decoded in full, and a malformed field is an illegal instruction. -/
def Obligations.PrivilegedOpcodes : Prop :=
  ∀ (x : BitVec 256) (i : Nat), isOp x i = true →
    let op := (fOp (bundleSlot x i)).toNat
    let privileged : Prop := slotClass i = .m ∧ 0xB0 ≤ op ∧ op ≤ 0xBF ∧ assigned .m op = true
    (slotFault x false i = some 0x03 ↔ privileged) ∧
    (¬ privileged → slotFault x false i = slotFault x true i) ∧
    (∀ j, slotInstr x i = .ok j → slotFault x true i = none) ∧
    (∀ e, slotInstr x i = .error e → slotFault x true i = some 0x02)

/-- O5 (R43). "A bundle raises an illegal-bundle fault when any of the following holds": a set bit among [15:9], the L bit of
slot 0, a literal that breaks R25, two control-flow operations (R23), or an operation in a V or F slot in an odd issue cycle
while the vector divisor is twice the control divisor; and it raises none otherwise. -/
def Obligations.IllegalBundle : Prop :=
  (∀ (x : BitVec 256) (priv odd : Bool),
    let op (i : Nat) : Nat := (fOp (bundleSlot x i)).toNat
    let held (i : Nat) : Prop := x.getLsbD (1 + i) = false ∧ bundleSlot x i ≠ 0
    (∃ n, decodeBundle x priv odd = .error (0x01, n)) ↔
      x.extractLsb' 9 7 ≠ 0 ∨ x.getLsbD 1 = true ∨
      (∃ i, 1 ≤ i ∧ i < 8 ∧ x.getLsbD (1 + i) = true ∧
        ¬ (held (i - 1) ∧ assigned (slotClass (i - 1)) (op (i - 1)) = true ∧
          takesLiteral (slotClass (i - 1)) (op (i - 1)) = true)) ∨
      (held 0 ∧ held 1 ∧ 0x40 ≤ op 0 ∧ op 0 ≤ 0x48 ∧ 0x40 ≤ op 1 ∧ op 1 ≤ 0x48) ∨
      (odd = true ∧ ∃ i, 2 ≤ i ∧ i ≤ 5 ∧ held i)) ∧
  ∀ (s : State) (k c : Nat), s.oddHalf k c = true ↔
    (s.core k).vdiv = 2 * (s.core k).cdiv ∧ (s.ctx c).cycles % 2 = 1

/-! The step. -/

/-- O6 (R18, R21, R44, R290, R378, R379). Where the next event is an issue of core k, whose die runs (R435, R446) and whose running
context's bundle decodes to one well-formed operation i in slot n that nothing holds or stops, no LT.TOUCH of the core and no
invalidation of the context waits, no FUT.RD before it is to stop the context, no row group it accesses is under refresh (R149,
R156), and no replay of a step runs there, the step is exec of i at that slot, closed as the bundle's issue (its pending writes in
slot order, the next PC, the counts); an operation of phase 4 is performed by that closing, once the bundle has issued. -/
def Obligations.StepRunsDecodedInstruction : Prop :=
  ∀ (s p s1 sp s2 : State) (k r n : Nat) (i : Instr) (o : SlotOp) (x : BitVec 256),
    s.pick = (p, .issueBundle) → p.ev = .n k 0 0 → (p.core k).running = some r → (p.ctx (k * 4 + r)).phase = .ready →
    (p.core k).retention = false → (p.core k).next ≤ p.now → p.dieRuns (k / 64) = true →
    (p.modCore k (fun z => { z with next := p.now })).touchWait k = none →
    (p.modCore k (fun z => { z with next := p.now })).stallWait (k * 4 + r) = none →
    ((p.modCore k (fun z => { z with next := p.now })).stallOver k).gates k (k * 4 + r) = .go s1 (x, [⟨n, i, o⟩]) →
    (s1.ctx (k * 4 + r)).futStop = none →
    slotOp i = some o → o.before (s1.atSlot n) = none → o.waits (s1.atSlot n) = false →
    Popped (s1.atSlot n) o.pops sp → (s1.atSlot n).iss.slot = n → o.check sp = (s2, none) → s2.iss.slot = n →
    s1.refreshWait (k * 4 + r) [⟨n, i, o⟩] = none →
    s1.replayOf (k * 4 + r) = none → sp.replayOf (k * 4 + r) = none → s2.replayOf (k * 4 + r) = none →
    exec i (s1.atSlot n) = .next (o.act s2) ∧
    (o.phase ≤ 3 → step s = .next ((o.act s2).closeBundle s1 k (k * 4 + r) x [⟨n, i, o⟩])) ∧
    (o.phase = 4 → step s = .next (s2.closeBundle s1 k (k * 4 + r) x [⟨n, i, o⟩]))

/-- O7. Every instruction and every event answers a next state in every state, and so does every step: none ends in a fault or
a refusal. That an event which is not enabled changes nothing, and that there is always a next event, is the model's choice (log
entry 4): no rule of the manual says it. -/
def Obligations.AnswersAlways : Prop :=
  (∀ (i : Instr) (s : State), ∃ t, exec i s = .next t) ∧ ∀ s : State, ∃ t, step s = .next t

/-- O8 (R375, R378, R380). Every slot operation that has its bundle wait for nothing, whose vector sources are popped and whose
checks at issue pass, answers the state its effect makes; one whose check fails stops its context with that fault, before the
bundle. Where a source it popped or peeked held uncorrectable data, each of its results lands the fault UNCORR instead; that one
which has no result lands it in the next cycle is the model's choice (log entry 92). -/
def Obligations.SlotOperationsCompleteOrStop : Prop :=
  ∀ (i : Instr) (o : SlotOp) (s s1 s2 : State), slotOp i = some o → o.before s = none → o.waits s = false → Popped s o.pops s1 →
    (o.check s1 = (s2, none) → exec i s = .next (o.act s2) ∧
      ((∀ q ∈ queueNums o.pops, s2.iss.slot * 8 + q ∉ s2.iss.spoilt) → o.act s2 = o.effect s2) ∧
      (∀ q ∈ queueNums o.pops, s2.iss.slot * 8 + q ∈ s2.iss.spoilt → (o.effect s2).iss.slot = s2.iss.slot →
        ((∃ w ∈ (o.effect s2).cx.pend, s2.seq ≤ w.seq) → o.act s2 = (o.effect s2).landFaults s2.seq) ∧
        ((∀ w ∈ (o.effect s2).cx.pend, w.seq < s2.seq) →
          o.act s2 = (o.effect s2).pendRaw 0 1 (.fault ⟨0x09, 0, s2.iss.slot, none⟩ (some 0)) true))) ∧
    ∀ st, o.check s1 = (s2, some st) → exec i s = .next (s2.stopSlot st)

/-! Scalar and integer instructions. -/

/-- O9 (R196, R198 to R202). The register forms: each writes g[d] at its latency, 1 or, for a multiplication, 3; a write to
g0 is discarded (`pendG`). -/
def Obligations.ScalarRegisterResults : Prop :=
  ∀ (s : State) (d a b : Reg) (c : BitVec 4),
    exec (.add d a b) s = .next (s.pendG d 1 (s.g a + s.g b)) ∧
    exec (.sub d a b) s = .next (s.pendG d 1 (s.g a - s.g b)) ∧
    exec (.and d a b) s = .next (s.pendG d 1 (s.g a &&& s.g b)) ∧
    exec (.or d a b) s = .next (s.pendG d 1 (s.g a ||| s.g b)) ∧
    exec (.xor d a b) s = .next (s.pendG d 1 (s.g a ^^^ s.g b)) ∧
    exec (.andn d a b) s = .next (s.pendG d 1 (s.g a &&& ~~~(s.g b))) ∧
    exec (.shl d a b) s = .next (s.pendG d 1 (if (s.g b).toNat < 64 then s.g a <<< (s.g b).toNat else 0)) ∧
    exec (.shr d a b) s = .next (s.pendG d 1 (if (s.g b).toNat < 64 then s.g a >>> (s.g b).toNat else 0)) ∧
    exec (.sar d a b) s = .next (s.pendG d 1 ((s.g a).sshiftRight (min (s.g b).toNat 63))) ∧
    exec (.mul d a b) s = .next (s.pendG d 3 (s.g a * s.g b)) ∧
    exec (.mulh d a b) s = .next (s.pendG d 3 (BitVec.ofInt 64 ((s.g a).toInt * (s.g b).toInt / 2 ^ 64))) ∧
    exec (.mulhu d a b) s = .next (s.pendG d 3 (BitVec.ofNat 64 ((s.g a).toNat * (s.g b).toNat / 2 ^ 64))) ∧
    exec (.min d a b) s = .next (s.pendG d 1 (if (s.g a).toInt < (s.g b).toInt then s.g a else s.g b)) ∧
    exec (.max d a b) s = .next (s.pendG d 1 (if (s.g a).toInt < (s.g b).toInt then s.g b else s.g a)) ∧
    exec (.minu d a b) s = .next (s.pendG d 1 (if (s.g a).toNat < (s.g b).toNat then s.g a else s.g b)) ∧
    exec (.maxu d a b) s = .next (s.pendG d 1 (if (s.g a).toNat < (s.g b).toNat then s.g b else s.g a)) ∧
    exec (.seq d a b) s = .next (s.pendG d 1 (if s.g a = s.g b then 1 else 0)) ∧
    exec (.sne d a b) s = .next (s.pendG d 1 (if s.g a = s.g b then 0 else 1)) ∧
    exec (.slt d a b) s = .next (s.pendG d 1 (if (s.g a).toInt < (s.g b).toInt then 1 else 0)) ∧
    exec (.sltu d a b) s = .next (s.pendG d 1 (if (s.g a).toNat < (s.g b).toNat then 1 else 0)) ∧
    exec (.sel d a b c) s = .next (s.pendG d 1 (if s.cx.rg c.toNat ≠ 0 then s.g a else s.g b))

/-- O10 (R193, R197, R198, R201, R203). The immediate forms; the immediate is sign-extended to 64 bits, with its literal or
without. -/
def Obligations.ScalarImmediateResults : Prop :=
  ∀ (s : State) (d a : Reg) (imm : Imm10) (v : Imm16),
    exec (.addi d a imm) s = .next (s.pendG d 1 (s.g a + BitVec.ofInt 64 imm.int)) ∧
    exec (.andi d a imm) s = .next (s.pendG d 1 (s.g a &&& BitVec.ofInt 64 imm.int)) ∧
    exec (.ori d a imm) s = .next (s.pendG d 1 (s.g a ||| BitVec.ofInt 64 imm.int)) ∧
    exec (.xori d a imm) s = .next (s.pendG d 1 (s.g a ^^^ BitVec.ofInt 64 imm.int)) ∧
    ((Instr.shli d a imm).wf = true → exec (.shli d a imm) s = .next (s.pendG d 1 (s.g a <<< imm.int.toNat))) ∧
    ((Instr.shri d a imm).wf = true → exec (.shri d a imm) s = .next (s.pendG d 1 (s.g a >>> imm.int.toNat))) ∧
    ((Instr.sari d a imm).wf = true → exec (.sari d a imm) s = .next (s.pendG d 1 ((s.g a).sshiftRight imm.int.toNat))) ∧
    exec (.seqi d a imm) s = .next (s.pendG d 1 (if s.g a = BitVec.ofInt 64 imm.int then 1 else 0)) ∧
    exec (.snei d a imm) s = .next (s.pendG d 1 (if s.g a = BitVec.ofInt 64 imm.int then 0 else 1)) ∧
    exec (.slti d a imm) s =
      .next (s.pendG d 1 (if (s.g a).toInt < (BitVec.ofInt 64 imm.int : W64).toInt then 1 else 0)) ∧
    exec (.sltui d a imm) s =
      .next (s.pendG d 1 (if (s.g a).toNat < (BitVec.ofInt 64 imm.int : W64).toNat then 1 else 0)) ∧
    exec (.ldi d v) s = .next (s.pendG d 1 (BitVec.ofInt 64 v.int)) ∧
    exec (.ldhi d v) s =
      .next (s.pendG d 1 (((BitVec.ofInt 64 v.int : W64).setWidth 32 ++ (s.g d).setWidth 32 : BitVec 64)))

/-- O11 (R204, R207, R208). Counts, reversal, insertion and the funnel shift, each by what the result's bits are: CLZ by the
highest one, CTZ by the lowest, BREV by place, BFI by the mask, FSHR and FSHRI by the pair. -/
def Obligations.ScalarBitResults : Prop :=
  ∀ (s : State) (d a b : Reg) (imm : Imm10),
    (∃ r : Nat, exec (.clz d a) s = .next (s.pendG d 1 (BitVec.ofNat 64 r)) ∧ r ≤ 64 ∧ (s.g a).toNat < 2 ^ (64 - r) ∧
      (r < 64 → 2 ^ (63 - r) ≤ (s.g a).toNat)) ∧
    (∃ r : Nat, exec (.ctz d a) s = .next (s.pendG d 1 (BitVec.ofNat 64 r)) ∧ r ≤ 64 ∧
      (∀ j, j < r → (s.g a).getLsbD j = false) ∧ (r < 64 → (s.g a).getLsbD r = true)) ∧
    exec (.popc d a) s = .next (s.pendG d 1 (BitVec.ofNat 64 ((List.range 64).countP (fun j => (s.g a).getLsbD j)))) ∧
    (∃ r : W64, exec (.brev d a) s = .next (s.pendG d 1 r) ∧ ∀ j, j < 64 → r.getLsbD j = (s.g a).getLsbD (63 - j)) ∧
    (∃ r : W64, exec (.bfi d a b) s = .next (s.pendG d 1 r) ∧
      ∀ j, j < 64 → r.getLsbD j =
        if bfPos (s.g b) ≤ j ∧ j < bfPos (s.g b) + bfLen (s.g b) then (s.g a).getLsbD (j - bfPos (s.g b))
        else (s.g d).getLsbD j) ∧
    ((Instr.fshr d a b).wf = true → ∃ r : W64, exec (.fshr d a b) s = .next (s.pendG d 1 r) ∧
      ∀ j, j < 64 → r.getLsbD j = (s.g (a + 1) ++ s.g a : BitVec 128).getLsbD ((s.g b).toNat % 128 + j)) ∧
    ((Instr.fshri d a imm).wf = true → ∃ r : W64, exec (.fshri d a imm) s = .next (s.pendG d 1 r) ∧
      ∀ j, j < 64 → r.getLsbD j = (s.g (a + 1) ++ s.g a : BitVec 128).getLsbD (imm.int.toNat + j))

/-- O12 (R206). BFX and BFX.U "extract a field. They are class S, format RRR, with flags zero." They land at 1; bit j of the
result below the field's length is bit POS + j of g[a] extended to 128 bits, by zeros for BFX.U and by its sign for BFX;
above it stand zeros, or copies of the field's top bit. LEN 0 gives 0. POS and LEN are the fields of g[b] that R205 gives. -/
def Obligations.FieldExtraction : Prop :=
  decodeSlot 0 0x00510327#30 none = .ok (.bfx 3 4 5) ∧ decodeSlot 1 0x00510328#30 none = .ok (.bfxU 3 4 5) ∧
  (∀ (w : BitVec 30) (slot : Nat), slot < 2 → fOp w = 0x27 ∨ fOp w = 0x28 → w.extractLsb' 26 4 ≠ 0 →
    decodeSlot slot w none = .error .unusedField) ∧
  ∀ (s : State) (d a b : Reg),
    let n := min (bits (s.g b) 14 8) 64
    let p := bits (s.g b) 5 0
    (n = 0 → exec (.bfx d a b) s = .next (s.pendG d 1 0) ∧ exec (.bfxU d a b) s = .next (s.pendG d 1 0)) ∧
    (0 < n → ∃ r u : W64, exec (.bfx d a b) s = .next (s.pendG d 1 r) ∧ exec (.bfxU d a b) s = .next (s.pendG d 1 u) ∧
      ∀ j, j < 64 →
        r.getLsbD j = ((s.g a).signExtend 128).getLsbD (p + min j (n - 1)) ∧
        u.getLsbD j = (decide (j < n) && ((s.g a).setWidth 128).getLsbD (p + j)))

/-- O13 (R209, R210). A divide lands at 20 and answers in every case of Table 10-13; a zero divisor sets CTXSTAT.DIVZ at
once, whatever d, and every other divisor sets no bit. -/
def Obligations.DivideResults : Prop :=
  ∀ (s : State) (d a b : Reg),
    let divz (t : State) : State := t.setStat s.iss.ctx (if s.g b = 0 then 0x20 else 0)
    exec (.idiv d a b) s = .next (divz (s.pendG d 20
      (if s.g b = 0 then -1 else if s.g a = 0x8000000000000000#64 ∧ s.g b = -1 then 0x8000000000000000#64
        else BitVec.ofInt 64 ((s.g a).toInt.tdiv (s.g b).toInt)))) ∧
    exec (.irem d a b) s = .next (divz (s.pendG d 20
      (if s.g b = 0 then s.g a else if s.g a = 0x8000000000000000#64 ∧ s.g b = -1 then 0
        else BitVec.ofInt 64 ((s.g a).toInt - (s.g b).toInt * (s.g a).toInt.tdiv (s.g b).toInt)))) ∧
    exec (.idivu d a b) s = .next (divz (s.pendG d 20
      (if s.g b = 0 then -1 else BitVec.ofNat 64 ((s.g a).toNat / (s.g b).toNat)))) ∧
    exec (.iremu d a b) s = .next (divz (s.pendG d 20
      (if s.g b = 0 then s.g a else BitVec.ofNat 64 ((s.g a).toNat % (s.g b).toNat))))

/-! Control flow and the context. -/

/-- O14 (R33, R45, R290 to R292). A transfer that is taken goes to its target and freezes the core for 2 cycles; a branch not
taken changes nothing. JMPR and RET take an aligned target below 2^56, and stop otherwise; that the level recorded for a target at or
above 2^56 is 0 is the model's choice (log entry 88). -/
def Obligations.Transfers : Prop :=
  ∀ (s : State) (cond : BitVec 4) (a d : Reg) (off : Imm12) (v : Imm16),
    let x := s.g a
    let p : Int := s.iss.pc
    let taken : Prop := match cond.toNat with
      | 0 => x = 0
      | 1 => x ≠ 0
      | 2 => x.toInt < 0
      | 3 => 0 ≤ x.toInt
      | 4 => 0 < x.toInt
      | 5 => x.toInt ≤ 0
      | _ => True
    (taken → exec (.bCond cond a off) s = .next (s.transfer (addr56 (p + 32 * off.int)))) ∧
    (¬ taken → exec (.bCond cond a off) s = .next s) ∧
    exec (.jmp v) s = .next (s.transfer (addr56 (32 * v.int))) ∧
    exec (.call d v) s =
      .next ((s.pendG d 1 (BitVec.ofNat 64 (addr56 (p + 32)))).transfer (addr56 (p + 32 * v.int))) ∧
    (x.toNat % 32 = 0 → x.toNat < 2 ^ 56 →
      exec (.jmpr a) s = .next (s.transfer x.toNat) ∧ exec (.ret a) s = .next (s.transfer x.toNat)) ∧
    (x.toNat % 32 ≠ 0 →
      exec (.jmpr a) s = .next (s.stopSlot (Stop.of 0x05)) ∧ exec (.ret a) s = .next (s.stopSlot (Stop.of 0x05))) ∧
    (x.toNat % 32 = 0 → 2 ^ 56 ≤ x.toNat →
      exec (.jmpr a) s = .next (s.stopSlot (Stop.transl .fetch x.toNat 2 0)) ∧
      exec (.ret a) s = .next (s.stopSlot (Stop.transl .fetch x.toNat 2 0)))

/-- O15 (R45, R290, R298, R300, R302, R331). Transfers, pre-emption points and suspensions. What a taken transfer leaves: the PC
at the target, the transfer noted for the bundle, two more frozen cycles of the core, and every other register, control register
and memory as it was. What a pre-emption point leaves: a progress count of 0, and every register, control register and memory as
it was. What a suspension leaves: the stop record of its kind, the core given up, the slot and the other registers kept, and for
WAIT its timer; where a lower slot of the bundle has stopped the context already, the suspension is put off until the context
would run again (log entry 32, DEDUCED), unless the task has ended. -/
def Obligations.TransfersPointsAndSuspensions : Prop :=
  ∀ (s : State) (x : Nat) (ph : CtxPhase),
    ((s.transfer x).ctx s.iss.ctx).pc = x ∧ (s.transfer x).iss.taken = true ∧
    ((s.transfer x).core s.ck).frozen = (s.core s.ck).frozen + 2 ∧
    s.transfer x = { s with
      ctxs := (s.transfer x).ctxs, cores := (s.transfer x).cores, iss := { s.iss with taken := true } } ∧
    (s.transfer x).cx = { s.cx with pc := x } ∧
    (∀ k, (s.transfer x).core k = { s.core k with frozen := (s.core k).frozen + if k = s.ck then 2 else 0 }) ∧
    (∀ c, c ≠ s.iss.ctx → (s.transfer x).ctx c = s.ctx c) ∧ SameMemory s (s.transfer x) ∧ SameControls s (s.transfer x) ∧
    s.atPoint = { s with ctxs := s.atPoint.ctxs, iss := { s.iss with point := true } } ∧
    s.atPoint.cx = { s.cx with wdc := 0 } ∧ (∀ c, c ≠ s.iss.ctx → s.atPoint.ctx c = s.ctx c) ∧
    SameMemory s s.atPoint ∧ SameControls s s.atPoint ∧
    (s.cx.phase = .ready →
      let c := s.iss.ctx
      ((s.park ph).ctx c).phase = ph ∧
      (s.park ph).ctxCtl c 0x081 = stopWord 0x42 0 s.iss.slot 0 false ∧
      (s.park ph).ctxCtl c 0x082 = BitVec.ofNat 64 s.iss.pc ∧
      (∀ n, n ≠ 0x081 → n ≠ 0x082 → (s.park ph).ctxCtl c n = s.ctxCtl c n) ∧
      (s.park ph).ctx c = { s.ctx c with phase := ph, ctl := ((s.park ph).ctx c).ctl } ∧
      (∀ c', c' ≠ c → (s.park ph).ctx c' = s.ctx c') ∧ SameMemory s (s.park ph) ∧
      ((s.park ph).core (coreOf c)).running ≠ some (c % 4) ∧
      (∀ r, (s.core (coreOf c)).running = some r → r ≠ c % 4 → ((s.park ph).core (coreOf c)).running = some r) ∧
      (∀ t, ph = .waitTime t → (6 * t, (⟨.waitTimerExpiry, .n c 0 0⟩ : Due)) ∈ (s.park ph).timers)) ∧
    (s.cx.phase ≠ .ready → s.cx.phase ≠ .done →
      s.park ph = s.modCtx s.iss.ctx (fun y => { y with later := y.later ++ [⟨s.iss.slot, s.iss.pc, .wait ph⟩] })) ∧
    (s.cx.phase = .done → s.park ph = s)

/-- O16 (R293, R297). A loop start with a positive count pushes an entry that begins at the next bundle, or, in the cases of
R297 (its last body bundle beyond that of the top entry among them), faults with the stack unchanged; with another count it
skips the body, which is a pre-emption point. How a body that crosses 2^56 compares is the model's choice (log entry 94). -/
def Obligations.LoopStarts : Prop :=
  ∀ (s : State) (a : Reg) (n : Imm10) (last : BitVec 12) (c : Int) (i : Instr),
    (i = .loop a last ∧ c = (s.g a).toInt) ∨ (i = .loopi n last ∧ c = n.int) →
    (c ≤ 0 → exec i s = .next ((s.transfer (addr56 ((s.iss.pc : Int) + 32 * (last.toNat + 1)))).atPoint)) ∧
    (0 < c → 6 ≤ s.cx.loops.length → exec i s = .next (s.stopSlot ⟨0x0F, 1, 0, none⟩)) ∧
    (0 < c → s.cx.loops.length < 6 → ∀ e t, s.cx.loops = e :: t → s.iss.pc = e.lastAddr →
      exec i s = .next (s.stopSlot ⟨0x0F, 2, 0, none⟩)) ∧
    (0 < c → s.cx.loops.length < 6 → ∀ e t, s.cx.loops = e :: t → s.iss.pc ≠ e.lastAddr →
      e.beyond (addr56 ((s.iss.pc : Int) + 32)) last.toNat = true → exec i s = .next (s.stopSlot ⟨0x0F, 3, 0, none⟩)) ∧
    (∀ e : LoopEntry, 1 ≤ last.toNat → e.start + 32 * (e.last - 1) < 2 ^ 56 → s.iss.pc + 32 < 2 ^ 56 →
      (e.beyond (addr56 ((s.iss.pc : Int) + 32)) last.toNat = true ↔ e.lastAddr < s.iss.pc + 32 * last.toNat)) ∧
    (0 < c → s.cx.loops.length < 6 →
      (∀ e t, s.cx.loops = e :: t →
        s.iss.pc ≠ e.lastAddr ∧ e.beyond (addr56 ((s.iss.pc : Int) + 32)) last.toNat = false) →
      exec i s = .next (s.modCtx s.iss.ctx (fun x => { x with
        loops := ⟨last.toNat, addr56 ((s.iss.pc : Int) + 32), c.toNat, 0⟩ :: x.loops })))

/-- O17 (R294). The end of a loop: at the last body bundle the top entry repeats from its start until its count is reached,
and is then popped, where the entry below may end at the same bundle; elsewhere the next bundle follows. -/
def Obligations.LoopEnds : Prop :=
  (∀ p, endLoops p [] = ([], addr56 ((p : Int) + 32))) ∧
  ∀ (p : Nat) (e : LoopEntry) (t : List LoopEntry),
    (p ≠ e.lastAddr → endLoops p (e :: t) = (e :: t, addr56 ((p : Int) + 32))) ∧
    (p = e.lastAddr → e.index + 1 < e.count →
      endLoops p (e :: t) = ({ e with index := e.index + 1 } :: t, e.start)) ∧
    (p = e.lastAddr → e.count ≤ e.index + 1 → endLoops p (e :: t) = endLoops p t)

/-- O18 (R295). LIDX reads a loop index: class S, format RRI, opcode 0x47, with a zero and a level of 0 to 5, which a literal
may extend; g[d] receives INDEX of the entry that many below the top, or all ones where there is none, and lands at 1. -/
def Obligations.LoopIndex : Prop :=
  decodeSlot 0 0x00000347#30 none = .ok (.lidx 3 ⟨0, none⟩) ∧ decodeSlot 1 0x00100347#30 none = .ok (.lidx 3 ⟨1, none⟩) ∧
  (∀ (w : BitVec 30) (lit : Option (BitVec 30)) (slot : Nat), slot < 2 → fOp w = 0x47 →
    let n : Int := Imm10.int ⟨w.extractLsb' 20 10, lit⟩
    (w.extractLsb' 14 6 ≠ 0 → decodeSlot slot w lit = .error .unusedField) ∧
    (w.extractLsb' 14 6 = 0 → n < 0 ∨ 5 < n → decodeSlot slot w lit = .error .operand)) ∧
  ∀ (s : State) (d : Reg) (imm : Imm10), 0 ≤ imm.int → imm.int ≤ 5 →
    let n := imm.int.toNat
    (n < s.cx.loops.length → ∃ e, s.cx.loops[n]? = some e ∧
      exec (.lidx d imm) s = .next (s.pendG d 1 (BitVec.ofNat 64 e.index))) ∧
    (s.cx.loops.length ≤ n → exec (.lidx d imm) s = .next (s.pendG d 1 (BitVec.ofNat 64 (2 ^ 64 - 1))))

/-- O19 (R16, R274, R305, R306, R426). "CYCLES gives the context's CYCLES at issue" and TSTAMP the timebase, one count per six
reference ticks (that it counts from 0 at power-on is the model's choice, log entry 10); both land at 1. FMTGET gives FMT as it
stands, and MFC every assigned control register as it stands at issue: the word its context, core, die, partition or the module
holds, but for the registers that show other state: DPSTAT, RFQSTAT and CUPSTAT, whose counts stand below their sticky bits, TSHAPE,
CERESUME and CEFLT, the live links and dies, BUCKET's level (held in microjoules, log entry 64), SEN and TEN of SAMPCTL, which read 0
where the right to them is closed, and the loop counters, which read 0 where the partition has no PROFILE right. An unassigned number
is an illegal operand. -/
def Obligations.ContextReads : Prop :=
  ∀ (s : State) (d : Reg) (n : Imm10),
    exec (.tstamp d) s = .next (s.pendG d 1 (BitVec.ofNat 64 (s.now / 6 % 2 ^ 64))) ∧
    exec (.cycles d) s = .next (s.pendG d 1 (BitVec.ofNat 64 s.iss.cycle)) ∧
    exec (.fmtget d) s = .next (s.pendG d 1 s.cx.fmt) ∧
    ((ctlScope n.raw).isSome = true → exec (.mfc d n) s = .next (s.pendG d 1 (s.ctlRead s.iss.ctx n.raw))) ∧
    ((ctlScope n.raw).isSome = false → exec (.mfc d n) s = .next (s.stopSlot (Stop.of 0x04))) ∧
    ∀ (c m : Nat),
      let k := coreOf c
      let e := dieOf c
      ((∀ r ∈ ([(0x040, 0x040), (0x059, 0x059), (0x070, 0x077), (0x160, 0x163), (0x191, 0x191), (0x1B0, 0x1B2),
          (0x1E0, 0x200), (0x210, 0x210), (0x300, 0x358)] : List (Nat × Nat)), ¬ (r.1 ≤ m ∧ m ≤ r.2)) →
        s.ctlRead c m = (match ctlScope m with
          | some .ctx => s.ctxCtl c m
          | some .core => s.coreCtl k m
          | some .die => s.dieCtl e m
          | some .part => s.partCtl (s.partOf e) m
          | some .module => s.modCtl m
          | none => 0)) ∧
      (bits (s.coreCtl k 0x040) 15 0 = 0 → (s.core k).tags.length ≤ 8 →
        bits (s.ctlRead c 0x040) 7 0 = 8 - (s.core k).tags.length ∧
        (∀ j, j < 8 → (bit (s.ctlRead c 0x040) (8 + j) = true ↔ ∃ q, (j, q) ∈ (s.core k).tags)) ∧
        ∀ j, 16 ≤ j → j < 64 → bit (s.ctlRead c 0x040) j = bit (s.coreCtl k 0x040) j) ∧
      (bits (s.coreCtl k 0x059) 15 0 = 0 → bits (s.ctlRead c 0x059) 7 0 = min (s.core k).refreshQ.length 8 ∧
        bits (s.ctlRead c 0x059) 15 8 = min ((s.core k).refreshQ.length - 8) 255 ∧
        ∀ j, 16 ≤ j → j < 64 → bit (s.ctlRead c 0x059) j = bit (s.coreCtl k 0x059) j) ∧
      (∀ i, i < 8 → s.ctlRead c (0x070 + i) = s.tshape c i) ∧
      (∀ i j, i < 4 → j < 8 → (bit (s.ctlRead c (0x160 + i)) j = true ↔ (s.suspendedAt (e * 4 + i) j).isSome = true)) ∧
      ((∀ j, j < 48 → bit (s.dieCtl e 0x191) j = false) →
        (∀ j, 48 ≤ j → j < 64 → bit (s.ctlRead c 0x191) j = bit (s.dieCtl e 0x191) j) ∧
        bits (s.ctlRead c 0x191) 7 0 = mapGet 0 (s.die e).tfree e % 256 ∧
        bits (s.ctlRead c 0x191) 19 8 = min (s.die e).lexicon.length 4095 ∧
        bits (s.ctlRead c 0x191) 47 32 = min ((s.die e).tasks.countP Task.waits) 65535) ∧
      (∀ l, l < 64 → bit (s.ctlRead c 0x1B0) l = s.logLinkLive e l ∧ bit (s.ctlRead c 0x1B1) l = s.logLinkLive e (64 + l) ∧
        bit (s.ctlRead c 0x1B2) l = s.logDieLive e l) ∧
      (∀ i j, i < 4 → j < 8 → s.suspendedAt (e * 4 + i) j = none → s.ctlRead c (0x1E0 + 8 * i + j) = 0) ∧
      (∀ i j p, i < 4 → j < 8 → s.suspendedAt (e * 4 + i) j = some p →
        bit (s.ctlRead c (0x1E0 + 8 * i + j)) 63 = true ∧ bit (s.ctlRead c (0x1E0 + 8 * i + j)) 62 = p.queue.isSome ∧
        bits (s.ctlRead c (0x1E0 + 8 * i + j)) 61 60 = p.tfa % 4 ∧ bits (s.ctlRead c (0x1E0 + 8 * i + j)) 59 56 = p.tfk % 16 ∧
        bits (s.ctlRead c (0x1E0 + 8 * i + j)) 55 0 = p.tfva % 2 ^ 56) ∧
      (bits (s.ctlRead c 0x200) 47 32 = (s.die e).level / 1000 % 2 ^ 16 ∧
        ∀ j, j < 32 → bit (s.ctlRead c 0x200) j = bit (s.dieCtl e 0x200) j) ∧
      (let w := s.ctlRead c 0x210
       bit w 63 = (bit (s.dieCtl e 0x210) 63 && s.dbgRight e 2) ∧ bit w 62 = (bit (s.dieCtl e 0x210) 62 && s.dbgRight e 3) ∧
        ∀ j, j < 62 → bit w j = bit (s.dieCtl e 0x210) j) ∧
      (∀ m, 0x300 ≤ m → m ≤ 0x358 → s.ctlRead c m =
        if s.dbgRight e 1 = true ∧ (ctlScope m).isSome = true then s.ctxCtl c m else 0)

/-- O20 (R2, R3, R41, R104, R139, R160, R161, R284, R306, R307, R433, R461). FMTSET changes FMT for operations four cycles on;
CLKDIV stores its request and pauses the core; MTC and PRIV.MTC write an assigned register under its lock. Each stops on an operand
it does not admit, and the privileged two stop in user state. What a write leaves in a register that has no behaviour of its own,
bit by bit: an RW field takes the bits written, a W1C field's bits are cleared where a 1 is written, an RWL field takes the bits
written by a writer to whom its lock is open and keeps them otherwise, and a bit of no field, read-only or reserved, stays. MTC of a
register whose every field is locked or read-only leaves it as it was. Then the registers with behaviour of their own, each as
privileged state writes it: LCLASS and the limits it lowers, LAYOUT, SSCARVE, MXSTAT, CERESUME, CPYCLK, RETCTL, SAMPCTL, HOSTWIN,
and the queue descriptors. -/
def Obligations.ContextWrites : Prop :=
  ∀ (s : State) (a b : Reg) (n : Imm10),
    (fmtOk (s.g a) = true → exec (.fmtset a) s = .next (s.pendRaw 0 4 (.fmt (s.g a)) true)) ∧
    (fmtOk (s.g a) = false → exec (.fmtset a) s = .next (s.stopSlot (Stop.of 0x04))) ∧
    (clkdivOk (s.g a) = true →
      exec (.clkdiv a) s =
        .next ((s.modCtx s.iss.ctx (fun x => { x with clkreq := (s.g a).toNat % 2 ^ 16 })).pauseCore s.ck)) ∧
    (clkdivOk (s.g a) = false → exec (.clkdiv a) s = .next (s.stopSlot (Stop.of 0x04))) ∧
    (mtcCheck n.raw a s = none → exec (.mtc n a) s = .next (s.ctlWrite .user s.iss.ctx n.raw (s.g a))) ∧
    (mtcCheck n.raw a s = none ↔ (ctlScope n.raw).isSome = true ∧ (n.raw = 0x088 → bits (s.g a) 31 0 % 64 = 0)) ∧
    (∀ st, mtcCheck n.raw a s = some st → st = Stop.of 0x04 ∧ exec (.mtc n a) s = .next (s.stopSlot st) ∧
      (s.cx.priv = true → exec (.privMtc n a) s = .next (s.stopSlot st))) ∧
    (s.cx.priv = true → mtcCheck n.raw a s = none →
      exec (.privMtc n a) s = .next (s.ctlWrite .priv s.iss.ctx n.raw (s.g a))) ∧
    (s.cx.priv = false → exec (.privMtc n a) s = .next (s.stopSlot (Stop.of 0x03))) ∧
    (s.cx.priv = true →
      let mode := bits (s.g b) 3 0
      let scope := bits (s.g b) 6 4
      let good : Prop := (mode = 1 ∨ mode = 0 ∧ bits (s.g a) 63 56 = 0) ∧ scope ∈ [1, 3, 4] ∧ bits (s.g b) 63 7 = 0
      ((opTlbinv a b).waits s = true → exec (.tlbinv a b) s = .next s) ∧
      ((opTlbinv a b).waits s = false → ¬ good → exec (.tlbinv a b) s = .next (s.stopSlot (Stop.of 0x04))) ∧
      ((opTlbinv a b).waits s = false → good → exec (.tlbinv a b) s =
        .next ((s.tlbInvalidate scope mode (s.g a).toNat).stallFor (s.scopeOpen scope)))) ∧
    (s.cx.priv = false → exec (.tlbinv a b) s = .next (s.stopSlot (Stop.of 0x03))) ∧
    (∀ (c m : Nat) (x : W64), (ctlScope m).isSome = true →
      (∀ f ∈ ctlFields m, ∃ l, f.acc = .rwl l ∧ l ≠ .user) → (s.ctlWrite .user c m x).ctlRead c m = s.ctlRead c m) ∧
    (∀ (w : Writer) (c m j : Nat) (x : W64), (ctlScope m).isSome = true → j < 64 →
      (∀ r ∈ ([(0x040, 0x040), (0x058, 0x063), (0x068, 0x068), (0x070, 0x078), (0x088, 0x0A0), (0x110, 0x17E), (0x181, 0x181),
          (0x191, 0x191), (0x1A0, 0x1B2), (0x1C0, 0x1CF), (0x1D5, 0x1D8), (0x1E0, 0x200), (0x203, 0x227),
          (0x300, 0x358)] : List (Nat × Nat)), ¬ (r.1 ≤ m ∧ m ≤ r.2)) →
      let old := bit (s.ctlRead c m) j
      let new := bit ((s.ctlWrite w c m x).ctlRead c m) j
      (∀ f ∈ ctlFields m, f.lo ≤ j → j ≤ f.hi →
        (f.acc = .rw → new = bit x j) ∧ (f.acc = .w1c → new = (old && !bit x j)) ∧
        ∀ l, f.acc = .rwl l → new = if lockOpen l w = true then bit x j else old) ∧
      ((∀ f ∈ ctlFields m, ¬ (f.lo ≤ j ∧ j ≤ f.hi)) → new = old)) ∧
    (∀ l w, lockOpen l w = true ↔ l = .user ∨ l = w) ∧
    (∀ (c : Nat) (x : W64), Memory.wf s = true →
      let d := dieOf c
      let k := coreOf c
      let put (m : Nat) : State := s.ctlWrite .priv c m x
      (∀ j, j < 8 →
        let n := 0x170 + j
        let t := put n
        bits (t.dieCtl d n) 9 0 = bits x 9 0 ∧
        bits (t.dieCtl d n) 13 12 = (if bits x 13 12 ≤ 2 then bits x 13 12 else bits (s.dieCtl d n) 13 12) ∧
        ∀ g, g < 2 ^ 23 →
          let y := s.rg d g
          let met : Prop := t.elim d j < s.elim d j ∧ y.valid = true ∧ y.cls = j ∧ t.elim d j ≤ y.age ∧ s.limitAsked d g = false
          (¬ met → t.rg d g = y) ∧ (met → t.policy d j = 0 → t.rg d g = { y with rfq := true }) ∧
          (met → t.policy d j ≠ 0 → (t.rg d g).valid = false)) ∧
      (∀ j, j < 4 →
        let n := 0x060 + j
        let t := put n
        let moved (g : Nat) : Prop := rgCore g = some (k % 64) ∧ s.bankOf k (g % 8192 * 32) ≠ t.bankOf k (g % 8192 * 32)
        bit (t.coreCtl k n) 63 = bit x 63 ∧ bits (t.coreCtl k n) 45 32 = bits x 45 32 ∧ bits (t.coreCtl k n) 12 0 = bits x 12 0 ∧
        (∀ g, g < 2 ^ 23 → (moved g → (t.rg d g).valid = false) ∧ (¬ moved g → t.rg d g = s.rg d g)) ∧
        ∀ e, e ∈ (t.die d).lexicon ↔ e ∈ (s.die d).lexicon ∧ ∀ g ∈ rgsOf e.laddr e.bytes, ¬ moved g) ∧
      (let t := put 0x181
       bits (t.dieCtl d 0x181) 6 0 = (if bits x 6 0 ≤ 112 then bits x 6 0 else bits (s.dieCtl d 0x181) 6 0) ∧
        (t.carved d = s.carved d → (t.die d).slice = (s.die d).slice ∧ ∀ g, g < 2 ^ 23 → t.rg d g = s.rg d g) ∧
        (t.carved d ≠ s.carved d →
          (∀ g, g < 2 ^ 23 → (rgCore g = none → (t.rg d g).valid = false) ∧ (rgCore g ≠ none → t.rg d g = s.rg d g)) ∧
          (∀ e ∈ (t.die d).slice, e ∈ (s.die d).slice ∧ e.2.dirty = false) ∧ (t.die d).slice.length ≤ t.sliceRoom d)) ∧
      (let t := put 0x078
       let ends : Bool := bit (s.ctxCtl c 0x078) 63 && bit x 63
       bit (t.ctxCtl c 0x078) 63 = (bit (s.ctxCtl c 0x078) 63 && !bit x 63) ∧ (t.eng k).tiles = (s.eng k).tiles ∧
        (t.eng k).ops = if ends = true ∧ s.owns c = true then (s.eng k).ops.map (fun o => { o with held := false })
          else (s.eng k).ops) ∧
      (∀ i, i < 4 → put (0x160 + i) =
        (List.range 8).foldl (fun u j => if bit x j then u.resumeSlot (d * 4 + i) j else u) s) ∧
      (∀ en i, (s.suspendedAt en i = none → s.resumeSlot en i = s) ∧ ∀ p, s.suspendedAt en i = some p →
        ∃ q ∈ ((s.resumeSlot en i).cengine en).packets, q.ref = p.ref ∧ q.phase = .running ∧ q.units = List.range q.prog ∧
          q.tfk = 0 ∧ q.words = p.words) ∧
      (let t := put 0x204
       bits (t.dieCtl d 0x204) 3 0 = if 4 ≤ bits x 3 0 ∧ bits x 3 0 ≤ 8 then bits x 3 0 else bits (s.dieCtl d 0x204) 3 0) ∧
      (let t := put 0x203
       bit (t.dieCtl d 0x203) 63 = bit x 63 ∧ bits (t.dieCtl d 0x203) 15 0 = bits x 15 0 ∧
        bit (t.dieCtl d 0x203) 62 = (bit (s.dieCtl d 0x203) 62 && !bit x 62) ∧
        (bit (s.dieCtl d 0x203) 63 = false → bit x 63 = true → ∀ i, i < 64 → (s.core (d * 64 + i)).running = none →
          (s.core (d * 64 + i)).retention = false → (t.core (d * 64 + i)).idleSince = s.now)) ∧
      (let t := put 0x210
       let old := s.dieCtl d 0x210
       let new := t.dieCtl d 0x210
       bits new 55 12 = bits x 55 12 ∧
        bits new 11 6 = (if 8 ≤ bits x 11 6 ∧ bits x 11 6 ≤ 30 then bits x 11 6 else bits old 11 6) ∧
        bits new 5 0 = (if 4 ≤ bits x 5 0 ∧ bits x 5 0 ≤ 28 then bits x 5 0 else bits old 5 0) ∧
        bit new 63 = (if s.dbgRight d 2 = true then bit x 63 else bit old 63) ∧
        bit new 62 = (if s.dbgRight d 3 = true then bit x 62 else bit old 62) ∧
        (new = old → t.timers = s.timers) ∧
        (new ≠ old → bit new 63 = true → (t.nextSample d, ⟨.sampleRecord, .n d 0 0⟩) ∈ t.timers)) ∧
      (∀ i, i < 8 →
        let n := 0x220 + i
        let t := put n
        (s.dieLocked d = true → t = s.tdispError d) ∧ (s.ctlWrite .user c n x = s ∧ s.ctlWrite .management c n x = s) ∧
        (s.dieLocked d = false → i % 2 = 0 → bits (t.dieCtl d n) 63 60 = bits x 63 60 ∧ bits (t.dieCtl d n) 55 30 = bits x 55 30 ∧
          bits (t.dieCtl d n) 5 0 = if 30 ≤ bits x 5 0 ∧ bits x 5 0 ≤ 47 then bits x 5 0 else bits (s.dieCtl d n) 5 0) ∧
        (s.dieLocked d = false → i % 2 = 1 → bits (t.dieCtl d n) 63 30 = bits x 63 30)) ∧
      ∀ n q, queueOf d n = some q →
        let t := put n
        let same : Prop := bit x 63 = bit (s.dieCtl d n) 63 ∧ bits x 55 6 = bits (s.dieCtl d n) 55 6
        bit (t.dieCtl d n) 63 = bit x 63 ∧ bits (t.dieCtl d n) 55 6 = bits x 55 6 ∧
        (n < 0x1A0 ∨ 0x1C0 ≤ n → bits (t.dieCtl d n) 62 60 = bits x 62 60) ∧
        (same → (t.die d).queues = (s.die d).queues ∧ t.parts = s.parts ∧ t.agenda = s.agenda) ∧
        (¬ same → (bit x 63 = true → ⟨.queueSlotTake, .queue q⟩ ∈ t.agenda) ∧
          (mapSorted (s.die d).queues = true → t.qstate q = none) ∧
          ∀ p, (s.die d).part = some p → (mapFind s.parts p).isSome = true → (q ∈ (t.part p).bound ↔ bit x 63 = true))) ∧
    ∀ (w : Writer) (c : Nat) (x : W64),
      let t (m : Nat) : W64 := (s.ctlWrite w c m x).ctlRead c m
      (bits (t 0x068) 1 0 = if bits x 1 0 ≤ 2 then bits x 1 0 else bits (s.ctxCtl c 0x068) 1 0) ∧
      (bits (t 0x090) 2 0 = if 1 ≤ bits x 2 0 ∧ bits x 2 0 ≤ 4 then bits x 2 0 else bits (s.ctxCtl c 0x090) 2 0) ∧
      (bits (t 0x090) 6 4 = bits x 6 4) ∧ (t 0x0A0 = s.ctxCtl c 0x0A0) ∧
      (t 0x058 = if bit x 63 = true ∧ bit (s.ctxCtl c 0x058) 63 = true then 0 else s.ctxCtl c 0x058) ∧
      (bits x 31 0 % 64 ≠ 0 → t 0x088 = s.ctxCtl c 0x088) ∧
      (bits x 31 0 % 64 = 0 → bits (t 0x088) 31 0 = bits x 31 0 ∧ bit (t 0x088) 63 = bit x 63 ∧
        bit (t 0x088) 61 = (bit (s.ctxCtl c 0x088) 61 && bit x 63)) ∧
      (∀ i, i < 7 → w = .management → bits (t (0x178 + i)) 7 0 = bits x 7 0 ∧
        bits (t (0x178 + i)) 25 16 = if 32 ≤ bits x 25 16 then bits x 25 16 else bits (s.dieCtl (dieOf c) (0x178 + i)) 25 16) ∧
      (w = .priv → bits (t 0x1D5) 62 59 = bits x 62 59 ∧ bit (t 0x1D5) 63 = (bit x 63 && bit (s.modCtl 0x232) 3))

/-- O21 (R298, R300 to R304, R378, R382, R396). YIELD, WAIT, DONE, TRAP, SYS and PHASE. YIELD reaches a pre-emption point; WAIT
suspends while TSTAMP is below its register; DONE ends the task, whose completion comes at the end of the bundle's cycles; TRAP
and SYS stop after their bundle with their operand as DETAIL; PHASE, with no write pending beyond this cycle, is a pre-emption
point that marks the task's inputs as read and, with PHCTL.EN, begins a phase: SNAP takes the sequencer record with the next PC, g1 to
g7 and FMT. Where a lower slot of the bundle has stopped the context,
DONE, TRAP and SYS are put off until it would run again (log entry 32, DEDUCED). -/
def Obligations.ContextEnds : Prop :=
  ∀ (s : State) (a : Reg) (v : Imm16),
    (s.cx.phase ≠ .ready → s.cx.phase ≠ .done →
      let put (k : AfterKind) : State :=
        s.modCtx s.iss.ctx (fun y => { y with later := y.later ++ [⟨s.iss.slot, s.iss.pc, k⟩] })
      exec .done s = .next (put .done) ∧ exec (.trap v) s = .next (put (.stop 0x30 v.raw)) ∧
      exec (.sys v) s = .next (put (.stop 0x31 v.raw))) ∧
    (s.cx.phase = .ready →
    exec .yield s = .next s.atPoint ∧
    ((s.g a).toNat ≤ s.tstamp → exec (.wait a) s = .next s.atPoint) ∧
    (s.tstamp < (s.g a).toNat → exec (.wait a) s = .next (s.atPoint.park (.waitTime (s.g a).toNat))) ∧
    exec .done s = .next ((s.modCtx s.iss.ctx (fun x => { x with phase := .done })).at_ (s.core s.ck).next .taskCompletion
      (.n s.iss.ctx 0 0)) ∧
    exec (.trap v) s = .next (s.takeStop s.iss.ctx ⟨0x30, v.raw, s.iss.slot, none⟩ s.iss.pc 0 false) ∧
    exec (.sys v) s = .next (s.takeStop s.iss.ctx ⟨0x31, v.raw, s.iss.slot, none⟩ s.iss.pc 0 false) ∧
    ((∀ w ∈ s.cx.pend, w.land ≤ s.iss.cycle) → ∃ t, exec .phase s = .next t ∧ (t.ctx s.iss.ctx).wdc = 0 ∧
      t.iss.point = true ∧ (t.ctx s.iss.ctx).g = s.cx.g ∧
      (∀ x ∈ (t.die (dieOf s.iss.ctx)).tasks, x.tid = s.cx.tid → x.readInputs = true) ∧
      (bit (s.ctxCtl s.iss.ctx 0x088) 63 = false → (t.ctx s.iss.ctx).snap = s.cx.snap) ∧
      (bit (s.ctxCtl s.iss.ctx 0x088) 63 = true → (t.ctx s.iss.ctx).snap =
          some ⟨s.cx.pc, s.cx.cycles, 0, s.cx.clkreq, s.cx.loops, (List.range 7).map (fun i => s.cx.rg (i + 1)), s.cx.fmt⟩ ∧
        bit (t.ctxCtl s.iss.ctx 0x088) 61 = true ∧ bits (t.ctxCtl s.iss.ctx 0x088) 60 59 = 0 ∧
        bit (t.ctxCtl s.iss.ctx 0x088) 62 = !bit (s.ctxCtl s.iss.ctx 0x088) 62)))

/-- O22 (R296, R297). LBRK, where its register is not zero or is g0, pops the top entry, goes to the bundle after its last,
and is a pre-emption point; on an empty stack it faults, and where its register is zero it does nothing. -/
def Obligations.LoopBreak : Prop :=
  ∀ (s : State) (a : Reg),
    (a ≠ 0 → s.g a = 0 → exec (.lbrk a) s = .next s) ∧
    ((a = 0 ∨ s.g a ≠ 0) → s.cx.loops = [] → exec (.lbrk a) s = .next (s.stopSlot ⟨0x0F, 4, 0, none⟩)) ∧
    ((a = 0 ∨ s.g a ≠ 0) → ∀ e t, s.cx.loops = e :: t →
      exec (.lbrk a) s =
        .next (((s.modCtx s.iss.ctx (fun x => { x with loops := t })).transfer (addr56 ((e.lastAddr : Int) + 32))).atPoint))

/-! Vector arithmetic. Each statement speaks of the state `s1` once the vector sources have been served: `s` itself where no
source names a queue. -/

/-- O23 (R215 to R219). The floating arithmetic forms: the exact result of the lanes' values, rounded once, to odd or, with
FIN, in FMT's mode; the flags of the selected lanes accrue, and the result lands at 4. The flags stand from issue on: R219 admits
any time from issue to landing, and issue is the model's choice (log entry 24). -/
def Obligations.VectorFloatResults : Prop :=
  ∀ (s s1 : State) (d a b : Reg) (fin : Bool) (m : BitVec 3),
    let mode := modeOf s1.fmtNow
    let rdn := fin && decide (mode = .rdn)
    let nan2 (i : Nat) := isNan (s1.v a i) || isNan (s1.v b i)
    let nan3 (i : Nat) := isNan (s1.v a i) || isNan (s1.v b i) || isNan (s1.v d i)
    let prod (i : Nat) := FVal.mul (fval (s1.v a i)) (fval (s1.v b i))
    (Served s [a, b] s1 →
      exec (.vaddF d a b fin m) s = .next (s1.flagged d m 4 (fun i =>
        finish fin mode (sumSigned rdn (fval (s1.v a i)) (fval (s1.v b i))) (nan2 i))) ∧
      exec (.vsubF d a b fin m) s = .next (s1.flagged d m 4 (fun i =>
        finish fin mode (sumSigned rdn (fval (s1.v a i)) (fval (s1.v b i)).negate) (nan2 i))) ∧
      exec (.vmulF d a b fin m) s = .next (s1.flagged d m 4 (fun i => finish fin mode (prod i) (nan2 i)))) ∧
    (Served s [a, b, d] s1 →
      exec (.vfma d a b fin m) s = .next (s1.flagged d m 4 (fun i =>
        finish fin mode (sumSigned rdn (prod i) (fval (s1.v d i))) (nan3 i))) ∧
      exec (.vfms d a b fin m) s = .next (s1.flagged d m 4 (fun i =>
        finish fin mode (sumSigned rdn (prod i) (fval (s1.v d i)).negate) (nan3 i))) ∧
      exec (.vfnma d a b fin m) s = .next (s1.flagged d m 4 (fun i =>
        finish fin mode (sumSigned rdn (prod i).negate (fval (s1.v d i))) (nan3 i)))) ∧
    ∀ (x : FVal) (srcNan : Bool),
      (finish fin mode x srcNan).1 = (if fin then ⟨BitVec.ofNat 32 (finFloat fp32 mode x), false⟩
        else ⟨BitVec.ofNat 32 (roundOdd fp32 x).1, (roundOdd fp32 x).2⟩) ∧
      (x = .nan → (finish fin mode x srcNan).2 = if srcNan then 0 else 1) ∧
      (∀ n, x = .inf n → (finish fin mode x srcNan).2 = 0) ∧
      ∀ y, x = .fin y → 0 < y.den →
        let a : Ex := { y with neg := false }
        let differs := FVal.eqv (fval (finish fin mode x srcNan).1) x = false
        (finish fin mode x srcNan).2 = (if Ex.lt (gridValue fp32 0x7F7FFFFF) a then 2 else 0) +
          (if Ex.lt a (gridValue fp32 0x800000) ∧ differs then 4 else 0) + (if differs then 8 else 0)

/-- O24 (R57, R68 to R70, R215). The sign of an exact zero, and the two roundings. A sum of two zeros of one sign keeps it, and
every other zero sum is +0, or −0 under .fin with RDN; a product of finite values has the XOR of their signs. Every finite exact
value lies at a value of the format's grid or between it and the next one away from zero: the rounding to odd gives an exact
value unchanged, of the two neighbours the one whose last bit is odd, with S, and the largest finite value, with S, beyond it; the
final rounding gives the neighbour that its mode names, ties included, and Table 3-8 beyond the largest finite value. RINT does
the same between two integers. Infinities keep their sign, or saturate in F8E4, and NaN gives the canonical NaN. -/
def Obligations.ZeroSignsAndRoundings : Prop :=
  (∀ (f : FloatFmt) (mode : RMode), f ∈ [fp32, fp16, bf16, f8e4, f8e5] →
    roundOdd f .nan = (f.nanc, false) ∧ finFloat f mode .nan = f.nanc ∧
    (∀ n, let top := if f = f8e4 then f.withSign n f.maxFin else f.withSign n (f.maxFin + 1)
      roundOdd f (.inf n) = (top, decide (f = f8e4)) ∧ finFloat f mode (.inf n) = top) ∧
    ∀ x : Ex, 0 < x.den →
      let a : Ex := { x with neg := false }
      let put (c : Nat) := f.withSign x.neg c
      ∃ c, Ex.lt a (gridValue f c) = false ∧ Ex.lt a (gridValue f (c + 1)) = true ∧
        roundOdd f (.fin x) =
          (if Ex.lt (gridValue f f.maxFin) a then (put f.maxFin, true)
          else if Ex.lt (gridValue f c) a then (put (if c % 2 = 1 then c else c + 1), true)
          else (put c, false)) ∧
        ∀ r, (awayFromZero mode x (c % 2 = 1) (gridValue f c) (gridValue f (c + 1)) → r = c + 1) →
          (¬ awayFromZero mode x (c % 2 = 1) (gridValue f c) (gridValue f (c + 1)) → r = c) →
          (r ≤ f.maxFin → finFloat f mode (.fin x) = put r) ∧
          (f.maxFin < r → finFloat f mode (.fin x) = put (
            if f = f8e4 ∨ mode = .rtz ∨ (mode = .rdn ∧ x.neg = false) ∨ (mode = .rup ∧ x.neg = true) then f.maxFin
            else f.maxFin + 1))) ∧
  (∀ (mode : RMode) (x : Ex), 0 < x.den →
    let int (m : Nat) : Ex := ⟨false, m, 1, 0⟩
    let a : Ex := { x with neg := false }
    ∃ m r : Nat, Ex.lt a (int m) = false ∧ Ex.lt a (int (m + 1)) = true ∧
      (awayFromZero mode x (m % 2 = 1) (int m) (int (m + 1)) → r = m + 1) ∧
      (¬ awayFromZero mode x (m % 2 = 1) (int m) (int (m + 1)) → r = m) ∧
      rint mode x = if x.neg then -(r : Int) else (r : Int)) ∧
  ∀ (rdn : Bool) (x y : Ex),
    (x.num = 0 → y.num = 0 → x.neg = y.neg → (sumSigned rdn (.fin x) (.fin y)).sign = x.neg) ∧
    (x.neg ≠ y.neg → (sumSigned rdn (.fin x) (.fin y)).isZero = true → (sumSigned rdn (.fin x) (.fin y)).sign = rdn) ∧
    (FVal.mul (.fin x) (.fin y)).sign = (x.neg != y.neg)

/-- O25 (R220, R226, R231). VMIN.F, VMAX.F, VABS, VNEG, VMOV and VCLRS. A minimum or maximum keeps S of the chosen operand, or the
OR of both where they are equal; one NaN gives the other operand, and two the canonical NaN. The order is that of the values, with
−0 below +0. VMOV copies lanes with their S, and
VCLRS clears it. Each lands at 2 and accrues nothing. -/
def Obligations.VectorSelectionResults : Prop :=
  ∀ (s s1 : State) (d a b : Reg) (m : BitVec 3),
    (Served s [a, b] s1 →
      exec (.vminF d a b m) s = .next (s1.pendV d 2 m (fun i => fpick true (s1.v a i) (s1.v b i))) ∧
      exec (.vmaxF d a b m) s = .next (s1.pendV d 2 m (fun i => fpick false (s1.v a i) (s1.v b i)))) ∧
    (Served s [a] s1 →
      exec (.vabs d a m) s = .next (s1.pendV d 2 m (fun i =>
        if isNan (s1.v a i) then ⟨0x7FC00000#32, false⟩ else ⟨(s1.v a i).val &&& 0x7FFFFFFF#32, (s1.v a i).s⟩)) ∧
      exec (.vneg d a m) s = .next (s1.pendV d 2 m (fun i =>
        if isNan (s1.v a i) then ⟨0x7FC00000#32, false⟩ else ⟨(s1.v a i).val ^^^ 0x80000000#32, (s1.v a i).s⟩)) ∧
      exec (.vmov d a m) s = .next (s1.pendV d 2 m (fun i => s1.v a i)) ∧
      exec (.vclrs d a m) s = .next (s1.pendV d 2 m (fun i => ⟨(s1.v a i).val, false⟩))) ∧
    ∀ (x y : Elem) (less : Bool),
      (isNan x = true → isNan y = true → fpick less x y = ⟨0x7FC00000#32, false⟩) ∧
      (isNan x = true → isNan y = false → fpick less x y = y) ∧
      (isNan x = false → isNan y = true → fpick less x y = x) ∧
      (isNan x = false → isNan y = false → x.val = y.val → fpick less x y = ⟨x.val, x.s || y.s⟩) ∧
      (isNan x = false → isNan y = false → frank x.val < frank y.val →
        fpick less x y = if less then x else y) ∧
      (isNan x = false → isNan y = false → frank y.val < frank x.val →
        fpick less x y = if less then y else x) ∧
      (isNan x = false → isNan y = false →
        (frank x.val < frank y.val ↔ FVal.lt (fval x) (fval y) = true ∨ (x.val = 0x80000000#32 ∧ y.val = 0#32)))

/-- O26 (R224, R246). The integer and logical lanes: 32-bit results with S = 0 that wrap, land at 2 and accrue nothing; only
VADDS.I clamps, with S = 1 and ISAT where it does (ISAT stands from issue on, the model's choice: log entry 24). VBFX takes the
field that Table 12-3's control lane names: bit j of the result is bit POS + j of the lane, extended by its sign or by zeros,
and above the field stand copies of its top bit, or zeros. -/
def Obligations.VectorIntegerResults : Prop :=
  ∀ (s s1 : State) (d a b : Reg) (m : BitVec 3), Served s [a, b] s1 →
    let x (i : Nat) : W32 := (s1.v a i).val
    let y (i : Nat) : W32 := (s1.v b i).val
    let sum (i : Nat) : Int := (x i).toInt + (y i).toInt
    exec (.vaddI d a b m) s = .next (s1.pendV d 2 m (fun i => ⟨x i + y i, false⟩)) ∧
    exec (.vsubI d a b m) s = .next (s1.pendV d 2 m (fun i => ⟨x i - y i, false⟩)) ∧
    exec (.vmulI d a b m) s = .next (s1.pendV d 2 m (fun i => ⟨x i * y i, false⟩)) ∧
    exec (.vmulhI d a b m) s =
      .next (s1.pendV d 2 m (fun i => ⟨BitVec.ofInt 32 ((x i).toInt * (y i).toInt / 2 ^ 32), false⟩)) ∧
    exec (.vminI d a b m) s =
      .next (s1.pendV d 2 m (fun i => ⟨if (x i).toInt < (y i).toInt then x i else y i, false⟩)) ∧
    exec (.vmaxI d a b m) s =
      .next (s1.pendV d 2 m (fun i => ⟨if (x i).toInt < (y i).toInt then y i else x i, false⟩)) ∧
    exec (.vaddsI d a b m) s = .next (s1.flagged d m 2 (fun i =>
      if 2 ^ 31 - 1 < sum i then (⟨0x7FFFFFFF#32, true⟩, 16)
      else if sum i < -(2 ^ 31) then (⟨0x80000000#32, true⟩, 16)
      else (⟨x i + y i, false⟩, 0))) ∧
    exec (.vand d a b m) s = .next (s1.pendV d 2 m (fun i => ⟨x i &&& y i, false⟩)) ∧
    exec (.vor d a b m) s = .next (s1.pendV d 2 m (fun i => ⟨x i ||| y i, false⟩)) ∧
    exec (.vxor d a b m) s = .next (s1.pendV d 2 m (fun i => ⟨x i ^^^ y i, false⟩)) ∧
    exec (.vandn d a b m) s = .next (s1.pendV d 2 m (fun i => ⟨x i &&& ~~~(y i), false⟩)) ∧
    exec (.vshl d a b m) s =
      .next (s1.pendV d 2 m (fun i => ⟨if (y i).toNat < 32 then x i <<< (y i).toNat else 0, false⟩)) ∧
    exec (.vshr d a b m) s =
      .next (s1.pendV d 2 m (fun i => ⟨if (y i).toNat < 32 then x i >>> (y i).toNat else 0, false⟩)) ∧
    exec (.vsar d a b m) s =
      .next (s1.pendV d 2 m (fun i => ⟨(x i).sshiftRight (min (y i).toNat 31), false⟩)) ∧
    exec (.vbfx d a b m) s = .next (s1.pendV d 2 m (fun i => ⟨vbfxLane (x i) (y i), false⟩)) ∧
    ∀ (u c : W32),
      let n := min (c.toNat / 2 ^ 8 % 2 ^ 6) 32
      let p := c.toNat % 32
      (n = 0 → vbfxLane u c = 0) ∧
      (0 < n → ∀ j, j < 32 → (vbfxLane u c).getLsbD j =
        if c.getLsbD 15 = true then (u.signExtend 64).getLsbD (p + min j (n - 1))
        else decide (j < n) && (u.setWidth 64).getLsbD (p + j))

/-- O27 (R178, R221 to R223, R249). The instructions that write a predicate: value and doubt of every lane, landing at 2; the
relations of Table 2-5, where a NaN is unordered, the two zeros are equal and LTU and GEU compare without sign; and the classes
of Table 11-5. -/
def Obligations.PredicateResults : Prop :=
  ∀ (s s1 : State) (d a b : Reg) (cond : BitVec 3) (imm : Imm10),
    (Served s [a, b] s1 →
      exec (.vcmpF d a b cond) s = .next (s1.pendK d 2 (fun i =>
        ⟨relF cond.toNat (fval (s1.v a i)) (fval (s1.v b i)), (s1.v a i).s || (s1.v b i).s⟩)) ∧
      exec (.vcmpI d a b cond) s = .next (s1.pendK d 2 (fun i =>
        ⟨relI cond.toNat (s1.v a i).val (s1.v b i).val, (s1.v a i).s || (s1.v b i).s⟩))) ∧
    (Served s [a] s1 →
      exec (.vclass d a imm) s = .next (s1.pendK d 2 (fun i =>
        ⟨imm.raw.testBit (fclass (s1.v a i).val) || (imm.raw.testBit 9 && (s1.v a i).s), (s1.v a i).s⟩)) ∧
      exec (.vstky d a) s = .next (s1.pendK d 2 (fun i => ⟨(s1.v a i).s, false⟩))) ∧
    exec (.kand d a b) s = .next (s.pendK d 2 (fun i =>
      ⟨(s.k a i).value && (s.k b i).value, (s.k a i).doubt || (s.k b i).doubt⟩)) ∧
    exec (.kor d a b) s = .next (s.pendK d 2 (fun i =>
      ⟨(s.k a i).value || (s.k b i).value, (s.k a i).doubt || (s.k b i).doubt⟩)) ∧
    exec (.knot d a) s = .next (s.pendK d 2 (fun i => ⟨!(s.k a i).value, (s.k a i).doubt⟩)) ∧
    (∀ (n : Nat) (x y : FVal), n < 8 →
      (x = .nan ∨ y = .nan → relF n x y = decide (n = 1 ∨ n = 6)) ∧
      (x ≠ .nan → y ≠ .nan → relF n x y = (match n with
        | 0 => !FVal.lt x y && !FVal.lt y x
        | 1 => FVal.lt x y || FVal.lt y x
        | 2 => FVal.lt x y
        | 3 => !FVal.lt y x
        | 4 => FVal.lt y x
        | 5 => !FVal.lt x y
        | 6 => false
        | _ => true))) ∧
    (∀ (u w : W32), finite32 u = true → finite32 w = true →
      FVal.lt (fp32.decode u.toNat) (fp32.decode w.toNat) = decide (exact32 u < exact32 w)) ∧
    (∀ (u : W32), finite32 u = true →
      FVal.lt (.inf true) (fp32.decode u.toNat) = true ∧ FVal.lt (fp32.decode u.toNat) (.inf true) = false ∧
      FVal.lt (.inf false) (fp32.decode u.toNat) = false ∧ FVal.lt (fp32.decode u.toNat) (.inf false) = true) ∧
    (FVal.lt (.inf true) (.inf false) = true ∧ FVal.lt (.inf false) (.inf true) = false ∧
      FVal.lt (.inf true) (.inf true) = false ∧ FVal.lt (.inf false) (.inf false) = false) ∧
    (∀ (x y : W32),
      (relI 0 x y = true ↔ x = y) ∧ (relI 1 x y = true ↔ x ≠ y) ∧ (relI 2 x y = true ↔ x.toInt < y.toInt) ∧
      (relI 3 x y = true ↔ x.toInt ≤ y.toInt) ∧ (relI 4 x y = true ↔ y.toInt < x.toInt) ∧
      (relI 5 x y = true ↔ y.toInt ≤ x.toInt) ∧ (relI 6 x y = true ↔ x.toNat < y.toNat) ∧
      (relI 7 x y = true ↔ y.toNat ≤ x.toNat)) ∧
    ∀ (u : W32),
      let c := u.toNat % 2 ^ 31
      let neg := 2 ^ 31 ≤ u.toNat
      (c = 0 → fclass u = if neg then 3 else 4) ∧
      (0 < c → c < 0x800000 → fclass u = if neg then 2 else 5) ∧
      (0x800000 ≤ c → c < 0x7F800000 → fclass u = if neg then 1 else 6) ∧
      (c = 0x7F800000 → fclass u = if neg then 0 else 7) ∧
      (0x7F800000 < c → fclass u = 8)

/-- O28 (R55, R228 to R230). The conversions and exits: each lane's result and flags, landing at 4, by Table 11-7 for VCVT, by the
rounding to odd of R68 for VRO and by the final rounding of R70 for VFIN; a narrower value widens exactly. The flags stand from
issue on (R219 admits any time up to landing: log entry 24). -/
def Obligations.ConversionResults : Prop :=
  ∀ (s s1 : State) (d a : Reg) (imm : Imm10), Served s [a] s1 →
    exec (.vcvt d a imm) s =
      .next (s1.flagged d 0 4 (fun i => vcvtLane (imm.raw % 8) (imm.raw / 16 % 4) (s1.v a i))) ∧
    (∀ f, numFmt imm.raw = .float f → exec (.vro d a imm) s = .next (s1.flagged d 0 4 (fun i => vroLane f (s1.v a i)))) ∧
    exec (.vfin d a imm) s = .next (s1.flagged d 0 4 (fun i =>
      vfinLane (imm.raw % 16) (modeField (imm.raw / 16 % 8) s1.fmtNow) (s1.v a i))) ∧
    ∀ (x : Elem) (sel : Nat),
      (∀ (op : Nat) (n : Int), (op = 0 ∧ n = x.val.toInt) ∨ (op = 1 ∧ n = x.val.toNat) →
        let e : FVal := .fin ⟨decide (n < 0), n.natAbs, 1, 0⟩
        vcvtLane op sel x = (⟨BitVec.ofNat 32 (roundOdd fp32 e).1, x.s || (roundOdd fp32 e).2⟩,
          accrueFloat fp32 e (roundOdd fp32 e).1)) ∧
      (∀ (op : Nat) (lo hi : Int), (op = 2 ∧ lo = -(2 ^ 31) ∧ hi = 2 ^ 31 - 1) ∨ (op = 3 ∧ lo = 0 ∧ hi = 2 ^ 32 - 1) →
        (fval x = .nan → vcvtLane op sel x = (⟨0, true⟩, fFNV)) ∧
        (∀ n, fval x = .inf n → vcvtLane op sel x = (⟨BitVec.ofInt 32 (if n then lo else hi), true⟩, fFNV)) ∧
        (finite32 x.val = true →
          let t : Int := (exact32 x.val).tdiv (2 ^ 149)
          let r : Int := max lo (min hi t)
          vcvtLane op sel x = (⟨BitVec.ofInt 32 r, x.s || decide (r * 2 ^ 149 ≠ exact32 x.val)⟩,
            if t < lo ∨ hi < t then fFNV else if r * 2 ^ 149 = exact32 x.val then 0 else fFNX))) ∧
      (∀ (op w : Nat) (f : FloatFmt),
        (op, w, f) ∈ ([(4, 16, fp16), (5, 16, bf16), (6, 8, f8e4), (7, 8, f8e5)] : List (Nat × Nat × FloatFmt)) →
        vcvtLane op sel x = (⟨widen f (x.val.toNat / 2 ^ (w * sel) % 2 ^ w), x.s⟩, 0)) ∧
      (∀ (f : FloatFmt) (b : Nat), f ∈ [fp16, bf16, f8e4, f8e5] → b < 2 ^ f.width →
        (f.decode b = .nan → widen f b = 0x7FC00000#32) ∧
        (∀ n, f.decode b = .inf n → widen f b = if n then 0xFF800000#32 else 0x7F800000#32) ∧
        ∀ y, f.decode b = .fin y → finite32 (widen f b) = true ∧
          exact32 (widen f b) = if y.neg then -((y.num * 2 ^ (y.exp + 149).toNat : Nat) : Int)
            else ((y.num * 2 ^ (y.exp + 149).toNat : Nat) : Int)) ∧
      (∀ f, vroLane f x = (⟨widen f (roundOdd f (fval x)).1, x.s || (roundOdd f (fval x)).2⟩,
        accrueFloat f (fval x) (roundOdd f (fval x)).1)) ∧
      (∀ (n : Nat) (mode : RMode) (f : FloatFmt), numFmt n = .float f →
        vfinLane n mode x = (⟨widen f (finFloat f mode (fval x)), false⟩, accrueFloat f (fval x) (finFloat f mode (fval x)))) ∧
      (∀ (n : Nat) (mode : RMode) (f : IntFmt), numFmt n = .int f →
        vfinLane n mode x = (⟨BitVec.ofInt 32 (finInt f mode (fval x)).1, false⟩,
          accrueInt (fval x) (finInt f mode (fval x)).1 (finInt f mode (fval x)).2)) ∧
      (∀ (mode : RMode), vfinLane 0 mode x =
        (⟨if fval x = .nan then 0x7FC00000#32 else x.val, false⟩, 0)) ∧
      (∀ (fmt : W64), modeField 7 fmt = modeOf fmt) ∧
      modeField 0 0 = .rne ∧ modeField 1 0 = .rtz ∧ modeField 2 0 = .rdn ∧ modeField 3 0 = .rup ∧ modeField 4 0 = .rna

/-- O29 (R225, R227, R235 to R241, R247, R248). Movement between and within lanes, and of single elements. -/
def Obligations.MovementResults : Prop :=
  ∀ (s s1 : State) (d a b : Reg) (k : BitVec 4) (m : BitVec 3) (imm : Imm10) (w : BitVec 16) (l : BitVec 30),
    (Served s [a, b] s1 →
      exec (.vsel d a b k) s =
        .next (s1.pendV d 2 0 (fun i => if (s1.cx.rk k.toNat i).value then s1.v a i else s1.v b i)) ∧
      exec (.vperm d a b m) s =
        .next (s1.pendV d 2 m (fun i => s1.v a (i / 16 * 16 + (s1.v b i).val.toNat % 16)))) ∧
    (Served s [a] s1 →
      exec (.vrot d a imm) s =
        .next (s1.pendV d 2 0 (fun i => s1.v a (i / 16 * 16 + (i % 16 + imm.int.toNat) % 16))) ∧
      exec (.xgMov d a imm) s = .next (s1.pendV d 6 0 (fun i =>
        s1.v a ((match imm.raw / 256 % 4 with
          | 0 => (i / 16 + imm.raw % 8) % 8
          | 1 => (i / 16 ^^^ imm.raw % 8) % 8
          | _ => imm.raw % 8) * 16 + i % 16))) ∧
      exec (.xgBcast d a imm) s = .next (s1.pendV d 6 0 (fun _ => s1.v a imm.int.toNat)) ∧
      exec (.vget d a imm) s = .next (s1.pendG d 6 (BitVec.ofNat 64
        ((s1.v a imm.int.toNat).val.toNat + (if (s1.v a imm.int.toNat).s then 2 ^ 32 else 0)))) ∧
      exec (.vpopc d a m) s = .next (s1.pendV d 2 m (fun i =>
        ⟨BitVec.ofNat 32 ((List.range 32).countP (fun j => (s1.v a i).val.getLsbD j)), false⟩)) ∧
      exec (.vclz d a m) s = .next (s1.pendV d 2 m (fun i =>
        ⟨BitVec.ofNat 32 (if (s1.v a i).val = 0 then 32 else 31 - (s1.v a i).val.toNat.log2), false⟩))) ∧
    (Served s [a, a + 1] s1 → exec (.vfshr d a imm) s = .next (s1.pendV d 2 0 (fun i =>
      ⟨BitVec.ofNat 32 (((s1.v (a + 1) i).val.toNat * 2 ^ 32 + (s1.v a i).val.toNat) / 2 ^ imm.int.toNat), false⟩))) ∧
    exec (.vbcast d a m) s = .next (s.pendV d 2 m (fun _ => ⟨(s.g a).setWidth 32, false⟩)) ∧
    exec (.vset d a imm) s =
      .next (s.pendRaw d.toNat 6 (.lanes [(imm.int.toNat, ⟨(s.g a).setWidth 32, bit (s.g a) 32⟩)]) true) ∧
    exec (.vmovi d w) s = .next (s.pendV d 2 0 (fun _ => ⟨w ++ 0#16, false⟩)) ∧
    exec (.vmoviW d w l) s = .next (s.pendV d 2 0 (fun _ => ⟨(l ++ w : BitVec 46).setWidth 32, false⟩))

/-- O30 (R242 to R245). Reductions, scans and the combination of lanes that share a key, by the operators of Table 12-2: the exact
sum rounded once, the extremes with the S of the lanes that hold them, and the integer and logical ones; what NaN lanes,
infinities, zero sums and no lanes at all give. The flags stand from issue on (R219 admits any time up to landing: log
entry 24). -/
def Obligations.ReductionResults : Prop :=
  ∀ (s s1 : State) (d a b : Reg) (k : BitVec 4) (imm : Imm10),
    let grouped : Bool := imm.raw.testBit 3
    (Served s [a] s1 →
      exec (.vred d a imm) s = .next (s1.flagged d 0 8 (fun i =>
        reduceLanes (imm.raw % 8)
          ((if grouped then (List.range 16).map (fun p => i / 16 * 16 + p) else List.range 128).map (s1.v a)))) ∧
      exec (.vscan d a imm) s = .next (s1.flagged d 0 8 (fun i =>
        let first := if grouped then i / 16 * 16 else 0
        reduceLanes (imm.raw % 8)
          ((List.range (if imm.raw.testBit 4 then i - first else i - first + 1)).map (fun p => s1.v a (first + p)))))) ∧
    (Served s [a, b] s1 →
      ∀ (i : Instr) (op : Nat), (i = .mredF d a b k ∧ op = 0) ∨ (i = .mredI d a b k ∧ op = 3) →
        let r (j : Nat) := mredLane op s1 a b j
        exec i s = .next (((s1.pendRaw d.toNat 12 (.lanes (lanes.map (fun j => (j, (r j).2.1)))) true).pendRaw k.toNat 12
          (.pred (lanes.map (fun j => (j, ⟨(r j).1, (r j).1 && (r j).2.1.s⟩)))) true).setStat s1.iss.ctx
            (orFlags (lanes.map (fun j => (r j).2.2))))) ∧
    ∀ (op j : Nat), j < 128 →
      ((s1.v a j).val = 0xFFFFFFFF#32 ∨ (∃ i, i < j ∧ (s1.v a i).val = (s1.v a j).val) →
        mredLane op s1 a b j = (false, s1.v b j, 0)) ∧
      ((s1.v a j).val ≠ 0xFFFFFFFF#32 → (∀ i, i < j → (s1.v a i).val ≠ (s1.v a j).val) →
        mredLane op s1 a b j =
          (true, reduceLanes op ((lanes.filter (fun i => (s1.v a i).val == (s1.v a j).val)).map (s1.v b)))) ∧
    ∀ (l : List Elem),
      let num := l.filter (fun e => !isNan e)
      let inf (n : Bool) : Prop := ∃ e ∈ l, fval e = .inf n
      (l = [] → ∀ (op : Nat) (v : W32), (op, v) ∈ ([(0, 0#32), (1, 0xFF800000#32), (2, 0x7F800000#32), (3, 0#32),
          (4, 0x80000000#32), (5, 0x7FFFFFFF#32), (6, 0xFFFFFFFF#32), (7, 0#32)] : List (Nat × W32)) →
        reduceLanes op l = (⟨v, false⟩, 0)) ∧
      (num ≠ l → reduceLanes 0 l = (⟨0x7FC00000#32, false⟩, 0)) ∧
      (num = l → inf true → inf false → reduceLanes 0 l = (⟨0x7FC00000#32, false⟩, fFNV)) ∧
      (num = l → inf true → ¬ inf false → reduceLanes 0 l = (⟨0xFF800000#32, false⟩, 0)) ∧
      (num = l → inf false → ¬ inf true → reduceLanes 0 l = (⟨0x7F800000#32, false⟩, 0)) ∧
      (l ≠ [] → (∀ e ∈ l, finite32 e.val = true) → ∃ y : Ex, reduceLanes 0 l = finish false .rne (.fin y) false ∧
        y.den = 1 ∧ -149 ≤ y.exp ∧
        (if y.neg then -1 else 1) * ((y.num * 2 ^ (y.exp + 149).toNat : Nat) : Int) = (l.map (fun e => exact32 e.val)).sum ∧
        (y.num = 0 → (y.neg = true ↔ ∀ e ∈ l, e.val = 0x80000000#32))) ∧
      (∀ (op : Nat), op = 1 ∨ op = 2 → l ≠ [] → (num = [] → reduceLanes op l = (⟨0x7FC00000#32, false⟩, 0)) ∧
        (num ≠ [] → ∃ e ∈ num, (reduceLanes op l).1.val = e.val ∧ (reduceLanes op l).2 = 0 ∧
          (∀ f ∈ num, if op = 1 then frank f.val ≤ frank e.val else frank e.val ≤ frank f.val) ∧
          ((reduceLanes op l).1.s = true ↔ ∃ f ∈ num, f.val = e.val ∧ f.s = true))) ∧
      reduceLanes 3 l = (⟨BitVec.ofNat 32 (l.map (fun e => e.val.toNat)).sum, false⟩, 0) ∧
      (∀ (op : Nat) (v : W32), (op = 4 ∧ v = 0x80000000#32) ∨ (op = 5 ∧ v = 0x7FFFFFFF#32) →
        ∃ r : W32, reduceLanes op l = (⟨r, false⟩, 0) ∧ (r = v ∨ ∃ e ∈ l, r = e.val) ∧
          ∀ e ∈ l, if op = 4 then e.val.toInt ≤ r.toInt else r.toInt ≤ e.val.toInt) ∧
      (∃ r : W32, reduceLanes 6 l = (⟨r, false⟩, 0) ∧ ∀ j, j < 32 → r.getLsbD j = l.all (fun e => e.val.getLsbD j)) ∧
      ∃ r : W32, reduceLanes 7 l = (⟨r, false⟩, 0) ∧ ∀ j, j < 32 → r.getLsbD j = l.any (fun e => e.val.getLsbD j)

/-- O31 (R170, R252, R375). Every special function completes in every state whose source is a vector register, or a queue with a
slot to pop: RCP and RSQ land at 8, the others at 12, with the flags of their selected lanes; where the slot popped held
uncorrectable data, the fault UNCORR lands in place of the result. What each lane gives is O32's. The flags stand from issue on
(R219 admits any time up to landing: log entry 24). -/
def Obligations.SpecialFunctionResults : Prop :=
  ∀ (s : State) (d a : Reg) (fin : Bool) (m : BitVec 3),
    (a.toNat < 56 ∨ s.popMeets (a.toNat - 56) = (.go, none)) →
    let s1 := if a.toNat < 56 then s else s.popOne s.iss.slot (a.toNat - 56)
    let q := s.cx.queue (a.toNat - 56)
    let bad : Prop := 56 ≤ a.toNat ∧
      (s.poisonedRange s.cd (q.pos q.head) 512 = true ∨ s.iss.slot * 8 + (a.toNat - 56) ∈ s.iss.spoilt)
    ∀ (i : Instr) (op lat : Nat),
      (i, op, lat) ∈ [(.rcp d a fin m, 1, 8), (.rsq d a fin m, 2, 8), (.sqrt d a fin m, 3, 12), (.exp2 d a fin m, 4, 12),
        (.log2 d a fin m, 5, 12), (.tanh d a fin m, 6, 12), (.sin d a fin m, 7, 12), (.cos d a fin m, 8, 12),
        (.sigm d a fin m, 9, 12)] →
      let t := s1.flagged d m lat (fun l => sfuLane op fin (modeOf s1.fmtNow) (s1.v a l).val)
      (¬ bad → exec i s = .next t) ∧ (bad → exec i s = .next (t.landFaults s1.seq))

/-- O32 (R252 to R254). What a lane of a special function gives. The special operands of Table 12-7, with the flag FNV (1) where
its row marks it, and the negative operands of RSQ, SQRT and LOG2; the further exact cases of that table; RCP and SQRT as the one
rounding of the exact value, with S and the flags of that rounding; of the others S = 1 and FNX outside the exact cases, and
their distance from the exact value, within Table 12-6. What the manual leaves open within those bounds is a free value, and the
exact value stands here as the model computes it, to 256 bits after the point, for SIN and COS with π to as many (log entry 12). -/
def Obligations.SpecialOperands : Prop :=
  ∀ (fin : Bool) (mode : RMode),
    let f (op : Nat) (b : W32) (r fl : Nat) : Prop := sfuLane op fin mode b = (⟨BitVec.ofNat 32 r, false⟩, fl)
    (∀ op, 1 ≤ op → op ≤ 9 → f op 0x7FC00000#32 0x7FC00000 0) ∧
    (f 1 0xFF800000#32 0x80000000 0 ∧ f 2 0xFF800000#32 0x7FC00000 1 ∧ f 3 0xFF800000#32 0x7FC00000 1 ∧
      f 4 0xFF800000#32 0 0 ∧ f 5 0xFF800000#32 0x7FC00000 1 ∧ f 6 0xFF800000#32 0xBF800000 0 ∧
      f 7 0xFF800000#32 0x7FC00000 1 ∧ f 8 0xFF800000#32 0x7FC00000 1 ∧ f 9 0xFF800000#32 0 0) ∧
    (f 1 0x80000000#32 0xFF800000 0 ∧ f 2 0x80000000#32 0xFF800000 0 ∧ f 3 0x80000000#32 0x80000000 0 ∧
      f 4 0x80000000#32 0x3F800000 0 ∧ f 5 0x80000000#32 0xFF800000 0 ∧ f 6 0x80000000#32 0x80000000 0 ∧
      f 7 0x80000000#32 0x80000000 0 ∧ f 8 0x80000000#32 0x3F800000 0 ∧ f 9 0x80000000#32 0x3F000000 0) ∧
    (f 1 0#32 0x7F800000 0 ∧ f 2 0#32 0x7F800000 0 ∧ f 3 0#32 0 0 ∧ f 4 0#32 0x3F800000 0 ∧ f 5 0#32 0xFF800000 0 ∧
      f 6 0#32 0 0 ∧ f 7 0#32 0 0 ∧ f 8 0#32 0x3F800000 0 ∧ f 9 0#32 0x3F000000 0) ∧
    (f 1 0x7F800000#32 0 0 ∧ f 2 0x7F800000#32 0 0 ∧ f 3 0x7F800000#32 0x7F800000 0 ∧ f 4 0x7F800000#32 0x7F800000 0 ∧
      f 5 0x7F800000#32 0x7F800000 0 ∧ f 6 0x7F800000#32 0x3F800000 0 ∧ f 7 0x7F800000#32 0x7FC00000 1 ∧
      f 8 0x7F800000#32 0x7FC00000 1 ∧ f 9 0x7F800000#32 0x3F800000 0) ∧
    (∀ (b : W32) (x : Ex), fp32.decode b.toNat = .fin x → x.num ≠ 0 → x.neg = true →
      f 2 b 0x7FC00000 1 ∧ f 3 b 0x7FC00000 1 ∧ f 5 b 0x7FC00000 1) ∧
    (∀ (b : W32) (x : Ex), fp32.decode b.toNat = .fin x → x.num ≠ 0 →
      let y : Ex := ⟨x.neg, x.den, x.num, -x.exp⟩
      let exact : Bool := !(roundOdd fp32 (.fin y)).2
      sfuLane 1 fin mode b =
        (if fin then ⟨BitVec.ofNat 32 (finFloat fp32 mode (.fin y)), false⟩
          else ⟨BitVec.ofNat 32 (roundOdd fp32 (.fin y)).1, !exact⟩,
         (if overMax fp32 y then fFOF else 0) + (if belowNormal fp32 y && !exact then fFUF else 0) +
          (if exact then 0 else fFNX))) ∧
    (∀ (b : W32), finite32 b = true → 0 < exact32 b → ∃ c : Nat, c < 0x7F800000 ∧
      let v (c : Nat) : Int := exact32 (BitVec.ofNat 32 c)
      v c * v c ≤ exact32 b * 2 ^ 149 ∧ exact32 b * 2 ^ 149 < v (c + 1) * v (c + 1) ∧
      (v c * v c = exact32 b * 2 ^ 149 → sfuLane 3 fin mode b = (⟨BitVec.ofNat 32 c, false⟩, 0)) ∧
      (v c * v c ≠ exact32 b * 2 ^ 149 → (sfuLane 3 fin mode b).2 = fFNX ∧
        (fin = false → (sfuLane 3 fin mode b).1 = ⟨BitVec.ofNat 32 (if c % 2 = 0 then c + 1 else c), true⟩) ∧
        (fin = true → (sfuLane 3 fin mode b).1.s = false ∧
          ((sfuLane 3 fin mode b).1.val = BitVec.ofNat 32 c ∨ (sfuLane 3 fin mode b).1.val = BitVec.ofNat 32 (c + 1))))) ∧
    (∀ (b : W32) (k : Int), finite32 b = true →
      (∀ n : Nat, exact32 b = 2 ^ n → (n : Int) = 2 * k + 149 →
        ∃ r, sfuLane 2 fin mode b = (⟨r, false⟩, 0) ∧ finite32 r = true ∧ exact32 r = 2 ^ (149 - k).toNat) ∧
      (exact32 b = k * 2 ^ 149 → -149 ≤ k → k ≤ 127 →
        ∃ r, sfuLane 4 fin mode b = (⟨r, false⟩, 0) ∧ finite32 r = true ∧ exact32 r = 2 ^ (149 + k).toNat) ∧
      (∀ n : Nat, exact32 b = 2 ^ n → (n : Int) = k + 149 →
        ∃ r, sfuLane 5 fin mode b = (⟨r, false⟩, 0) ∧ finite32 r = true ∧ exact32 r = k * 2 ^ 149)) ∧
    (∀ (b : W32), finite32 b = true → exact32 b < -149 * 2 ^ 149 → sfuLane 4 false mode b = (⟨1#32, true⟩, fFUF + fFNX)) ∧
    (∀ (b : W32), finite32 b = true → exact32 b ≤ -105 * 2 ^ 149 → sfuLane 9 false mode b = (⟨1#32, true⟩, fFUF + fFNX)) ∧
    (∀ (b : W32) (op : Nat), finite32 b = true → exact32 b ≠ 0 →
      (op = 2 ∧ 0 < exact32 b ∧ (∀ n : Nat, n % 2 = 1 → exact32 b ≠ 2 ^ n) ∨
        op = 4 ∧ (exact32 b % 2 ^ 149 ≠ 0 ∨ exact32 b < -149 * 2 ^ 149 ∨ 127 * 2 ^ 149 < exact32 b) ∨
        op = 5 ∧ 0 < exact32 b ∧ (∀ n : Nat, exact32 b ≠ 2 ^ n) ∨ 6 ≤ op ∧ op ≤ 9) →
      (sfuLane op fin mode b).1.s = !fin ∧ (sfuLane op fin mode b).2 / 8 % 2 = 1) ∧
    (∀ (b : W32) (x : Ex) (op k : Nat) (y : Ex), fp32.decode b.toNat = .fin x → x.num ≠ 0 →
      let r := (sfuLane op fin mode b).1.val
      (op = 2 ∧ k = 1 ∧ x.neg = false ∧ y = sqrtEx x.den x.num (-x.exp) ∨
        op = 4 ∧ k = 2 ∧ -149 * 2 ^ 149 ≤ exact32 b ∧ exact32 b < 128 * 2 ^ 149 ∧ exact32 b % 2 ^ 149 ≠ 0 ∧ y = exactY 4 x ∨
        op = 5 ∧ k = 2 ∧ (0 < exact32 b ∧ exact32 b < 2 ^ 148 ∨ 2 ^ 150 < exact32 b) ∧
          y = Ex.ofFx (decide (x.fxLog2 < 0)) x.fxLog2.natAbs ∨
        op = 6 ∧ k = 2 ∧ y = exactY 6 x ∨
        op = 9 ∧ k = 2 ∧ -100 * 2 ^ 149 ≤ exact32 b ∧ y = exactY 9 x) →
      finite32 r = true → withinUlp k y (r.toNat % 2 ^ 31) = true) ∧
    ∀ (b : W32) (x : Ex), fp32.decode b.toNat = .fin x → x.num ≠ 0 →
      let near (op : Nat) (y : Int) : Prop :=
        let e := exact32 (sfuLane op fin mode b).1.val * 2 ^ 107 - y
        e ≤ 2 ^ 234 ∧ -(2 ^ 234) ≤ e
      (2 ^ 148 ≤ exact32 b → exact32 b ≤ 2 ^ 150 → near 5 x.fxLog2) ∧
      (let t := fxTrig false (x.fx % (2 * fxPi))
       near 7 (if x.neg then -t else t)) ∧
      near 8 (fxTrig true (x.fx % (2 * fxPi)))

/-! Local memory. -/

/-- O33 (R92, R147, R162, R164). The local scalar loads: EA is g[base] plus the offset scaled by the size; a misaligned EA,
then one outside R92, stops the context; else the bytes, extended as the form says, land at 6, or the fault of expired or
uncorrectable data does. -/
def Obligations.LocalLoads : Prop :=
  ∀ (s : State) (d base : Reg) (off : Imm10) (i : Instr) (n : Nat) (sg : Bool),
    (i, n, sg) ∈ [(.lldB d base off, 1, true), (.lldBU d base off, 1, false), (.lldH d base off, 2, true),
      (.lldHU d base off, 2, false), (.lldW d base off, 4, true), (.lldWU d base off, 4, false),
      (.lldD d base off, 8, false)] →
    let ea : W64 := s.g base + BitVec.ofInt 64 (off.int * n)
    let a := ea.toNat
    let x := leNat (s.lbytes s.cd a n)
    let v : W64 := if sg then BitVec.ofInt 64 (if 2 * x < 2 ^ (8 * n) then (x : Int) else (x : Int) - 2 ^ (8 * n))
      else BitVec.ofNat 64 x
    (a % n ≠ 0 → exec i s = .next (s.stopSlot (Stop.of 0x05))) ∧
    (a % n = 0 → (2 ^ 32 ≤ a ∨ s.localOk s.cd a n = false) → exec i s = .next (s.stopSlot (Stop.localAddr .read ea))) ∧
    (a % n = 0 → a < 2 ^ 32 → s.localOk s.cd a n = true →
      (s.validRange s.cd a n = true → s.poisonedRange s.cd a n = false →
        exec i s = .next ((s.pendG d 6 v).touch [a])) ∧
      (s.validRange s.cd a n = false →
        exec i s = .next ((s.pendRaw d.toNat 6 (.fault (Stop.of 0x08) (some 0)) true).touch [a])) ∧
      (s.validRange s.cd a n = true → s.poisonedRange s.cd a n = true →
        exec i s = .next ((s.pendRaw d.toNat 6 (.fault (Stop.of 0x09) (some 0)) true).touch [a])))

/-- O34 (R136, R162 to R164). The local scalar stores: the low bytes of g[s] go to EA and above, every other byte of every
memory and every row group stays, no age falls and no row group becomes valid; no register or control register changes. -/
def Obligations.LocalStores : Prop :=
  ∀ (s : State) (src base : Reg) (off : Imm10) (i : Instr) (n : Nat),
    (i, n) ∈ [(.lstB src base off, 1), (.lstH src base off, 2), (.lstW src base off, 4), (.lstD src base off, 8)] →
    let ea : W64 := s.g base + BitVec.ofInt 64 (off.int * n)
    let a := ea.toNat
    (a % n ≠ 0 → exec i s = .next (s.stopSlot (Stop.of 0x05))) ∧
    (a % n = 0 → (2 ^ 32 ≤ a ∨ s.localOk s.cd a n = false) → exec i s = .next (s.stopSlot (Stop.localAddr .write ea))) ∧
    (a % n = 0 → a < 2 ^ 32 → s.localOk s.cd a n = true → Memory.wf s = true → ∃ t, exec i s = .next t ∧
      (∀ j, j < n → t.lb s.cd (a + j) = BitVec.ofNat 8 ((s.g src).toNat / 256 ^ j)) ∧
      (∀ e b, b < 2 ^ 32 → (e ≠ s.cd ∨ b < a ∨ a + n ≤ b) → t.lb e b = s.lb e b) ∧
      (∀ key, t.mb key = s.mb key) ∧ (∀ e g, t.rg e g = s.rg e g) ∧ SameRegs s t ∧ SameControls s t)

/-- O35 (R92, R147, R162, R165, R167, R168, R188). The local vector loads, by the 16-byte units, the words or the bytes
they touch: a misaligned EA or stride, then the first piece outside R92 or the first piece's scratchpad, stops the context;
else the lanes land at 6 with S = 0 (with VFIL, the S of the image), or the fault of expired, else of uncorrectable, data does. -/
def Obligations.VectorLocalLoads : Prop :=
  ∀ (s : State) (d base : Reg) (off : Imm10),
    let ea : W64 := s.g base + BitVec.ofInt 64 (off.int * 16)
    let word (t : State) (a : Nat) : W32 := BitVec.ofNat 32 (leNat (t.lbytes t.cd a 4))
    (∀ (i : Instr) (u : Nat → W64) (odd : Prop),
      (i = .vldRow d base off ∧ u = (fun j => ea + BitVec.ofNat 64 (16 * j)) ∧ odd = False) ∨
      (i = .vldCol d base off ∧ u = (fun j => ea + BitVec.ofNat 64 (512 * j)) ∧ odd = False) ∨
      (i = .vldStr d base off ∧ u = (fun j => ea + BitVec.ofNat 64 j * s.g (base + 1)) ∧
        odd = ((s.g (base + 1)).toNat % 16 ≠ 0)) →
      let us : List Nat := (List.range 32).map (fun j => (u j).toNat)
      let bad (j : Nat) : Prop := 2 ^ 32 ≤ (u j).toNat ∨ s.localOk s.cd (u j).toNat 16 = false ∨
        regionOf (u j).toNat ≠ regionOf (u 0).toNat
      (ea.toNat % 16 ≠ 0 ∨ odd → exec i s = .next (s.stopSlot (Stop.of 0x05))) ∧
      (ea.toNat % 16 = 0 → ¬ odd → ∀ j, j < 32 → bad j → (∀ j', j' < j → ¬ bad j') →
        exec i s = .next (s.stopSlot (Stop.localAddr .read (u j)))) ∧
      (ea.toNat % 16 = 0 → ¬ odd → (∀ j, j < 32 → ¬ bad j) →
        ((∃ j, j < 32 ∧ s.validRange s.cd (u j).toNat 16 = false) →
          exec i s = .next ((s.pendRaw d.toNat 6 (.fault (Stop.of 0x08) (some 1)) true).touch us)) ∧
        ((∀ j, j < 32 → s.validRange s.cd (u j).toNat 16 = true) →
          (∃ j, j < 32 ∧ s.poisonedRange s.cd (u j).toNat 16 = true) →
          exec i s = .next ((s.pendRaw d.toNat 6 (.fault (Stop.of 0x09) (some 1)) true).touch us)) ∧
        ((∀ j, j < 32 → s.validRange s.cd (u j).toNat 16 = true ∧ s.poisonedRange s.cd (u j).toNat 16 = false) →
          exec i s = .next ((s.pendV d 6 0 (fun l => ⟨word s ((u (l / 4)).toNat + 4 * (l % 4)), false⟩)).touch us)))) ∧
    (let us := (List.range 33).map (fun j => ea.toNat + 16 * j)
     (ea.toNat % 16 ≠ 0 → exec (.vfil d base off) s = .next (s.stopSlot (Stop.of 0x05))) ∧
     (ea.toNat % 16 = 0 → (2 ^ 32 ≤ ea.toNat ∨ s.localOk s.cd ea.toNat 528 = false) →
      exec (.vfil d base off) s = .next (s.stopSlot (Stop.localAddr .read ea))) ∧
     (ea.toNat % 16 = 0 → ea.toNat < 2 ^ 32 → s.localOk s.cd ea.toNat 528 = true →
      (s.validRange s.cd ea.toNat 528 = false →
        exec (.vfil d base off) s = .next ((s.pendRaw d.toNat 6 (.fault (Stop.of 0x08) (some 1)) true).touch us)) ∧
      (s.validRange s.cd ea.toNat 528 = true → s.poisonedRange s.cd ea.toNat 528 = true →
        exec (.vfil d base off) s = .next ((s.pendRaw d.toNat 6 (.fault (Stop.of 0x09) (some 1)) true).touch us)) ∧
      (s.validRange s.cd ea.toNat 528 = true → s.poisonedRange s.cd ea.toNat 528 = false →
        exec (.vfil d base off) s = .next ((s.pendV d 6 0 (fun l =>
          ⟨word s (ea.toNat + 4 * l), (leNat (s.lbytes s.cd (ea.toNat + 512 + 2 * (l / 16)) 2)).testBit (l % 16)⟩)).touch
            us)))) ∧
    ∀ (s1 : State) (idx : Reg) (m : BitVec 3), Served s [idx] s1 →
      let w (l : Nat) : W64 := s1.g base + BitVec.ofNat 64 (4 * (s1.v idx l).val.toNat)
      let on (l : Nat) : Prop := l < 128 ∧ s1.sel m l = true
      let as_ : List Nat := (lanes.filter (s1.sel m)).map (fun l => (w l).toNat)
      ((s1.g base).toNat % 16 ≠ 0 → exec (.vldg d base idx m) s = .next (s1.stopSlot (Stop.of 0x05))) ∧
      (let bad (l : Nat) : Prop := 2 ^ 32 ≤ (w l).toNat ∨ s1.localOk s1.cd (w l).toNat 4 = false ∨
        regionOf (w l).toNat ≠ regionOf (as_.headD 0)
       (s1.g base).toNat % 16 = 0 →
        (∀ l, on l → bad l → (∀ l', l' < l → on l' → ¬ bad l') →
          exec (.vldg d base idx m) s = .next (s1.stopSlot (Stop.localAddr .read (w l)))) ∧
        ((∀ l, on l → ¬ bad l) →
          ((∃ l, on l ∧ s1.validRange s1.cd (w l).toNat 4 = false) →
            exec (.vldg d base idx m) s = .next ((s1.pendRaw d.toNat 6 (.fault (Stop.of 0x08) (some 1)) true).touch as_)) ∧
          ((∀ l, on l → s1.validRange s1.cd (w l).toNat 4 = true) →
            (∃ l, on l ∧ s1.poisonedRange s1.cd (w l).toNat 4 = true) →
            exec (.vldg d base idx m) s = .next ((s1.pendRaw d.toNat 6 (.fault (Stop.of 0x09) (some 1)) true).touch as_)) ∧
          ((∀ l, on l → s1.validRange s1.cd (w l).toNat 4 = true ∧ s1.poisonedRange s1.cd (w l).toNat 4 = false) →
            exec (.vldg d base idx m) s = .next ((s1.pendV d 6 m (fun l => ⟨word s1 (w l).toNat, false⟩)).touch as_))))

/-- O36 (R135, R136, R162, R165 to R168, R188). The local vector stores, each as the pieces it writes in order: the byte a
piece covers last is that piece's, every other byte and memory stays, and no row group changes but the one that a VST.row at
a multiple of 512 writes full. A misaligned address or stride, then the first piece outside R92 or the first piece's scratchpad,
stops the context with nothing written. -/
def Obligations.VectorLocalStores : Prop :=
  (∀ (s s1 : State) (src base idx : Reg) (off : Imm10) (m : BitVec 3) (i : Instr) (pieces : List (Nat × List Byte))
    (full : Option Nat) (srcs : List Reg),
    Served s srcs s1 → Memory.wf s1 = true →
    let ea : W64 := s1.g base + BitVec.ofInt 64 (off.int * 16)
    let a := ea.toNat
    let word (l : Nat) : List Byte := leBytes 4 (s1.v src l).val.toNat
    let w (l : Nat) : Nat := (s1.g base + BitVec.ofNat 64 (4 * (s1.v idx l).val.toNat)).toNat
    let mask (g : Nat) : Nat := (List.range 16).foldl (fun n j => n + if (s1.v src (16 * g + j)).s then 2 ^ j else 0) 0
    let units (u : Nat → Nat) : List (Nat × List Byte) := lanes.map (fun l => (u (l / 4) + 4 * (l % 4), word l))
    let narrow (f : FloatFmt) (n : Nat) : List (Nat × List Byte) :=
      lanes.map (fun l => (a + n * l, leBytes n (finFloat f (modeOf s1.fmtNow) (fval (s1.v src l)))))
    (i = .vstRow src base off ∧ srcs = [src] ∧ pieces = units (fun j => a + 16 * j) ∧
        full = (if a % 512 = 0 then some (a / 512) else none)) ∨
      (i = .vstCol src base off ∧ srcs = [src] ∧ pieces = units (fun j => a + 512 * j) ∧ full = none) ∨
      (i = .vstStr src base off ∧ srcs = [src] ∧ (s1.g (base + 1)).toNat % 16 = 0 ∧
        pieces = units (fun j => (ea + BitVec.ofNat 64 j * s1.g (base + 1)).toNat) ∧ full = none) ∨
      (i = .vstBf16 src base off ∧ srcs = [src] ∧ pieces = narrow bf16 2 ∧ full = none) ∨
      (i = .vstF16 src base off ∧ srcs = [src] ∧ pieces = narrow fp16 2 ∧ full = none) ∨
      (i = .vstF8e4 src base off ∧ srcs = [src] ∧ pieces = narrow f8e4 1 ∧ full = none) ∨
      (i = .vstF8e5 src base off ∧ srcs = [src] ∧ pieces = narrow f8e5 1 ∧ full = none) ∨
      (i = .vsts src base idx m ∧ srcs = [src, idx] ∧ (s1.g base).toNat % 16 = 0 ∧ off.int = 0 ∧
        pieces = (lanes.filter (s1.sel m)).map (fun l => (w l, word l)) ∧ full = none) ∨
      (i = .vspl src base off ∧ srcs = [src] ∧
        pieces = lanes.map (fun l => (a + 4 * l, word l)) ++
          (List.range 8).map (fun g => (a + 512 + 2 * g, leBytes 2 (mask g))) ∧ full = none) →
    a % 16 = 0 → (a < 2 ^ 32 ∨ i = .vsts src base idx m) →
    (∀ p ∈ pieces, p.1 + p.2.length ≤ 2 ^ 32 ∧ s1.localOk s1.cd p.1 p.2.length = true ∧
      regionOf p.1 = regionOf ((pieces.headD (a, [])).1)) →
    ((i = .vstStr src base off ∨ i = .vstCol src base off) → ∀ p ∈ pieces, p.1 % 16 = 0 → s1.localOk s1.cd p.1 16 = true) →
    ∃ t, exec i s = .next t ∧
      (∀ b, b < 2 ^ 32 → t.lb s1.cd b =
        match pieces.reverse.find? (fun p => decide (p.1 ≤ b) && decide (b < p.1 + p.2.length)) with
        | some p => p.2.getD (b - p.1) 0
        | none => s1.lb s1.cd b) ∧
      (∀ e b, b < 2 ^ 32 → e ≠ s1.cd → t.lb e b = s1.lb e b) ∧ (∀ key, t.mb key = s1.mb key) ∧
      (∀ e g, g < 2 ^ 23 → t.rg e g = if e = s1.cd ∧ full = some g then
          { s1.rg e g with valid := true, age := 0, rfq := false, poison := false } else s1.rg e g) ∧
      SameRegs s1 t ∧ SameControls s1 t) ∧
  ∀ (s s1 : State) (src base idx : Reg) (off : Imm10) (m : BitVec 3) (srcs : List Reg), Popped s srcs s1 →
    let ea : W64 := s1.g base + BitVec.ofInt 64 (off.int * 16)
    let step : W64 := s1.g (base + 1)
    let odd : State := s1.stopSlot (Stop.of 0x05)
    let outside (x : W64) : State := s1.stopSlot (Stop.localAddr .write x)
    let bad (x first : W64) (n : Nat) : Prop :=
      2 ^ 32 ≤ x.toNat ∨ s1.localOk s1.cd x.toNat n = false ∨ regionOf x.toNat ≠ regionOf first.toNat
    (srcs = [src] → ∀ (i : Instr) (n : Nat), (i, n) ∈ [(.vstBf16 src base off, 256), (.vstF16 src base off, 256),
        (.vstF8e4 src base off, 128), (.vstF8e5 src base off, 128), (.vspl src base off, 528)] →
      (ea.toNat % 16 ≠ 0 → exec i s = .next odd) ∧
      (ea.toNat % 16 = 0 → (2 ^ 32 ≤ ea.toNat ∨ s1.localOk s1.cd ea.toNat n = false) → exec i s = .next (outside ea))) ∧
    (srcs = [src] → ∀ (i : Instr) (u : Nat → W64) (uneven : Prop),
      (i = .vstRow src base off ∧ u = (fun j => ea + BitVec.ofNat 64 (16 * j)) ∧ uneven = False) ∨
        (i = .vstCol src base off ∧ u = (fun j => ea + BitVec.ofNat 64 (512 * j)) ∧ uneven = False) ∨
        (i = .vstStr src base off ∧ u = (fun j => ea + BitVec.ofNat 64 j * step) ∧ uneven = (step.toNat % 16 ≠ 0)) →
      (ea.toNat % 16 ≠ 0 ∨ uneven → exec i s = .next odd) ∧
      (ea.toNat % 16 = 0 → ¬ uneven → ∀ j, j < 32 → bad (u j) (u 0) 16 → (∀ j', j' < j → ¬ bad (u j') (u 0) 16) →
        exec i s = .next (outside (u j)))) ∧
    (srcs = [src, idx] →
      let w (l : Nat) : W64 := s1.g base + BitVec.ofNat 64 (4 * (s1.v idx l).val.toNat)
      let on (l : Nat) : Prop := l < 128 ∧ s1.sel m l = true
      ((s1.g base).toNat % 16 ≠ 0 → exec (.vsts src base idx m) s = .next odd) ∧
      ((s1.g base).toNat % 16 = 0 → ∀ l first, on l → on first → (∀ l', l' < first → ¬ on l') → bad (w l) (w first) 4 →
        (∀ l', l' < l → on l' → ¬ bad (w l') (w first) 4) → exec (.vsts src base idx m) s = .next (outside (w l))))

/-! Device memory. In these statements `s1` is the state once the pages of the access have been walked for its checks, in
which the access meets the same translation again. -/

/-- O37 (R75, R77, R80, R100, R101, R162, R164, R165, R341, R342, R347). The global loads. A misaligned EA, then a page that fails,
stops the context. Else a write of the result is pending for 40, and the load follows the context's own accesses to its lines, the SO
accesses of earlier bundles where it is SO, and its turns at the atomic engines that hold its lines (`State.follows`). On the direct
path a tagged request goes to the home port; on the cached path the load is performed: the bytes become the result, extended as the
form says, or an uncorrectable granule its fault, and a miss of the home slice store waits at its port (`fillReply`); either comes
once what the load follows has been performed. That a cached load which follows nothing is performed at issue is the model's choice
(log entry 20), and so are the path and the kind of an access over two pages that differ (log entries 90 and 109). -/
def Obligations.GlobalLoads : Prop :=
  ∀ (s s1 : State) (d base : Reg) (off : Imm10) (i : Instr) (n k : Nat) (sg vec acq : Bool),
    (i, n, k, sg, vec, acq) ∈ [(.gldB d base off, 1, 1, true, false, false), (.gldBU d base off, 1, 1, false, false, false),
      (.gldH d base off, 2, 2, true, false, false), (.gldHU d base off, 2, 2, false, false, false),
      (.gldW d base off, 4, 4, true, false, false), (.gldWU d base off, 4, 4, false, false, false),
      (.gldD d base off, 8, 8, false, false, false), (.gldWAcq d base off, 4, 4, true, false, true),
      (.gldDAcq d base off, 8, 8, false, false, true), (.gvld d base off, 512, 16, false, true, false)] →
    let ea : W64 := s.g base + BitVec.ofInt 64 (off.int * k)
    (ea.toNat % k ≠ 0 → exec i s = .next (s.stopSlot (Stop.of 0x05))) ∧
    (∀ va kind lvl, ea.toNat % k = 0 → s.span s.cd (some s.ck) ea.toNat n .read = (s1, .bad va kind lvl) →
      exec i s = .next (s1.stopSlot (Stop.transl .read va kind lvl))) ∧
    ∀ keys leaf, ea.toNat % k = 0 → s.span s.cd (some s.ck) ea.toNat n .read = (s1, .ok keys leaf) → keys.length = n →
      s1.g base = s.g base → s1.iss = s.iss → s1.span s1.cd (some s1.ck) ea.toNat n .read = (s1, .ok keys leaf) →
      let so := s1.isSo ea.toNat n .read
      let home := if leafDirect leaf = true then some (homeOf (keys.headD 0)) else none
      let f := (s1.pendRaw d.toNat 40 (.await vec) false).follows keys true home so false
      let u := f.1.noteOrder s1.seq so acq
      (leafDirect leaf = true → exec i s = .next (u.sendDirect s1.seq keys none n sg vec f.2)) ∧
      (leafDirect leaf = false → f.2 ≠ [] → exec i s = .next (u.postpone s1.iss.ctx s1.seq f.2 (.load keys n sg vec))) ∧
      (leafDirect leaf = false → f.2 = [] →
        let t := u.cacheLines keys false
        let x := leNat (t.mbytes keys)
        let p : Payload := if t.uncorr keys = true then .fault (Stop.of 0x09) (some (if vec then 1 else 0))
          else if vec then .lanes (lanes.map (fun l => (l,
              ⟨BitVec.ofNat 32 (leNat (((t.mbytes keys).drop (4 * l)).take 4)), false⟩)))
          else .scalar (if sg then BitVec.ofInt 64 (if 2 * x < 2 ^ (8 * n) then (x : Int) else (x : Int) - 2 ^ (8 * n))
            else BitVec.ofNat 64 x)
        exec i s = .next ((t.modCtx s1.iss.ctx (fun y => { y with
          pend := y.pend.map (fun w => if w.seq = s1.seq then { w with payload := p } else w) })).fillReply (u.lineHit keys)
            s1.iss.ctx (homeOf (keys.headD 0)) s1.seq))

/-- O38 (R77, R79, R96, R100, R162, R164, R165, R341, R342, R347). The global stores. On the direct path a tagged read-modify-write
goes to the home port; on the cached path each byte of the access takes its value and every other byte of device and host memory
stays (but what a granule written under another PKID reads as, R439), as local memory and the registers do. A store follows what a
load does, and a release store every access of earlier bundles; it comes once they have been performed, and the core goes on. A store
to a page that a checkpoint has yet to stream holds its bundle (R408). That cached stores which follow nothing are performed at issue
is the model's choice (log entry 20), and so are the path and the kind of one over two pages that differ (log entries 90 and 109). -/
def Obligations.GlobalStores : Prop :=
  ∀ (s sp s1 : State) (src base : Reg) (off : Imm10) (i : Instr) (n k : Nat) (rel : Bool) (bs : List Byte) (srcs : List Reg),
    (i, n, k, rel, srcs) ∈ [(.gstB src base off, 1, 1, false, []), (.gstH src base off, 2, 2, false, []),
      (.gstW src base off, 4, 4, false, []), (.gstD src base off, 8, 8, false, []), (.gstWRel src base off, 4, 4, true, []),
      (.gstDRel src base off, 8, 8, true, []), (.gvst src base off, 512, 16, false, [src])] →
    let held := s.cutHolds s.cd (s.g base + BitVec.ofInt 64 (off.int * k)).toNat n
    (held = true → exec i s = .next s) ∧
    (held = false → Served s srcs sp →
    let ea : W64 := sp.g base + BitVec.ofInt 64 (off.int * k)
    (ea.toNat % k ≠ 0 → exec i s = .next (sp.stopSlot (Stop.of 0x05))) ∧
    (∀ va kind lvl, ea.toNat % k = 0 → sp.span sp.cd (some sp.ck) ea.toNat n .write = (s1, .bad va kind lvl) →
      exec i s = .next (s1.stopSlot (Stop.transl .write va kind lvl))) ∧
    ∀ keys leaf, ea.toNat % k = 0 → sp.span sp.cd (some sp.ck) ea.toNat n .write = (s1, .ok keys leaf) →
      keys.length = n → s1.g base = sp.g base → s1.iss = sp.iss →
      s1.span s1.cd (some s1.ck) ea.toNat n .write = (s1, .ok keys leaf) →
      bs = (if srcs = [] then leBytes n (s1.g src).toNat else lanes.flatMap (fun l => leBytes 4 (s1.v src l).val.toNat)) →
      let so := s1.isSo ea.toNat n .write
      let home := if leafDirect leaf = true then some (homeOf (keys.headD 0)) else none
      let f := s1.fresh.follows keys false home so rel
      let u := f.1.noteOrder s1.seq so false
      (leafDirect leaf = true → exec i s = .next (u.sendDirect s1.seq keys (some bs) n false false f.2)) ∧
      (leafDirect leaf = false → f.2 ≠ [] → exec i s = .next (u.postpone s1.iss.ctx s1.seq f.2 (.store keys bs))) ∧
      (leafDirect leaf = false → f.2 = [] → keys.Nodup → (∀ j ∈ keys, ∀ l ∈ keys, otherKey j l = false) →
        Memory.wf s1 = true → ∃ t, exec i s = .next t ∧
        (∀ j, j < n → t.mb (keys.getD j 0) = bs.getD j 0) ∧
        (∀ key, key ∉ keys → (∀ j ∈ keys, otherKey j key = false) → t.mb key = s1.mb key) ∧
        (∀ e a, t.lb e a = s1.lb e a) ∧ SameRegs s1 t ∧ SameControls s1 t))

/-- O39 (R96, R341, R342, R345 to R347, R352, R354). The atomics at issue: a misaligned EA, then a page that fails, stops the context;
else the request, with its operands as they stand at issue, its source and its cycle (R353), joins those of the home die's
engine, whose next cycle is due, the result is pending for 40, and SCOPEMISS is set for a location outside the scope, where both
orderings are dropped. It follows the context's own accesses to its line, the SO accesses of earlier bundles where it is SO, and with a
release side every access of earlier bundles, and joins once those are performed; later bundles' accesses follow one with an acquire
side (`noteOrder`). A page that a checkpoint has yet to stream holds the bundle (R408). Which link port the request of another die
comes through, and where the engine's cycles are counted from, are the model's choices (log entry 80). -/
def Obligations.AtomicsAtIssue : Prop :=
  ∀ (s s1 : State) (d base : Reg) (src : BitVec 5) (ord : BitVec 2) (sc : BitVec 3) (i : Instr) (op n : Nat),
    (i, op, n) ∈ [(.aaddW d base src ord sc, 0, 4), (.aaddD d base src ord sc, 0, 8), (.afaddW d base src ord sc, 1, 4),
      (.aminW d base src ord sc, 2, 4), (.aminD d base src ord sc, 2, 8), (.amaxW d base src ord sc, 3, 4),
      (.amaxD d base src ord sc, 3, 8), (.aminuW d base src ord sc, 4, 4), (.aminuD d base src ord sc, 4, 8),
      (.amaxuW d base src ord sc, 5, 4), (.amaxuD d base src ord sc, 5, 8), (.aandW d base src ord sc, 6, 4),
      (.aandD d base src ord sc, 6, 8), (.aorW d base src ord sc, 7, 4), (.aorD d base src ord sc, 7, 8),
      (.axorW d base src ord sc, 8, 4), (.axorD d base src ord sc, 8, 8), (.axchgW d base src ord sc, 9, 4),
      (.axchgD d base src ord sc, 9, 8), (.acasW d base src ord sc, 10, 4), (.acasD d base src ord sc, 10, 8)] →
    let a := (s.g base).toNat
    (s.cutHolds s.cd a n = true → exec i s = .next s) ∧
    (s.cutHolds s.cd a n = false → a % n ≠ 0 → exec i s = .next (s.stopSlot (Stop.of 0x05))) ∧
    (∀ va kind lvl, s.cutHolds s.cd a n = false → a % n = 0 → s.span s.cd (some s.ck) a n .atomic = (s1, .bad va kind lvl) →
      exec i s = .next (s1.stopSlot (Stop.transl .atomic va kind lvl))) ∧
    ∀ key keys leaf, s.cutHolds s.cd a n = false → a % n = 0 →
      s.span s.cd (some s.ck) a n .atomic = (s1, .ok (key :: keys) leaf) →
      s1.g base = s.g base → s1.iss = s.iss → s1.span s1.cd (some s1.ck) a n .atomic = (s1, .ok (key :: keys) leaf) →
      let far : Prop := sc.toNat ≤ 3 ∧ homeOf key ≠ s1.cd
      let so := s1.isSo a n .atomic
      let behind := s1.priors (key :: keys) false none true so (decide (¬ far) && ord.getLsbD 1)
      let u := if far then s1.setStat s1.iss.ctx 64 else s1
      let t := (u.pendRaw d.toNat 40 (.await false) false).noteOrder s1.seq so (decide (¬ far) && ord.getLsbD 0)
      let r : AtomicReq := ⟨s1.seq, .write s1.iss.ctx s1.seq, op, n, key, s1.cx.rg src.toNat, s1.g d,
        atomicSource (homeOf key) s1.ck, s1.copyCycle (homeOf key)⟩
      (behind = [] → exec i s = .next (t.askAtomic r)) ∧
      (behind ≠ [] → exec i s = .next (t.postpone s1.iss.ctx s1.seq behind (.atomic r))) ∧
      ∀ x : State, ((x.askAtomic r).die (homeOf key)).atomics = (x.die (homeOf key)).atomics ++ [r] ∧
        ∃ at_, (at_, (⟨.atomicEnginePerform, .n (homeOf key) 0 0⟩ : Due)) ∈ (x.askAtomic r).timers

/-- O40 (R352 to R355). In a cycle of its clock the atomic engine performs up to four of the requests that arrived before it and
lie in its first 64 lines, at most one of each line, in the order of their cycles and of their sources from the pointer (where
the pointer stands is the model's choice, log entry 80). Each gives the old value as the result, and the location takes Table
18-4's new value, which a failed ACAS does not write; every other byte stays. An uncorrectable location is left as it is, and its
fault lands. The accesses that follow others are then looked at again (`stirLate`). -/
def Obligations.AtomicEngine : Prop :=
  (∀ (s : State) (h : Nat), s.ev = .n h 0 0 →
    let l := admitted (s.die h).atomics
    let now := s.copyCycle h
    let p := cycleRequests now 4 l
    let s1 := p.foldl (fun u r => u.performFirst h [r]) s
    let before (r q : AtomicReq) : Prop := r.cycle < q.cycle ∨ (r.cycle = q.cycle ∧ r.rank ≤ q.rank)
    exec .atomicEnginePerform s = .next ((if (s1.die h).atomics.isEmpty then s1 else s1.nextCycle h).stirLate) ∧
    p.length ≤ 4 ∧ (p.map AtomicReq.line).Nodup ∧ List.Pairwise before p ∧
    (∀ r ∈ p, r ∈ l ∧ r.cycle < now ∧
      ∀ q ∈ l, q.cycle < now → (q.line = r.line ∨ q.line ∉ p.map AtomicReq.line) → before r q) ∧
    (p.length < 4 → ∀ q ∈ l, q.cycle < now → q.line ∈ p.map AtomicReq.line)) ∧
  ∀ (s : State) (h : Nat) (r : AtomicReq), homeOf r.key = h → r.op ≤ 10 → (r.size = 4 ∨ r.size = 8) →
    r.key + r.size ≤ hostBase → Memory.wf s = true →
    let keys := (List.range r.size).map (fun i => r.key + i)
    let m : Nat := 2 ^ (8 * r.size)
    let old := leNat (s.mbytes keys)
    let x := r.x.toNat % m
    let int (y : Nat) : Int := if 2 * y < m then (y : Int) else (y : Int) - m
    let new : Nat := match r.op with
      | 0 => (old + x) % m
      | 1 => finFloat fp32 .rne (sumSigned false (fp32.decode (old % 2 ^ 32)) (fp32.decode (x % 2 ^ 32)))
      | 2 => if int x < int old then x else old
      | 3 => if int old < int x then x else old
      | 4 => min old x
      | 5 => max old x
      | 6 => old &&& x
      | 7 => old ||| x
      | 8 => old ^^^ x
      | 9 => x
      | _ => if old = r.cmp.toNat % m then x else old
    let t := s.performFirst h [r]
    (t.die h).atomics = (s.die h).atomics.erase r ∧
      (∀ key, key ∉ keys → (∀ j ∈ keys, otherKey j key = false) → t.mb key = s.mb key) ∧ (∀ e a, t.lb e a = s.lb e a) ∧
      (s.uncorr keys = false → (∀ j, j < r.size → t.mb (r.key + j) = BitVec.ofNat 8 (new / 256 ^ j)) ∧
        ∀ c n, r.asker = .write c n → ∀ w ∈ (s.ctx c).pend, w.seq = n →
          { w with payload := .scalar (BitVec.ofNat 64 old), arrived := true } ∈ (t.ctx c).pend) ∧
      (s.uncorr keys = true → (∀ j, j < r.size → t.mb (r.key + j) = s.mb (r.key + j)) ∧
        ∀ c n, r.asker = .write c n → ∀ w ∈ (s.ctx c).pend, w.seq = n →
          { w with payload := .fault (Stop.of 0x09) (some 0), arrived := true } ∈ (t.ctx c).pend)

/-- O41 (R97, R100, R101, R337 to R339, R352, R354). The FUT operations. At issue a misaligned address, a page that fails, or a state
word that breaks its layout stops the context, and so does the walk that sets D of the page for FUT.RD's link where the value is
absent; else a request joins the engine of the future's home die, and the result is pending for 40. FUT.RD is an acquire, and
FUT.FILL, a release, follows every access of earlier bundles. The bundle waits for the context's earlier accesses to the future and
for the page's turn in a checkpoint (R408). At the engine FUT.RD gives a present value, and for an empty one takes a record and stops
the context after its bundle, or, where no record is free, fails its task; FUT.FILL sets FUTDUP where the value is present, and else
writes it and readies every waiter; FUT.RESET empties a present one alone. That a FUT operation is performed by the engine, what it
meets where the future has changed since its issue, and what a record holds are log entry 52's (DEDUCED). -/
def Obligations.Futures : Prop :=
  (∀ (s : State) (d base : Reg) (off : Imm10) (i : Instr) (acc : Acc) (reg : Reg) (op : Nat),
    (i = .futRd d base off ∧ acc = .futRead ∧ reg = d ∧ op = 11) ∨
      (i = .futFill d base off ∧ acc = .futWrite ∧ reg = 0 ∧ op = 12) ∨
      (i = .futReset base off ∧ acc = .futWrite ∧ reg = 0 ∧ op = 13) →
    let ea (x : State) : W64 := x.g base + BitVec.ofInt 64 (off.int * 16)
    let waits := s.cutHolds s.cd (ea s).toNat 16 || s.anyOpen (s.earlierOn (ea s).toNat 16 acc)
    let bad (w : W64) : Prop := bits w 63 28 ≠ 0 ∨ bits w 7 2 ≠ 0 ∨ (bit w 0 = true ∧ bit w 1 = true)
    (waits = true → exec i s = .next s) ∧
    (waits = false →
      ((ea s).toNat % 16 ≠ 0 → exec i s = .next (s.stopSlot (Stop.of 0x05))) ∧
      (∀ s1 va kind lvl, (ea s).toNat % 16 = 0 → s.span s.cd (some s.ck) (ea s).toNat 16 acc = (s1, .bad va kind lvl) →
        exec i s = .next (s1.stopSlot (Stop.transl acc va kind lvl))) ∧
      (∀ s1 keys leaf, (ea s).toNat % 16 = 0 → s.span s.cd (some s.ck) (ea s).toNat 16 acc = (s1, .ok keys leaf) →
        s1.uncorr keys = false →
        let w : W64 := BitVec.ofNat 64 (leNat ((s1.mbytes keys).take 8))
        (bad w → exec i s = .next (s1.stopSlot (Stop.of 0x0D))) ∧
        (∀ s2 va kind lvl, i = .futRd d base off → ¬ bad w → bit w 0 = false →
          s1.span s1.cd (some s1.ck) (ea s).toNat 16 .futLink = (s2, .bad va kind lvl) →
          exec i s = .next (s2.stopSlot (Stop.transl .futLink va kind lvl)))) ∧
      (∀ s2 s3 key rest link, futCheck acc ea s = (s2, none) →
        s2.futFind (ea s2).toNat acc = (s3, .ok (key :: rest, link)) →
        let so := s3.isSo (ea s2).toNat 16 acc
        let behind := s3.priors (key :: rest) false none true so (decide (op = 12))
        let u := (s3.pendRaw reg.toNat 40 (if op = 11 then .state else .await false) false).noteOrder s3.seq so (decide (op = 11))
        let x : W64 := if op = 11 then (if link then 1 else 0) else if op = 12 then s2.g d else 0
        let r : AtomicReq := ⟨s3.seq, .write s3.iss.ctx s3.seq, op, 16, key, x, ea s2, atomicSource (homeOf key) s3.ck,
          s3.copyCycle (homeOf key)⟩
        (behind = [] → exec i s = .next (u.askAtomic r)) ∧
        (behind ≠ [] → exec i s = .next (u.postpone s3.iss.ctx s3.seq behind (.atomic r)))))) ∧
  ∀ (s : State) (r : AtomicReq) (c n : Nat) (q : Pend), r.asker = .write c n → r.op ∈ [11, 12, 13] →
    (s.ctx c).pend.find? (fun w => decide (w.seq = n)) = some q →
    let keys := (List.range 16).map (fun i => r.key + i)
    let s0 := s.useEntry (homeOf r.key) (placeOf r.key / 64)
    let w : W64 := BitVec.ofNat 64 (leNat ((s0.mbytes keys).take 8))
    let v : W64 := BitVec.ofNat 64 (leNat (((s0.mbytes keys).drop 8).take 8))
    let bad : Prop := bits w 63 28 ≠ 0 ∨ bits w 7 2 ≠ 0 ∨ (bit w 0 = true ∧ bit w 1 = true)
    let gone := s0.modCtx c (fun x => { x with pend := x.pend.filter (fun p => decide (p.seq ≠ q.seq)) })
    (s0.uncorr keys = true → s.performReq r = s0.arrive c q.seq (.fault (Stop.of 0x09) (some 0))) ∧
    (s0.uncorr keys = false → bad → s.performReq r = s0.arrive c q.seq (.fault (Stop.of 0x0D) (some 0))) ∧
    (s0.uncorr keys = false → ¬ bad →
      (bit w 0 = true →
        (r.op = 11 → s.performReq r = s0.arrive c q.seq (.scalar v)) ∧
        (r.op = 12 → s.performReq r = gone.setStat c 128) ∧
        (r.op = 13 → s.performReq r = gone.setMbytes keys (leBytes 16 0))) ∧
      (bit w 0 = false →
        (r.op = 13 → s.performReq r = gone) ∧
        (r.op = 12 → s.performReq r = (gone.setMbytes keys (leBytes 8 1 ++ leBytes 8 r.x.toNat)).futWalk r.x 1048576
          (futHead (dieOf c) gone w)) ∧
        (r.op = 11 → r.x = 1 → s0.freeRecord (dieOf c) = none →
          s.performReq r = gone.modCtx c (fun x => { x with futStop := some (8 + q.slot, q.pc) })) ∧
        (∀ k, r.op = 11 → r.x = 1 → s0.freeRecord (dieOf c) = some k → ∃ rec_,
          mapFind ((s.performReq r).die (dieOf c)).records k = some rec_ ∧ rec_.tid = (s0.ctx c).tid ∧ rec_.seq = q.seq ∧
          rec_.next = futHead (dieOf c) s0 w ∧ rec_.slot = q.slot ∧ rec_.reg = q.reg ∧
          ((s.performReq r).ctx c).futStop.isSome = true ∧
          ((s0.ctx c).futStop = none → ((s.performReq r).ctx c).futStop = some (q.slot, q.pc)) ∧
          ∀ p ∈ (s0.ctx c).pend, p.seq = q.seq →
            { p with payload := .fut (dieOf c * 16384 + k) } ∈ ((s.performReq r).ctx c).pend) ∧
        (∀ s1 va kind lvl, r.op = 11 → r.x ≠ 1 →
          s0.span (dieOf c) (some (coreOf c)) r.cmp.toNat 16 .futLink = (s1, .bad va kind lvl) →
          s.performReq r = s1.arrive c q.seq (.fault (Stop.transl .futLink va kind lvl) (some 0))) ∧
        (∀ s1 key rest leaf, r.op = 11 → r.x ≠ 1 →
          s0.span (dieOf c) (some (coreOf c)) r.cmp.toNat 16 .futLink = (s1, .ok (key :: rest) leaf) →
          s.performReq r = s1.askAtomic { r with key := key, x := 1, cycle := s1.copyCycle (homeOf key) })))

/-- O42 (R12, R329 to R331, R345, R347, R348, R356, R357, R424). Counters, barriers, fences and code invalidation. The first later
bundle with a memory access waits for what a FENCE covers; a release CNT.ADD, an arrival and an invalidation take place once every
access of earlier bundles is performed, and a context's own additions to a counter in its order. A counter's value wraps at 2^32, and
every waiter is released where it becomes 0, as every waiter of a barrier's generation is at its last arrival; both waits end at a
pre-emption point (their WDC is 0). How an arrival at POD scope reaches the other modules of the pod (log entries 98 and 19), and
that queue pushes hold an ICINV's bundle (log entry 25), are the model's choices. -/
def Obligations.Synchronisation : Prop :=
  (∀ (s : State) (base : Reg) (src : BitVec 5) (ord : BitVec 2) (sc : BitVec 3),
    let x := s.g base
    let n := bits x 3 0
    let bad : Prop := bits x 15 4 ≠ 0 ∨ bits x 63 32 ≠ 0 ∨ bits x 31 16 = 0
    let key := s.barKey sc.toNat n
    let idx := arrIdx sc.toNat n
    let b := s.barrier key
    let late := s.anyOpen (s.lateAdds s.iss.ctx (s.cntDie x) (bits x 11 0))
    (sc = 0 → exec (.fence ord sc) s = .next s ∧ exec (.barArr base sc) s = .next s ∧ exec (.barWait base sc) s = .next s) ∧
    (sc ≠ 0 → exec (.fence ord sc) s = .next (s.modCtx s.iss.ctx (fun y => { y with
      order := y.order.filter s.accessOpen ++ (if ord.getLsbD 1 then s.priorOpen else s.earlierReads) }))) ∧
    (late = true → exec (.cntWait base ord sc) s = .next s) ∧
    (bits x 63 18 ≠ 0 ∨ s.phys s.cd (bits x 17 12) = none →
      exec (.cntAdd base src ord sc) s = .next (s.stopSlot (Stop.of 0x04)) ∧
      (late = false → exec (.cntWait base ord sc) s = .next (s.stopSlot (Stop.of 0x04)))) ∧
    (∀ e, bits x 63 18 = 0 → s.phys s.cd (bits x 17 12) = some e →
      let u := if sc.toNat ≤ 3 ∧ e ≠ s.cd then s.setStat s.iss.ctx 64 else s
      let v := (s.cx.rg src.toNat).setWidth 32
      let behind := (if ord.getLsbD 1 = true ∧ ¬ (sc.toNat ≤ 3 ∧ e ≠ s.cd) then s.priorOpen else []) ++
        s.lateAdds s.iss.ctx e (bits x 11 0)
      (src ≠ 0 → behind = [] → exec (.cntAdd base src ord sc) s = .next (u.addCounter e (bits x 11 0) v)) ∧
      (src ≠ 0 → behind ≠ [] → exec (.cntAdd base src ord sc) s =
        .next (u.fresh.postpone s.iss.ctx u.seq behind (.count e (bits x 11 0) v))) ∧
      (src = 0 → exec (.cntAdd base src ord sc) s = .next u) ∧
      (late = false → s.counter e (bits x 11 0) = 0 → exec (.cntWait base ord sc) s = .next u) ∧
      (late = false → s.counter e (bits x 11 0) ≠ 0 → exec (.cntWait base ord sc) s =
        .next ((u.park (.waitCounter e (bits x 11 0))).redonate.askAll))) ∧
    (sc ≠ 0 → bad → exec (.barArr base sc) s = .next (s.stopSlot (Stop.of 0x04)) ∧
      exec (.barWait base sc) s = .next (s.stopSlot (Stop.of 0x04))) ∧
    (sc ≠ 0 → ¬ bad →
      ((mapFind s.cx.arrivals idx ≠ none ∨ (b.arrived ≠ 0 ∧ b.gcount ≠ bits x 31 16)) →
        exec (.barArr base sc) s = .next (s.stopSlot (Stop.of 0x04))) ∧
      (mapFind s.cx.arrivals idx = none → (b.arrived = 0 ∨ b.gcount = bits x 31 16) →
        let pod := decide (sc = 5) && bit (s.modCtl 0x1B4) 63
        let s1 := s.modCtx s.iss.ctx (fun y => { y with arrivals := mapPut y.arrivals idx b.gen })
        let s2 := if pod = true then s1.tellPod (s1.partOf s1.cd) (.arrive n (bits x 31 16)) else s1
        (s.priorOpen = [] → s2.barrier key = b →
          (b.arrived + 1 = bits x 31 16 → exec (.barArr base sc) s =
            .next ({ s2 with barriers := mapPut s2.barriers key ⟨0, 0, b.gen + 1⟩ }.barRelease key idx)) ∧
          (b.arrived + 1 ≠ bits x 31 16 → exec (.barArr base sc) s =
            .next { s2 with barriers := mapPut s2.barriers key ⟨b.arrived + 1, bits x 31 16, b.gen⟩ })) ∧
        (s.priorOpen ≠ [] → exec (.barArr base sc) s =
          .next (s1.fresh.postpone s.iss.ctx s.seq s.priorOpen
            (.arrive key idx (bits x 31 16) (if pod = true then some n else none))))) ∧
      (mapFind s.cx.arrivals idx = none → exec (.barWait base sc) s = .next (s.stopSlot (Stop.of 0x04))) ∧
      (∀ g, mapFind s.cx.arrivals idx = some g →
        (g < b.gen → s.arrivesLate s.iss.ctx key = false → exec (.barWait base sc) s =
          .next (s.modCtx s.iss.ctx (fun y => { y with arrivals := mapDel y.arrivals idx }))) ∧
        (b.gen ≤ g ∨ s.arrivesLate s.iss.ctx key = true →
          exec (.barWait base sc) s = .next (s.park (.waitBarrier key g))))) ∧
    (∀ held, held = s.anyOpen (s.behindPushes s.priorOpen) →
      (held = true → exec (.icinv base sc) s = .next s) ∧
      (held = false → (sc = 0 ∨ 5 ≤ sc.toNat ∨ bits x 63 56 ≠ 0) → exec (.icinv base sc) s = .next (s.stopSlot (Stop.of 0x04))) ∧
      (held = false → 1 ≤ sc.toNat → sc.toNat ≤ 4 → bits x 63 56 = 0 → s.priorOpen ≠ [] → exec (.icinv base sc) s =
        .next ((s.fresh.postpone s.iss.ctx s.seq s.priorOpen (.codeLine (x.toNat / 128) (s.scopeCores sc.toNat))).stallFor
          [s.seq])) ∧
      (held = false → 1 ≤ sc.toNat → sc.toNat ≤ 4 → bits x 63 56 = 0 → s.priorOpen = [] →
        ∃ t, exec (.icinv base sc) s = .next t ∧ t.iss = s.iss ∧ ∀ k ∈ s.scopeCores sc.toNat, ∀ l,
          mapSorted (s.core k).icache = true →
          mapFind (t.core k).icache l = if l = x.toNat / 128 then none else mapFind (s.core k).icache l))) ∧
  ∀ (s : State) (e n : Nat) (v : BitVec 32), (∀ c, (s.ctx c).later = []) →
    let t := s.addCounter e n v
    t.counter e n = BitVec.ofNat 32 ((s.counter e n).toNat + v.toNat) ∧
    (∀ f m, (f, m) ≠ (e, n) → t.counter f m = s.counter f m) ∧
    (t.counter e n ≠ 0 → ∀ c, t.ctx c = s.ctx c) ∧
    (t.counter e n = 0 →
      (∀ c, (s.ctx c).phase = .waitCounter e n → (t.ctx c).phase = .ready ∧ (t.ctx c).wdc = 0) ∧
      (∀ p ∈ (s.die e).tasks, p.phase = .gated n → ∃ q ∈ (t.die e).tasks, q.tid = p.tid ∧ q.phase = .waiting) ∧
      (∀ o ∈ (s.die e).operators, o.gate = some n → ∃ q ∈ (t.die e).operators, q.id = o.id ∧ q.gate = none)) ∧
    ∀ key idx c g, (s.ctx c).phase = .waitBarrier key g → s.arrivesLate c key = false →
      mapSorted (s.ctx c).arrivals = true →
      let b := s.barRelease key idx
      (b.ctx c).phase = .ready ∧ (b.ctx c).wdc = 0 ∧ mapFind (b.ctx c).arrivals idx = none

/-! Engines and tasks. -/

/-- O43 (R105, R112 to R114, R332). The copy instructions and SPAWN at issue. With a free intake entry, a packet R112 refuses
gives MALFORMED << 8 and enters nothing; any other enters the engine of the core, and the result is ACCEPTED << 8, or, for
CPYW, what its completion gives (a CPYW to g0 waits for it too: log entry 49, DEDUCED); with no entry free the bundle does not
issue. The packet follows every access of earlier bundles that is not performed yet, queue pushes among them. SPAWN faults on a
reserved gate bit, and holds the next SPAWN until its landing; it is performed once those accesses are, and then gives CODE << 8 and
enqueues nothing for a failed launch (R386, log entry 57). That a NOP of CPY.MC with g[b] = 0 is accepted is log entry 110. -/
def Obligations.CopyAndSpawnAtIssue : Prop :=
  (∀ (s : State) (d a b : Reg) (i : Instr) (ws : State → List W64) (wait : Bool),
    let words (t : State) : List W64 := (List.range 8).map (fun j => t.cx.rg (a.toNat + j))
    (i = .cpy d a ∧ ws = words ∧ wait = false) ∨ (i = .cpyw d a ∧ ws = words ∧ wait = true) ∨
      (i = .cpyMc d a b ∧ wait = false ∧ ws = (fun t =>
        ((words t).getD 0 0 ||| 0x400000000#64) :: (((words t).drop 1).take 6 ++ [t.g b]))) →
    let en := s.cd * 4 + s.ck % 64 / 16
    let full : Prop := 64 ≤ (s.cengine en).packets.countP (fun p => decide (p.phase = .intake))
    let s1 := s.modCengine en (fun e => { e with waiting := e.waiting.filter (fun c => decide (c.1 ≠ s.iss.ctx)) })
    (full → exec i s = .next s) ∧
    (¬ full →
      (pktMalformed (ws s) = true → exec i s = .next (s1.pendG d 40 0x1000)) ∧
      (pktMalformed (ws s) = false → ∃ p : Packet,
        p.words = ws s ∧ p.tid = some s1.cx.tid ∧ p.queue = none ∧ p.phase = .intake ∧ p.ref = s1.seq ∧ p.wait = wait ∧
        p.units = [] ∧ p.code = 0 ∧ p.prio = s1.ownPrio s1.iss.ctx ∧ p.behind = s1.priorOpen ∧
        (wait = false → exec i s = .next ((s1.intakePut en p).pendG d 40 0x100)) ∧
        (wait = true → exec i s = .next ((s1.intakePut en p).pendRaw d.toNat 40 (.cpyw en s1.seq) false)) ∧
        ((s1.intakePut en p).cengine en).packets = (s1.cengine en).packets ++ [p]))) ∧
  (∀ (s : State) (d a : Reg),
    (s.iss.cycle < s.cx.spawnLand → exec (.spawn d a) s = .next s) ∧
    (s.cx.spawnLand ≤ s.iss.cycle →
      (bits (s.g (a + 1)) 63 13 ≠ 0 → exec (.spawn d a) s = .next (s.stopSlot (Stop.of 0x04))) ∧
      (bits (s.g (a + 1)) 63 13 = 0 →
        let s1 := (if d = 0 then s.fresh else s.pendRaw d.toNat 40 (.await false) false).modCtx s.iss.ctx (fun x => { x with
          spawnLand := s.iss.cycle + 40 })
        (s.priorOpen = [] → exec (.spawn d a) s = .next (s1.spawnNow s.iss.ctx s.seq (s.g a) (s.g (a + 1)))) ∧
        (s.priorOpen ≠ [] → exec (.spawn d a) s =
          .next (s1.postpone s.iss.ctx s.seq s.priorOpen (.spawn (s.g a) (s.g (a + 1)))))))) ∧
  ∀ (s t : State) (c seq code : Nat) (desc gate : W64),
    s.enqueue (dieOf c) desc ((s.taskAt c).bind (fun u => u.launch)) (((s.taskAt c).map (fun u => u.launchId)).getD 0) 0xFFFF
      (if bit gate 12 then some (bits gate 11 0) else none) = (t, code) →
    let u := if s.launchFailed ((s.taskAt c).bind (fun y => y.launch)) then
      t.modDie (dieOf c) (fun x => { x with tasks := (s.die (dieOf c)).tasks, operators := (s.die (dieOf c)).operators }) else t
    s.spawnNow c seq desc gate = u.arrive c seq (.scalar (BitVec.ofNat 64 (code * 256)))

/-- O44 (R83, R169, R173 to R175). The queue instructions: QCFG binds an empty ring (with CODE and SLOTS 0, the model's choice: log
entry 116), or faults on the operands R169 lists with nothing changed; QSTAT samples Table 8-8, of the ring as it stood before its
bundle's pops; SUB.OPEN attaches a stream or records why not (that a descriptor of uncorrectable data is BADDESC is log entry 51,
DEDUCED), once the context's earlier accesses to the descriptor are performed, and the stream follows every access of earlier
bundles (R349); SUB.CLOSE closes. -/
def Obligations.QueueInstructions : Prop :=
  ∀ (s : State) (d a : Reg),
    let c := s.iss.ctx
    let n := d.toNat - 56
    let q := s.cx.queue n
    let x := s.g a
    let lo := s.ck % 64 * 2 ^ 22 + c % 4 * 2 ^ 20
    let len := 512 * ((s.taskAt c).map (fun t => t.spr)).getD 0
    let bad : Prop := q.stream.isSome = true ∨ bits x 53 44 ≠ 0 ∨ (bits x 55 54 = 0 ∧ x ≠ 0) ∨
      (bits x 55 54 ≠ 0 ∧ (bits x 43 32 < 1 ∨ 2048 < bits x 43 32 ∨ bits x 31 0 % 512 ≠ 0 ∨
        bits x 31 0 / 2 ^ 22 ≠ s.ck % 64 ∨ 2 ^ 22 < bits x 31 0 % 2 ^ 22 + 512 * bits x 43 32 ∨ bits x 31 0 < lo ∨
        lo + len < bits x 31 0 + 512 * bits x 43 32))
    (bad → exec (.qcfg d a) s = .next (s.stopSlot (Stop.of 0x04))) ∧
    (¬ bad → exec (.qcfg d a) s = .next (s.modCtx c (fun y => y.setQueue n ⟨x, 0, 0, false, 0, none, 0⟩))) ∧
    (∃ r : W64, exec (.qstat d a) s = .next (s.pendG d 40 r) ∧
      let p := (mapFind s.iss.rings (a.toNat - 56)).getD (s.cx.queue (a.toNat - 56))
      bits r 11 0 = p.head % 2 ^ 12 ∧ bits r 15 12 = 0 ∧ bits r 27 16 = p.count % 2 ^ 12 ∧ bits r 29 28 = 0 ∧
      bits r 31 30 = p.dir ∧ bits r 33 32 = (if p.dir = 0 then 0 else if p.closed then 2 else 1) ∧
      bit r 34 = p.stream.isSome ∧ bit r 35 = (p.stream.map (fun y => y.suspended)).getD false ∧
      bits r 39 36 = p.code % 16 ∧
      bits r 63 40 = ((p.stream.map (fun y => y.next)).getD p.slots) % 2 ^ 24) ∧
    let waits := s.anyOpen (s.earlierOn x.toNat 64 .read)
    (waits = true → exec (.subOpen d a) s = .next s) ∧
    (waits = false → x.toNat % 64 ≠ 0 → exec (.subOpen d a) s = .next (s.stopSlot (Stop.of 0x05))) ∧
    (∀ s1 va kind lvl, waits = false → x.toNat % 64 = 0 → s.span s.cd (some s.ck) x.toNat 64 .read = (s1, .bad va kind lvl) →
      exec (.subOpen d a) s = .next (s1.stopSlot (Stop.transl .read va kind lvl))) ∧
    (∀ t keys leaf, waits = false → x.toNat % 64 = 0 → s.span s.cd (some s.ck) x.toNat 64 .read = (t, .ok keys leaf) →
      t.g a = x → t.iss = s.iss → t.span t.cd (some t.ck) x.toNat 64 .read = (t, .ok keys leaf) →
      let p := (t.ctx c).queue n
      let desc := if t.uncorr keys then none else streamOf (t.mbytes keys) (dieOf c) (coreOf c) t.now
      let refused (code : Nat) : State := t.modCtx c (fun y => y.setQueue n { p with code := code })
      (p.stream.isSome = true → exec (.subOpen d a) s = .next (refused 1)) ∧
      (p.stream = none → desc = none → exec (.subOpen d a) s = .next (refused 2)) ∧
      (∀ y, p.stream = none → desc = some y →
        let fits : Prop := (y.outbound = true → p.dir = 3) ∧ (y.outbound = false → p.dir = 2)
        (¬ fits → exec (.subOpen d a) s = .next (refused 3)) ∧
        (fits → t.turretFull (dieOf c) = true → exec (.subOpen d a) s = .next (refused 1)) ∧
        (fits → t.turretFull (dieOf c) = false → exec (.subOpen d a) s =
          .next ((t.modCtx c (fun z => z.setQueue n { p with
            stream := some { y with behind := t.priorOpen }, code := 0, slots := 0 })).dueOnce
            (if y.outbound then .turretSlotStore else .turretSlotLoad) (.n c n 0))))) ∧
    (q.dir = 0 → exec (.subClose d) s = .next s) ∧
    (q.dir ≠ 0 → q.stream = none →
      exec (.subClose d) s = .next (s.modCtx c (fun y => y.setQueue n { q with closed := true }))) ∧
    (∀ y, q.stream = some y → q.dir = 2 →
      ((q.closed = false ∨ y.next < y.total) → exec (.subClose d) s = .next
        ((s.modCtx c (fun z => z.setQueue n { q with closed := true, code := 8, stream := none, slots := y.next })).streamDone
          y)) ∧
      (q.closed = true → y.total ≤ y.next → exec (.subClose d) s = .next s)) ∧
    (∀ y, q.stream = some y → q.dir = 3 → ∃ t, exec (.subClose d) s = .next t ∧
      (t.ctx c).queue n = { q with closed := true } ∧
      ⟨if q.count = 0 then .streamCompletion else .turretSlotStore, .n c n 0⟩ ∈ t.agenda)

/-- O45 (R139, R143, R155, R156, R158, R315 to R319). The lifetime and residency instructions: what each does to the row
groups of its range or to the die's Lexicon, its result, and the operands it faults on. That a misaligned g[a] is illegal where
g[b] is 0 too, and that one refresh of a row group serves every request of it that waits, are the model's choices (log entry 103). -/
def Obligations.LifetimeAndResidency : Prop :=
  ∀ (s : State) (d a b : Reg) (i : Instr) (limit : Nat),
    let x := s.g a
    let y := s.g b
    let e := s.cd
    let ok : Prop := bits x 63 32 = 0 ∧ x.toNat % 512 = 0 ∧ y.toNat % 512 = 0 ∧ y.toNat ≤ limit
    let range := rgsOf x.toNat y.toNat
    ((i = .ltClass d a b ∧ limit = 2 ^ 22) ∨ (i = .ltFree a b ∧ limit = 2 ^ 22) ∨ (i = .ltTouch a b ∧ limit = 2 ^ 15) →
      (¬ ok → exec i s = .next (s.stopSlot (Stop.of 0x04))) ∧
      (ok → y.toNat ≠ 0 → s.localOk e x.toNat y.toNat = false →
        exec i s = .next (s.stopSlot (Stop.localAddr .write x))) ∧
      (ok → y.toNat = 0 → exec i s = .next s) ∧
      (ok → s.localOk e x.toNat y.toNat = true → Memory.wf s = true →
        (i = .ltFree a b → ∃ t, exec i s = .next t ∧
          (∀ g, g ∈ range → (s.rg e g).valid = true → (t.rg e g).valid = false ∧ (t.rg e g).rfq = false ∧
            (t.rg e g).cls = (s.rg e g).cls) ∧
          (∀ g, g < 2 ^ 23 → g ∉ range → t.rg e g = s.rg e g) ∧ (∀ f c, t.lb f c = s.lb f c) ∧ SameRegs s t ∧
          (∀ m, m ∈ (t.die e).lexicon ↔ m ∈ (s.die e).lexicon ∧
            ∀ g, g ∈ range → (s.rg e g).valid = true → g ∉ rgsOf m.laddr m.bytes)) ∧
        (i = .ltClass d a b → ∃ t, exec i s = .next t ∧ (∀ g, g ∈ range → (t.rg e g).cls = d.toNat % 8 ∧
            ((s.rg e g).valid = true → (s.rg e g).rfq = false → (s.rg e g).age < s.elim e (d.toNat % 8) →
              t.rg e g = { s.rg e g with cls := d.toNat % 8 })) ∧
          (∀ g, g < 2 ^ 23 → g ∉ range → t.rg e g = s.rg e g)) ∧
        (i = .ltTouch a b → exec i s = .next (range.foldl (fun u g =>
          if (u.rg u.cd g).valid then (u.setRg u.cd g { u.rg u.cd g with rfq := true }).askRefresh u.cd g
            (some (u.ck * 8 + u.iss.slot)) else u) s)))) ∧
    (bits x 63 32 = 0 → s.localOk e x.toNat 1 = true → ∃ r : W64, exec (.ltStat d a) s = .next (s.pendG d 40 r) ∧
      let g := s.rg e (x.toNat / 512)
      (g.age < 1024 → g.cls < 8 → s.elim e g.cls < 1024 →
        bits r 9 0 = (if g.valid then g.age else 0) ∧ bits r 12 10 = g.cls ∧ bit r 13 = g.valid ∧ bit r 14 = g.rfq ∧
        bit r 15 = false ∧ bits r 25 16 = s.elim e g.cls ∧ bits r 28 26 = s.band e ∧ bits r 30 29 = s.policy e g.cls ∧
        bits r 63 31 = 0)) ∧
    (bits x 63 32 ≠ 0 → exec (.ltStat d a) s = .next (s.stopSlot (Stop.of 0x04))) ∧
    (bits x 63 32 = 0 → s.localOk e x.toNat 1 = false → exec (.ltStat d a) s = .next (s.stopSlot (Stop.localAddr .read x))) ∧
    (let z := s.g (a + 1);
      ((bits x 63 56 ≠ 0 ∨ bits z 63 32 = 0 ∨ 2 ^ 22 < bits z 63 32) →
        exec (.resReg d a) s = .next (s.stopSlot (Stop.of 0x04))) ∧
      (bits x 63 56 = 0 → 1 ≤ bits z 63 32 → bits z 63 32 ≤ 2 ^ 22 → s.localOk e (bits z 31 0) (bits z 63 32) = false →
        exec (.resReg d a) s = .next (s.stopSlot (Stop.localAddr .read z))) ∧
      (bits x 63 56 = 0 → 1 ≤ bits z 63 32 → bits z 63 32 ≤ 2 ^ 22 → s.localOk e (bits z 31 0) (bits z 63 32) = true →
        let m : LexEntry := ⟨bits x 55 32, bits x 31 0, keyOf (bits z 31 0), bits z 31 0, bits z 63 32,
          (s.rg e (bits z 31 0 / 512)).cls⟩
        let same (o : LexEntry) : Bool := decide (o.handle = m.handle ∧ o.tile = m.tile ∧ o.key = m.key)
        let l := (s.die e).lexicon
        ((s.rg e (bits z 31 0 / 512)).valid = false → exec (.resReg d a) s = .next (s.pendG d 40 3)) ∧
        ((s.rg e (bits z 31 0 / 512)).valid = true →
          (l.any same = true → exec (.resReg d a) s =
            .next ((s.modDie e (fun u => { u with lexicon := u.lexicon.map (fun o => if same o then m else o) })).pendG d 40
              1)) ∧
          (l.any same = false → 4096 ≤ l.length → exec (.resReg d a) s =
            .next ((s.setDieCtl e 0x191 (s.dieCtl e 0x191 ||| BitVec.ofNat 64 (2 ^ 48))).pendG d 40 2)) ∧
          (l.any same = false → l.length < 4096 → exec (.resReg d a) s =
            .next ((s.modDie e (fun u => { u with lexicon := u.lexicon ++ [m] })).pendG d 40 0))))) ∧
    ((bits x 63 56 ≠ 0 ∨ bits y 63 32 ≠ 0 ∨ 2 ^ 32 < bits x 31 0 + bits y 31 0) →
      exec (.resDrop a b) s = .next (s.stopSlot (Stop.of 0x04))) ∧
    (bits x 63 56 = 0 → bits y 63 32 = 0 → bits x 31 0 + bits y 31 0 ≤ 2 ^ 32 → ∃ t, exec (.resDrop a b) s = .next t ∧
      SameRegs s t ∧ SameMemory s t ∧ ∀ m, m ∈ (t.die e).lexicon ↔ m ∈ (s.die e).lexicon ∧
        ¬ (m.handle = bits x 55 32 ∧ (bits y 31 0 = 0 ∨ (bits x 31 0 ≤ m.tile ∧ m.tile < bits x 31 0 + bits y 31 0)))) ∧
    ((bits x 63 56 ≠ 0 ∨ 64 < y.toNat) → exec (.resQry d a b) s = .next (s.stopSlot (Stop.of 0x04))) ∧
    (bits x 63 56 = 0 → y.toNat ≤ 64 →
      let hit (o : LexEntry) : Prop := o ∈ (s.die e).lexicon ∧ o.handle = bits x 55 32 ∧ o.tile = bits x 31 0 ∧
        y.toNat ≤ o.key
      ((∀ o, ¬ hit o) → exec (.resQry d a b) s = .next (s.pendG d 40 0)) ∧
      (∀ o, hit o → (∀ o', hit o' → o' ≠ o → o.key < o'.key) → (s.die e).lexicon.Nodup → o.cls < 8 → o.bytes < 2 ^ 23 →
        o.laddr < 2 ^ 32 → ∃ r : W64, exec (.resQry d a b) s = .next (s.pendG d 40 r) ∧ bit r 63 = true ∧
          (bit r 62 = true ↔ ∃ o', hit o' ∧ o' ≠ o) ∧ bits r 61 59 = o.cls ∧ bits r 54 32 = o.bytes ∧
          bits r 31 0 = o.laddr))

/-! Matrices. -/

/-- O46 (R272, R275 to R281, R284, R285). The matrix operations at issue. With the tiles owned, fewer than four accepted
operations and the tile not busy, an operation that passes its checks in their order is accepted with FMT and its operands
as they stand and the queue pushes it follows, and a failed check stops the context; else the bundle is held. MSHAPE and
MZERO on a held tile cancel the held operation, clear MXSTAT and withdraw a fault not yet taken, and then act; MMA, MMAS and
MSTORE on it wait as on any busy tile. MWAIT holds its
bundle while an operation names its tile, passes once none does, and raises the deferred fault of a held tile again. -/
def Obligations.MatrixAtIssue : Prop :=
  ∀ (s : State) (d a b : Reg) (imm : Imm16),
    let n := d.toNat
    let e := s.eng s.ck
    let free : Prop := s.owns s.iss.ctx = true ∧ e.ops.length < 4 ∧ e.busy n = false
    let x := s.g a
    let y := s.g b
    let f := s.fmtNow
    let size := (aSize (fmtA f)).getD 1
    let k := bits y 47 32
    (free → exec (.mshape d imm) s = .next (s.accept 0x40 n imm.field.toNat 0 0)) ∧
    (s.owns s.iss.ctx = true → e.ops.length < 4 → e.held n = true → exec (.mshape d imm) s =
      .next ((s.cancelHeld s.iss.ctx n).accept 0x40 n imm.field.toNat 0 0)) ∧
    (free → e.tile n = none → ∀ i, i ∈ [Instr.mzero d, .mma d a b, .mmas d a b, .mstore d a] →
      exec i s = .next (s.stopSlot ⟨0x0C, n, 0, none⟩)) ∧
    (s.owns s.iss.ctx = true → e.ops.length < 4 → e.held n = true →
      (e.tile n = none → exec (.mzero d) s = .next (s.stopSlot ⟨0x0C, n, 0, none⟩)) ∧
      ∀ t, e.tile n = some t → exec (.mzero d) s = .next ((s.cancelHeld s.iss.ctx n).accept 0x41 n 0 0 0)) ∧
    (∀ i, i ∈ [Instr.mma d a b, .mmas d a b, .mstore d a] → e.busy n = true ∨ e.held n = true → exec i s = .next s) ∧
    (∀ i, i ∈ [Instr.mshape d imm, .mzero d, .mma d a b, .mmas d a b, .mstore d a] →
      (s.owns s.iss.ctx = false ∨ 4 ≤ e.ops.length ∨ (e.busy n = true ∧ e.held n = false)) → exec i s = .next s) ∧
    (∀ (x : State) (c m : Nat), (x.eng (coreOf c)).held m = true →
      let y := x.cancelHeld c m
      (y.eng (coreOf c)).ops = (x.eng (coreOf c)).ops.filter (fun o => decide (o.held = false ∨ o.tile ≠ m)) ∧
      (y.eng (coreOf c)).tiles = (x.eng (coreOf c)).tiles ∧ y.ctxCtl c 0x078 = 0 ∧
      (y.ctx c).traps = (x.ctx c).traps.filter (fun t => decide (t.code ≠ 0x23)) ∧ SameRegs x y ∧ SameMemory x y) ∧
    (free → ∀ t, e.tile n = some t →
      exec (.mzero d) s = .next (s.accept 0x41 n 0 0 0) ∧
      (∀ (q4 : Bool) (i : Instr) (op : Nat), (i = .mma d a b ∧ q4 = false ∧ op = 0x42) ∨
          (i = .mmas d a b ∧ q4 = true ∧ op = 0x43) →
        let bad : Prop := aSize (fmtA f) = none ∨ (q4 = true ∧ fmtB f ≠ 0xE) ∨
          (q4 = false ∧ (fmtB f ≠ 0xF ∨ fmtNpl f = 0)) ∨ (fmtAcc f ≠ 0 ∧ fmtAcc f ≠ 9) ∨ (fmtAcc f = 9 ∧ fmtA f ≠ 5) ∨
          (fmtAcc f = 9 ∧ q4 = true) ∨ bits x 63 48 ≠ 0 ∨ bits y 63 48 ≠ 0 ∨ k = 0
        let odd : Prop := bits x 31 0 % 16 ≠ 0 ∨ bits x 47 32 % 16 ≠ 0 ∨ bits y 31 0 % (if q4 then 8 else 64) ≠ 0
        let aOk : Prop := s.localOk s.cd (bits x 31 0) ((t.rows - 1) * bits x 47 32 + k * size) = true
        let bOk : Prop := s.localOk s.cd (bits y 31 0)
          (if q4 then (k + 255) / 256 * t.cols * 136 else (k + 63) / 64 * t.cols * (8 * (fmtNpl f + 3))) = true
        (bad → exec i s = .next (s.stopSlot (Stop.of 0x04))) ∧
        (¬ bad → odd → exec i s = .next (s.stopSlot (Stop.of 0x05))) ∧
        (¬ bad → ¬ odd → ¬ aOk → exec i s = .next (s.stopSlot (Stop.localAddr .read x))) ∧
        (¬ bad → ¬ odd → aOk → ¬ bOk → exec i s = .next (s.stopSlot (Stop.localAddr .read y))) ∧
        (¬ bad → ¬ odd → aOk → bOk → exec i s = .next (s.accept op n 0 x y))) ∧
      (let bad : Prop := bits x 63 56 ≠ 0 ∨ bit x 39 = true ∨ bits x 38 36 = 5 ∨ bits x 38 36 = 6 ∨ 0xA < bits x 35 32 ∨
          (fmtAcc f ≠ 0 ∧ fmtAcc f ≠ 9)
        let odd : Prop := bits x 31 0 % 16 ≠ 0 ∨ bits x 55 40 % 16 ≠ 0
        let inside : Prop :=
          s.localOk s.cd (bits x 31 0) ((t.rows - 1) * bits x 55 40 + t.cols * codeSize (bits x 35 32)) = true
        (bad → exec (.mstore d a) s = .next (s.stopSlot (Stop.of 0x04))) ∧
        (¬ bad → odd → exec (.mstore d a) s = .next (s.stopSlot (Stop.of 0x05))) ∧
        (¬ bad → ¬ odd → ¬ inside → exec (.mstore d a) s = .next (s.stopSlot (Stop.localAddr .write x))) ∧
        (¬ bad → ¬ odd → inside → exec (.mstore d a) s = .next (s.accept 0x44 n 0 x 0)))) ∧
    (∀ op tile v p q, ((s.accept op tile v p q).eng s.ck).ops =
      e.ops ++ [⟨s.seq, op, tile, f, p, q, v, 0, false, s.priorOpen⟩]) ∧
    (∀ t : State, ((opMwait d).hold t = true ↔ t.owns t.iss.ctx = false ∨
        (t.eng t.ck).busy n = true ∧ (t.eng t.ck).held n = false) ∧
      (opMwaitAll.hold t = true ↔ t.owns t.iss.ctx = false ∨
        (∃ m, m < 8 ∧ (t.eng t.ck).busy m = true) ∧ ∀ m, m < 8 → (t.eng t.ck).held m = false)) ∧
    (s.owns s.iss.ctx = true →
      (e.held n = true → exec (.mwait d) s = .next (s.stopSlot (Stop.of 0x23))) ∧
      (e.held n = false → exec (.mwait d) s = .next s) ∧
      ((∀ m, m < 8 → e.held m = false) → exec .mwaitAll s = .next s) ∧
      (∀ m, m < 8 → e.held m = true → exec .mwaitAll s = .next (s.stopSlot (Stop.of 0x23))))

/-- O47 (R250, R251, R281). The tile moves: a read gives the row's or the column's elements, and zeros beyond them, at 6; a
write sends the lanes to the tile, where they stand after six periods of the control clock, each as long as the divisor makes
it when it begins; an index outside the shape is illegal, and a tile with no shape raises the unconfigured-tile fault. -/
def Obligations.TileMoves : Prop :=
  ∀ (s s1 : State) (d z : Reg) (imm : Imm10) (t : Tile) (row : Bool) (rd wr : Instr),
    (row = true ∧ rd = .trdRow d z imm ∧ wr = .twrRow z d imm) ∨ (row = false ∧ rd = .trdCol d z imm ∧ wr = .twrCol z d imm) →
    s.owns s.iss.ctx = true → (s.eng s.ck).busy z.toNat = false →
    let j := imm.int.toNat
    let len := if row then t.cols else t.rows
    let lim := if row then t.rows else t.cols
    ((s.eng s.ck).tile z.toNat = none → exec rd s = .next (s.stopSlot ⟨0x0C, z.toNat, 0, none⟩)) ∧
    ((s.eng s.ck).tile z.toNat = some t → lim ≤ j → exec rd s = .next (s.stopSlot (Stop.of 0x04))) ∧
    (Popped s [d] s1 → s1.eng s1.ck = s.eng s.ck →
      ((s.eng s.ck).tile z.toNat = none → exec wr s = .next (s1.stopSlot ⟨0x0C, z.toNat, 0, none⟩)) ∧
      ((s.eng s.ck).tile z.toNat = some t → lim ≤ j → exec wr s = .next (s1.stopSlot (Stop.of 0x04)))) ∧
    ((s.eng s.ck).tile z.toNat = some t → j < lim →
      exec rd s = .next (s.pendV d 6 0 (fun l => if l < len then (if row then t.elem j l else t.elem l j) else Elem.zero)) ∧
      (Served s [d] s1 → s1.eng s1.ck = s.eng s.ck → ∃ t1 w, exec wr s = .next t1 ∧
        (t1.eng s1.ck).writes = (s1.eng s1.ck).writes ++ [w] ∧ w.tile = z.toNat ∧
        (∃ at_, (at_, ⟨.tileWriteComplete, .n s1.ck w.id 5⟩) ∈ t1.timers) ∧
        (∀ (u : State) (left : Nat), u.ev = .n s1.ck w.id (left + 1) → w ∈ (u.eng s1.ck).writes →
          exec .tileWriteComplete u = .next (u.afterCycles (dieOfCore s1.ck) (u.core s1.ck).cdiv 1 .tileWriteComplete
            (.n s1.ck w.id left))) ∧
        (∀ u : State, u.ev = .n s1.ck w.id 0 → (u.eng s1.ck).writes = [w] → (u.eng s1.ck).tile z.toNat = some t →
          len ≤ 128 → 1 ≤ t.cols → ∃ u1 t2, exec .tileWriteComplete u = .next u1 ∧ (u1.eng s1.ck).writes = [] ∧
            (u1.eng s1.ck).tile z.toNat = some t2 ∧ t2.dirty = true ∧ t2.rows = t.rows ∧ t2.cols = t.cols ∧
            (∀ l, l < len → (if row then t2.elem j l else t2.elem l j) = s1.v d l) ∧
            (∀ p q, p < t.rows → q < t.cols → (if row then p ≠ j else q ≠ j) → t2.elem p q = t.elem p q))))

/-! Stops. -/

/-- O48 (R101, R375, R377). Taking a stop: STOPINFO holds the code, the DETAIL, the slot, the done mask and MULTI, CAUSEPC
the address of the bundle at fault, and, for an address fault, TFADDR and TFINFO what it names; the context stops and gives
up its core, its save is due, and its PC, registers, pending writes and the memories stay. That the done mask keeps the slots
that were done before this stop is log entry 33 (DEDUCED). -/
def Obligations.StopRecord : Prop :=
  ∀ (s : State) (c : Nat) (st : Stop) (pc new : Nat) (multi : Bool),
    st.code < 256 → st.detail < 2 ^ 16 → st.slot < 8 → (s.ctx c).doneMask < 256 → new < 256 →
    let t := s.takeStop c st pc new multi
    let w := t.ctxCtl c 0x081
    bits w 7 0 = st.code ∧ bits w 31 8 = 0 ∧ bits w 34 32 = st.slot ∧ bits w 38 35 = 0 ∧ bit w 39 = multi ∧
    bits w 47 40 = ((s.ctx c).doneMask ||| new) ∧ bits w 63 48 = st.detail ∧
    t.ctxCtl c 0x082 = BitVec.ofNat 64 pc ∧
    (∀ va info, st.addr = some (va, info) → t.ctxCtl c 0x048 = va ∧ t.ctxCtl c 0x049 = BitVec.ofNat 64 info) ∧
    (st.addr = none → t.ctxCtl c 0x048 = s.ctxCtl c 0x048 ∧ t.ctxCtl c 0x049 = s.ctxCtl c 0x049) ∧
    (t.ctx c).phase = .stopping ∧ (t.core (coreOf c)).running ≠ some (c % 4) ∧
    ⟨.contextSave, .n c 0 0⟩ ∈ t.agenda ∧ (t.ctx c).pend = (s.ctx c).pend ∧ SameRegs s t ∧ SameMemory s t ∧
    SameEngines s t ∧ (∀ e, e ≠ c → t.ctx e = s.ctx e) ∧
    ∀ n, n ≠ 0x081 → n ≠ 0x082 → n ≠ 0x048 → n ≠ 0x049 → t.ctxCtl c n = s.ctxCtl c n

/-! Frames and the landing of results. -/

/-- O49 (R21, R179, R190). The frame of the instructions that only compute or read, the local loads and the status reads
among them: with their sources served and their checks passed, they answer a next state in which no register, no PC, no
loop entry, no control register but CTXSTAT, no byte of memory and no row group has changed, and what they leave pending are
the registers they name, at the latency R45 gives (a queue, or g0, apart). -/
def Obligations.RegisterFrame : Prop :=
  ∀ (i : Instr) (o : SlotOp) (s s1 : State), i.registerOnly = true → slotOp i = some o → Served s o.pops s1 →
    o.check s1 = (s1, none) → ∃ t new, exec i s = .next t ∧ t = o.effect s1 ∧ SameRegs s1 t ∧ SameControls s1 t ∧
      SameMemory s1 t ∧ SameEngines s1 t ∧ (∀ c, c ≠ s1.iss.ctx → t.ctx c = s1.ctx c) ∧
      (t.ctx s1.iss.ctx).pend = (s1.ctx s1.iss.ctx).pend ++ new ∧
      ∀ w ∈ new, w.slot = s1.iss.slot ∧ w.pc = s1.iss.pc ∧
        ((∃ x l, (x, l) ∈ o.writes ∧ w.payload.cls = some x.code.1 ∧ w.reg = x.code.2 ∧ w.land = s1.iss.cycle + l) ∨
          (w.payload.isVec = true ∧ 56 ≤ w.reg) ∨ (w.payload.cls = some 0 ∧ w.reg = 0))

/-- O50 (R170, R180 to R182, R380). "A result lands at issue cycle c + L": at the landing of a running context whose one due
write has arrived, the write replaces its register alone, with memory, the control registers and every other register as they
were, and the later ones wait; a push fills the next slot of its ring, waits while a ring with a stream is full, or faults where
the ring takes none; a fault stops the context with the code and the slot it holds. Of two writes of one register that are due,
that of the later landing cycle, or of the later issue, remains. -/
def Obligations.ResultsLand : Prop :=
  ∀ (s : State) (c : Nat) (w : Pend) (later : List Pend), s.ev = .n c 0 0 → (s.ctx c).phase = .ready →
    (s.core (coreOf c)).running = some (c % 4) → w.land ≤ (s.ctx c).cycles → w.arrived = true →
    (∀ y ∈ later, (s.ctx c).cycles < y.land) →
    ((s.ctx c).pend = w :: later → ∃ t, exec .resultLanding s = .next t ∧
      ((∃ v, w.payload = .scalar v) ∨ (∃ l, w.payload = .lanes l ∧ w.reg < 56) ∨ (∃ l, w.payload = .pred l) ∨
        (∃ f, w.payload = .fmt f) → SameMemory s t ∧ SameControls s t ∧ SameEngines s t ∧
          (∀ e, e ≠ c → t.ctx e = s.ctx e) ∧ (t.ctx c).loops = (s.ctx c).loops ∧ (t.ctx c).pc = (s.ctx c).pc ∧
          (t.ctx c).queues = (s.ctx c).queues ∧ (t.ctx c).phase = .ready) ∧
      (∀ v, w.payload = .scalar v → (t.ctx c).pend = later ∧ (w.reg ≠ 0 → (t.ctx c).rg w.reg = v) ∧ (t.ctx c).rg 0 = 0 ∧
        (∀ r, r ≠ w.reg → (t.ctx c).rg r = (s.ctx c).rg r) ∧ (t.ctx c).v = (s.ctx c).v ∧ (t.ctx c).k = (s.ctx c).k ∧
        (t.ctx c).fmt = (s.ctx c).fmt) ∧
      (∀ l, w.payload = .lanes l → w.reg < 56 → (l.map (fun p => p.1)).Nodup → (∀ p ∈ l, p.1 < 128) →
        (t.ctx c).pend = later ∧ (∀ p ∈ l, (t.ctx c).rv w.reg p.1 = p.2) ∧
        (∀ r j, j < 128 → (r ≠ w.reg ∨ j ∉ l.map (fun p => p.1)) → (t.ctx c).rv r j = (s.ctx c).rv r j) ∧
        (t.ctx c).g = (s.ctx c).g ∧ (t.ctx c).k = (s.ctx c).k ∧ (t.ctx c).fmt = (s.ctx c).fmt) ∧
      (∀ l, w.payload = .pred l → (l.map (fun p => p.1)).Nodup → (∀ p ∈ l, p.1 < 128) →
        (t.ctx c).pend = later ∧ (∀ p ∈ l, (t.ctx c).rk w.reg p.1 = p.2) ∧
        (∀ r j, j < 128 → (r ≠ w.reg ∨ j ∉ l.map (fun p => p.1)) → (t.ctx c).rk r j = (s.ctx c).rk r j) ∧
        (t.ctx c).g = (s.ctx c).g ∧ (t.ctx c).v = (s.ctx c).v ∧ (t.ctx c).fmt = (s.ctx c).fmt) ∧
      (∀ f, w.payload = .fmt f → (t.ctx c).pend = later ∧ (t.ctx c).fmt = f ∧ (t.ctx c).g = (s.ctx c).g ∧
        (t.ctx c).v = (s.ctx c).v ∧ (t.ctx c).k = (s.ctx c).k) ∧
      (∀ l, w.payload = .lanes l → 56 ≤ w.reg →
        let n := w.reg - 56
        let q := (s.ctx c).queue n
        let a := q.pos (q.head + q.count)
        (q.canPush = .go → (rgsOf a 512).any (s.inRefresh (dieOf c)) = false → Memory.wf s = true → a + 512 ≤ 2 ^ 32 →
          (t.ctx c).pend = later ∧ (t.ctx c).queue n = { q with count := q.count + 1 } ∧
          (∀ m, m ≠ n → (t.ctx c).queue m = (s.ctx c).queue m) ∧
          t.lbytes (dieOf c) a 512 = lanes.flatMap (fun j => leBytes 4 (mapGet Elem.zero l j).val.toNat) ∧
          (∀ e b, b < 2 ^ 32 → (e ≠ dieOf c ∨ b < a ∨ a + 512 ≤ b) → t.lb e b = s.lb e b) ∧
          (∀ key, t.mb key = s.mb key) ∧ (t.ctx c).g = (s.ctx c).g ∧ (t.ctx c).v = (s.ctx c).v ∧
          (t.ctx c).k = (s.ctx c).k ∧ (t.ctx c).fmt = (s.ctx c).fmt ∧ SameControls s t) ∧
        (q.canPush = .stall → t.ctx c = s.ctx c ∧ SameMemory s t) ∧
        (q.canPush = .bad → t = ((s.modCtx c (fun y => { y with pend := later })).freeTagOf (coreOf c) w.seq).stopCtx c
          ⟨0x0B, n, w.slot, none⟩ w.pc 0 false)) ∧
      (∀ st vec, w.payload = .fault st vec →
        t = ((s.modCtx c (fun y => { y with pend := later })).freeTagOf (coreOf c) w.seq).stopCtx c
          { st with slot := w.slot } w.pc 0 false)) ∧
    ∀ (y : Pend) (u v : W64), w.payload = .scalar u → y.payload = .scalar v → y.reg = w.reg → w.reg ≠ 0 → y.arrived = true →
      y.land ≤ (s.ctx c).cycles → (w.land < y.land ∨ (w.land = y.land ∧ w.seq < y.seq)) →
      ((s.ctx c).pend = w :: y :: later ∨ (s.ctx c).pend = y :: w :: later) →
      ∃ t, exec .resultLanding s = .next t ∧ (t.ctx c).rg w.reg = v ∧ (t.ctx c).pend = later

/-- O51 (R92, R135, R136, R163). Memory: a byte written reads back, a write leaves every other place alone, and the
canonical form is kept, in local memory, in device memory and behind a window; of the row groups, a burst makes those it
covers whole valid with age 0, and every other keeps its age and its validity. -/
def Obligations.MemoryReadsBack : Prop :=
  ∀ (s : State) (b : Byte), Memory.wf s = true →
    (∀ d a, Memory.wf (s.setLb d a b) = true ∧ (s.setLb d a b).lb d a = b ∧
      ∀ e c, e * 2 ^ 32 + c ≠ d * 2 ^ 32 + a → (s.setLb d a b).lb e c = s.lb e c) ∧
    (∀ k, Memory.wf (s.setMb k b) = true ∧ (s.setMb k b).mb k = b ∧
      ∀ j, j ≠ k → otherKey k j = false → (s.setMb k b).mb j = s.mb j) ∧
    ∀ (d a : Nat) (bs : List Byte) (burst : Bool), a + bs.length ≤ 2 ^ 32 →
      let t := s.localWrite d a bs burst
      Memory.wf t = true ∧ (∀ j, j < bs.length → t.lb d (a + j) = bs.getD j 0) ∧
      (∀ e c, c < 2 ^ 32 → (e ≠ d ∨ c < a ∨ a + bs.length ≤ c) → t.lb e c = s.lb e c) ∧ (∀ k, t.mb k = s.mb k) ∧
      (∀ e g, g < 2 ^ 23 → t.rg e g =
        if e = d ∧ burst = true ∧ a ≤ 512 * g ∧ 512 * g + 512 ≤ a + bs.length then
          ⟨true, 0, (s.rg e g).cls, false, false⟩ else s.rg e g)

/-- O52 (R137, R446). At reset every control of a context, a core, a die, the module and a partition holds its reset value, which
is 0 but for those of TEMPTAB, the grants, budgets and clocks of chapter 22, SAMPCTL, the host windows and FEATCAP, and every context's
CLKREQ asks for divisor 6 twice; no die belongs to a partition, every row group is invalid, every counter is
0, DIELIVE and both LINKLIVE registers are 0, no core runs a context and no issue is the next event. Values the manual does not give
(log entries 6 and 10), and BUCKET.FROZEN 0 beside FWOK 0 (log entry 11), are the model's choices, and so is the canonical form of
the memory. -/
def Obligations.ResetState : Prop :=
  let s := State.reset
  (∀ n, (∀ c, s.ctxCtl c n = ctlReset n) ∧ (∀ k, s.coreCtl k n = ctlReset n) ∧ (∀ d, s.dieCtl d n = ctlReset n) ∧
    s.modCtl n = ctlReset n ∧ ∀ p, s.partCtl p n = ctlReset n) ∧ (∀ c, (s.ctx c).clkreq = 0x0606) ∧
  (let values : List (Nat × Nat) := [(0x178, 45 + 900 * 2 ^ 16), (0x179, 55 + 700 * 2 ^ 16), (0x17A, 65 + 520 * 2 ^ 16),
    (0x17B, 75 + 380 * 2 ^ 16), (0x17C, 85 + 270 * 2 ^ 16), (0x17D, 95 + 190 * 2 ^ 16), (0x17E, 105 + 130 * 2 ^ 16), (0x17F, 255),
    (0x090, 4 + 7 * 2 ^ 4), (0x200, 2000 + 270 * 2 ^ 12 + 400 * 2 ^ 22), (0x201, 40 + 2 ^ 63), (0x202, 4 * 2 ^ 48 + 4 * 2 ^ 56),
    (0x203, 20000 + 2 ^ 63), (0x204, 6), (0x210, 4 + 8 * 2 ^ 6), (0x220, 30), (0x222, 30), (0x224, 30), (0x226, 30), (0x230, 1)]
   (∀ p ∈ values, (ctlReset p.1).toNat = p.2) ∧ ∀ n, n ∉ values.map (fun p => p.1) → ctlReset n = 0) ∧
  (∀ d, (s.die d).part = none) ∧ (∀ d g, (s.rg d g).valid = false) ∧ (∀ d n, s.counter d n = 0) ∧
  s.modCtl 0x1B2 = 0 ∧ s.modCtl 0x1B0 = 0 ∧ s.modCtl 0x1B1 = 0 ∧
  (∀ k, (s.core k).running = none) ∧ s.pick.2 ≠ .issueBundle ∧ Memory.wf s = true

/-- O53 (R92, R133, R135). The canonical form of memory, the model's own convention, is kept: from every state that has it,
every step answers a state that has it, so that equal memories are equal data. -/
def Obligations.MemoryFormKept : Prop := Kept (fun s => Memory.wf s = true)

/-! Events: what each does from any state in which it may happen; its operands stand in the latch `ev`. -/

/-- O54 (R359, R410, R437 to R442, R446, R447, R449). Reset, the start of a management core, features, partitions, sessions,
debug policies and the TDISP states. What a power-on reset keeps is log entry 72; that a boot's outcome, its links and its fuses are
operands, and that a negotiation ahead of READY waits in `requests`, is log entry 73; that a stop of an interface is a withdrawal in
whatever state the function is, is log entry 70: these are the model's choices. -/
def Obligations.StartAndPartitionEvents : Prop :=
  (∀ s : State, ∃ t, exec .powerOnReset s = .next t ∧ (∀ c n, t.ctxCtl c n = ctlReset n) ∧ (∀ k n, t.coreCtl k n = ctlReset n) ∧
    (∀ d n, t.dieCtl d n = ctlReset n) ∧ (∀ n, t.modCtl n = ctlReset n) ∧
    (∀ p n, t.partCtl p n = ctlReset n) ∧ (∀ c, (t.ctx c).clkreq = 0x0606) ∧ (∀ d n, (t.die d).part = none ∧ t.counter d n = 0) ∧
    (∀ d g, (t.rg d g).valid = false) ∧ t.hostMem = s.hostMem ∧ t.agenda = []) ∧
  (∀ (s : State) (d : Nat) (o : BootOutcome), s.ev = .boot d o → d < 64 → (s.die d).online = false →
    exec .managementCoreBoot s = .next s) ∧
  (∀ (s : State) (d : Nat) (o : BootOutcome), s.ev = .boot d o → d < 64 → (s.die d).online = true → (s.die d).ready = false →
    (s.die d).failCode = 0 →
    ∃ t, exec .managementCoreBoot s = .next t ∧
      (t.allReady = true → t.requests = [] ∧ ∀ x ∈ s.requests, ⟨.featureNegotiation, .req pf0 x false⟩ ∈ t.agenda) ∧
      (t.allReady = false → t.requests = s.requests) ∧
      (∀ step code, o.failed = some (step, code) → (t.die d).ready = false ∧ (t.die d).online = false ∧
        (t.die d).failStep = step ∧ (t.die d).failCode = code.toNat + 1 ∧ t.modCtl 0x1B2 = s.modCtl 0x1B2 ∧
        (t.vf pf0).status = .bootFailed d code) ∧
      (o.failed = none → (t.die d).ready = true ∧ bit (t.modCtl 0x1B2) d = true ∧
        (∀ l, l < 128 → bit (t.modCtl (0x1B0 + l / 64)) (l % 64) =
          (bit (s.modCtl (0x1B0 + l / 64)) (l % 64) || (decide (l ∈ linksOf d) && bit (if l < 64 then o.links0 else o.links1) (l % 64)))) ∧
        bit (t.dieCtl d 0x202) 63 = true ∧ t.modCtl 0x230 = BitVec.ofNat 64 (o.fuses.toNat % 128) ||| 1)) ∧
  (∀ (s : State) (x : W64), let t := s.setFeatures x
    t.modCtl 0x232 = x ∧ (bit x 3 = false → ∀ p, bit (t.partCtl p 0x1D5) 63 = false) ∧
    (bit x 4 = false → ∀ p, bit (t.partCtl p 0x1D8) 63 = false) ∧
    (∀ d, d < 64 → t.floorOf d = t.floorNow d ∧ t.floorNow d =
      max (if bit (t.dieCtl d 0x200) 63 = true ∧ bit x 1 = true then 4 else 6)
        (if s.band d = 5 then 7 else if s.band d = 6 then 8 else 4))) ∧
  (∀ (s : State) (n : Nat) (x : BitVec 896) (tee : Bool), s.ev = .req n x tee →
    let r := x.toNat % 2 ^ 128
    let fits : Prop := r < 128 ∧ BitVec.ofNat 64 r &&& ~~~(s.modCtl 0x230) = 0
    (s.allReady = false → exec .featureNegotiation s =
      .next ({ s with requests := s.requests ++ [x] }.answer pf0 .waiting [])) ∧
    (s.allReady = true → s.features = true → exec .featureNegotiation s = .next (s.answer pf0 .locked [])) ∧
    (s.allReady = true → s.features = false → fits →
      exec .featureNegotiation s = .next ((s.setFeatures (BitVec.ofNat 64 r)).answer pf0 .accepted [])) ∧
    (s.allReady = true → s.features = false → ¬ fits →
      exec .featureNegotiation s = .next (s.answer pf0 .unsupported []))) ∧
  (∀ (s : State) (n : Nat) (x : BitVec 896) (tee : Bool), s.ev = .req n x tee →
    let r := assignReq x
    (∀ ds, shapeDies r.shape r.x0 r.y0 = some ds →
      let good : Prop := r.reserved = false ∧ r.op = 1 ∧ (∀ d ∈ ds, (s.die d).part = none) ∧ mapFind s.parts r.part = none ∧
        s.vfsBad r = false
      (good → ∃ t, exec .partitionAssign s = .next t ∧ (t.part r.part).dies = ds ∧ (t.part r.part).ptag = r.ptag ∧
        (t.vf pf0).status = .accepted ∧ (∀ i ∈ maskVfs r.vfs, (t.vf i).part = some r.part ∧ (t.vf i).tdisp = .unlocked ∧
          (t.vf i).tenantKey = none ∧ (t.vf i).ide = none) ∧ ∀ d ∈ ds, (t.die d).part = some r.part ∧ (t.die d).tasks = [] ∧
          bit (t.dieCtl d 0x100) 4 = false ∧ ∀ g, g < 2 ^ 23 → (t.rg d g).valid = false) ∧
      (¬ good → exec .partitionAssign s = .next (s.answer pf0 .refused []))) ∧
    (shapeDies r.shape r.x0 r.y0 = none → exec .partitionAssign s = .next (s.answer pf0 .refused [])) ∧
    (∀ p, r.reserved = false → r.op = 2 → (shapeDies r.shape r.x0 r.y0).isSome → mapFind s.parts r.part = some p →
      s.vfsBad r = false → s.refetching r.part = false → ∃ t, exec .partitionWithdraw s = .next t ∧
        (t.vf pf0).status = .accepted ∧ (∀ i, (s.vf i).part = some r.part → (t.vf i).part = none ∧ (t.vf i).ide = none) ∧
        ∀ d ∈ p.dies, (t.die d).part = none ∧ (t.die d).tasks = [] ∧ bit (t.dieCtl d 0x100) 4 = false ∧
          ∀ g, g < 2 ^ 23 → (t.rg d g).valid = false) ∧
    (s.refetching r.part = true →
      exec .partitionWithdraw s = .next (s.after 6 .partitionWithdraw s.ev)) ∧
    (s.refetching r.part = false →
      (r.reserved = true ∨ r.op ≠ 2 ∨ (shapeDies r.shape r.x0 r.y0) = none ∨ mapFind s.parts r.part = none ∨
        s.vfsBad r = true) →
      exec .partitionWithdraw s = .next (s.answer pf0 .refused []))) ∧
  (∀ (s : State) (i d : Nat) (m : SpdmMsg), s.ev = .spdm i m → i ≤ 65 → d < 64 →
    ((s.die d).ready = true ∨ 1 < (s.die d).failStep) → ∃ t, exec .spdmRequest s = .next t ∧
      (m = .getMeasurements → (t.vf i).status = .success ∧ (t.vf i).answer = s.measurements i) ∧
      (∀ x, m = .keyExchange x → (t.vf i).session = some x) ∧
      (∀ key, m = .deliverKey key →
        if (s.vf i).session.isSome ∧ (s.vf i).part.any (fun p => (s.tenantKeyOf p).isNone) = true then
          (t.vf i).tenantKey = some key ∧ (t.vf i).status = .accepted
        else (t.vf i).tenantKey = (s.vf i).tenantKey ∧ (t.vf i).status = .rejected) ∧
      (∀ key, m = .programIde key →
        if (s.vf i).session.isSome then (t.vf i).ide = some key ∧ (t.vf i).status = .accepted
        else (t.vf i).ide = (s.vf i).ide ∧ (t.vf i).status = .rejected) ∧
      (∀ key p, m = .macKey key → (s.vf i).part = some p →
        if (s.vf i).session.isSome then (t.part p).macKey = some key ∧ (t.vf i).status = .accepted
        else t.part p = s.part p ∧ (t.vf i).status = .rejected) ∧
      (m = .endSession → (t.vf i).session = none) ∧
      (∀ slot, m = .getCertificate slot → (t.vf i).status = if slot < 2 then .success else .rejected)) ∧
  (∀ (s : State) (i : Nat) (m : SpdmMsg), s.ev = .spdm i m →
    (∀ d, d < 64 → (s.die d).ready = false ∧ (s.die d).failStep ≤ 1) → exec .spdmRequest s = .next s) ∧
  (∀ (s : State) (i : Nat) (x : BitVec 896) (tee : Bool), s.ev = .req i x tee →
    ((s.vf i).closed tee = true → exec .debugPolicy s = .next (s.answer i .unsupportedRequest [])) ∧
    ((s.vf i).closed tee = false →
    let p := (s.vf i).part.getD 64
    let new : W64 := BitVec.ofNat 64 (x.toNat / 2 ^ 32 % 16)
    (bit (s.modCtl 0x232) 6 = false → exec .debugPolicy s = .next (s.answer i .rejected [])) ∧
    (bit (s.modCtl 0x232) 6 = true →
      (∃ t, exec .debugPolicy s = .next t ∧ (t.vf i).status = if s.policyOk i x then .accepted else .rejected) ∧
      ((bit (s.partCtl p 0x212) 0 = true → bit new 0 = true) → (bit (s.partCtl p 0x212) 1 = true → bit new 1 = true) →
        exec .debugPolicy s = .next (if s.policyOk i x then
            ((s.setPartCtl p 0x212 new).modPart p (fun y => { y with policy := some x })).answer i .accepted []
          else s.answer i .rejected []))))) ∧
  ∀ (s : State) (i b c : Nat), s.ev = .n i b c → i < 64 →
    ((s.vf i).tdisp = .unlocked → ∃ t, exec .lockInterface s = .next t ∧ (t.vf i).tdisp = .locked ∧ t.features = true ∧
      ∀ j, j ≠ i → t.vf j = s.vf j) ∧
    ((s.vf i).tdisp = .locked → ∃ t, exec .startInterface s = .next t ∧ (t.vf i).tdisp = .run ∧ ∀ j, j ≠ i → t.vf j = s.vf j) ∧
    ((s.vf i).tdisp ≠ .unlocked → exec .lockInterface s = .next s) ∧
    ((s.vf i).tdisp ≠ .locked → exec .startInterface s = .next s) ∧
    ((s.vf i).part.any s.refetching = false → ∃ t, exec .stopInterface s = .next t ∧ (t.vf i).tdisp = .unlocked) ∧
    ((s.vf i).part.any s.refetching = true → exec .stopInterface s = .next (s.after 6 .stopInterface s.ev))

/-- O55 (R131, R139, R140, R160, R161, R284, R306, R353, R395, R423, R432, R440). The host's accesses through BAR 2, the writes of
control registers by the driver and the management cores, and the doorbells and the service of the queues. The model's choices in it:
the root by which BAR 2 is translated (log entry 69), a driver's write while a function is locked (log entry 70), the order of the
doorbell words (log entry 96), that a held write is looked at again (log entry 61), and the turns of writes from outside the device
at lines with requests waiting (log entry 118). What a write leaves in a register is O20. -/
def Obligations.HostEvents : Prop :=
  (∀ (s s1 : State) (i d : Nat) (va : W64) (size : Nat) (data : List Byte) (tee : Bool) (ks : List Nat) (leaf : Nat),
    s.ev = .host i va size data tee → s.barDie i va tee = some d →
    (512 < data.length → exec .hostBar2Write s = .next (s.answer i .unsupportedRequest [])) ∧
    (data.length ≤ 512 → s.hostWaits s.ev (s.cutHolds d va.toNat data.length) = true →
      exec .hostBar2Write s = .next (s.holdHost .hostBar2Write s.ev)) ∧
    (size < 2 ^ 64 → s.hostWaits s.ev false = true → exec .hostBar2Read s = .next (s.holdHost .hostBar2Read s.ev)) ∧
    (size < 2 ^ 64 → s.hostWaits s.ev false = false → ∀ s2, s.hostTurn i d va size data tee = some s2 →
      exec .hostBar2Read s = .next s2) ∧
    (let z := size % 2 ^ 64
     2 ^ 64 ≤ size ∨ (s.hostWaits s.ev false = false ∧ s.hostTurn i d va size data tee = none) →
      (s.span d none va.toNat z .read = (s1, .ok ks leaf) → s1.uncorr ks = false →
        exec .hostBar2Read s = .next ((s1.cacheFill ks false).answer i .success (s1.mbytes ks))) ∧
      (∀ a kind lvl, s.span d none va.toNat z .read = (s1, .bad a kind lvl) →
        exec .hostBar2Read s = .next (s1.answer i .unsupportedRequest []))) ∧
    (data.length ≤ 512 → s.hostWaits s.ev (s.cutHolds d va.toNat data.length) = false →
      (s.span d none va.toNat data.length .write = (s1, .ok ks leaf) →
        ∀ s2 turns, s1.takeTurns (fun _ => 73) ks = (s2, turns) →
        let way := 16385 + portOfFunction i
        let behind := turns ++ (s2.lateOps.filter (fun o => decide (o.ctx = way))).map (fun o => o.id)
        (behind = [] → exec .hostBar2Write s = .next ((s2.storeNow ks data).answer i .success [])) ∧
        (behind ≠ [] → exec .hostBar2Write s =
          .next ((s2.fresh.postpone way s2.seq behind (.store ks data)).answer i .success []))) ∧
      (∀ a kind lvl, s.span d none va.toNat data.length .write = (s1, .bad a kind lvl) →
        exec .hostBar2Write s = .next (s1.answer i .unsupportedRequest [])))) ∧
  (∀ (s s1 : State) (i d : Nat) (va : W64) (size : Nat) (data : List Byte) (tee : Bool) (ks : List Nat) (leaf : Nat),
    s.span d none va.toNat size .read = (s1, .ok ks leaf) →
    (∀ k ∈ ks, k < hostBase → ∀ r ∈ (s.die (homeOf k)).atomics, r.line ≠ placeOf k / 64) →
    s.hostTurn i d va size data tee = none) ∧
  (∀ (s : State) (a : EvArg) (held : Bool), s.hostWaits a held = true ↔ held = true ∨
    (∃ h ∈ s.hostHeld, hostPort h.arg = hostPort a) ∨ ∃ o ∈ s.lateOps, 16385 ≤ o.ctx ∧ hostPort a = some (o.ctx - 16385)) ∧
  (∀ (s : State) (i : Instr) (a : EvArg), (s.holdHost i a).hostHeld = s.hostHeld ++ [⟨i, a⟩] ∧
    (s.hostHeld = [] → (s.now + 6, ⟨.hostBar2Write, .none⟩) ∈ (s.holdHost i a).timers) ∧ (s.holdHost i a).mem = s.mem) ∧
  (∀ s : State, s.ev = .none → exec .hostBar2Write s = .next { s with hostHeld := [], agenda := s.hostHeld ++ s.agenda }) ∧
  (∀ (s : State) (i : Nat) (va : W64) (size : Nat) (data : List Byte) (tee : Bool), s.ev = .host i va size data tee →
    s.barDie i va tee = none → exec .hostBar2Read s = .next (s.answer i .unsupportedRequest []) ∧
      exec .hostBar2Write s = .next (s.answer i .unsupportedRequest [])) ∧
  (∀ (s s1 : State) (i d : Nat) (va : W64) (o : HostAtomic) (tee : Bool) (ks : List Nat) (leaf : Nat),
    s.ev = .hostAtomic i va o tee → s.barDie i va tee = some d →
    let (size, op, x, cmp) := hostAtomicOp o
    (s.hostWaits s.ev (s.cutHolds d va.toNat size) = true → exec .hostAtomicop s = .next (s.holdHost .hostAtomicop s.ev)) ∧
    (s.hostWaits s.ev (s.cutHolds d va.toNat size) = false →
      ((size ≠ 4 ∧ size ≠ 8) ∨ va.toNat % size ≠ 0 → exec .hostAtomicop s = .next (s.answer i .unsupportedRequest [])) ∧
      ((size = 4 ∨ size = 8) → va.toNat % size = 0 → s.span d none va.toNat size .atomic = (s1, .ok ks leaf) → ∃ t,
        exec .hostAtomicop s = .next t ∧ (t.vf i).status = .waiting ∧ t.mem = s1.mem ∧
        (t.die (homeOf (ks.headD 0))).atomics = (s1.die (homeOf (ks.headD 0))).atomics ++
          [⟨s1.seq, .function i, op, size, ks.headD 0, x, cmp, 73, s1.copyCycle (homeOf (ks.headD 0))⟩]))) ∧
  (∀ (s s1 : State) (home i : Nat) (r : AtomicReq) (old : W64), s.ev = .n home 0 0 → r.asker = .function i →
    homeOf r.key = home → (s.die home).atomics = [r] → r.cycle < s.copyCycle home → r.op ≤ 10 →
    (s.modDie home (fun x => { x with atomics := [] })).atomicAt r.key r.size r.op r.x r.cmp =
      (s1, some old) →
    exec .atomicEnginePerform s = .next (s1.answer i .success (leBytes r.size old.toNat)).stirLate) ∧
  (∀ (s : State) (w : Writer) (d k slot n : Nat) (x : W64), s.ev = .ctl w d k slot n x → d < 64 → k < 64 → slot < 4 →
    (¬ (w = .priv ∧ frozenCtl n = true ∧ s.dieLocked d = true) →
      let t := s.ctlWrite w (ctlCtx d k slot) n x
      ((ctlScope n).isSome → exec .controlRegisterWrite s = .next t) ∧
      (0x170 ≤ n → n ≤ 0x177 → exec .lclassWrite s = .next t) ∧ (0x178 ≤ n → n ≤ 0x17F → exec .temptabWrite s = .next t) ∧
      (0x060 ≤ n → n ≤ 0x063 → exec .layoutWrite s = .next t) ∧ (n = 0x181 → exec .sscarveWrite s = .next t) ∧
      (n = 0x078 → exec .mxstatWrite s = .next t) ∧ (n = 0x088 → exec .phctlWrite s = .next t) ∧
      (n = 0x213 → exec .debugRelease s = .next t)) ∧
    (w = .priv → frozenCtl n = true → s.dieLocked d = true → exec .controlRegisterWrite s = .next (s.tdispError d))) ∧
  (∀ (s : State) (q : QueueRef), s.ev = .queue q → bit (s.queueCtl q) 63 = true →
    exec .doorbellWrite s = .next (s.dueOnce .queueSlotTake (.queue q)) ∧
    exec .queuePollTimer s = .next ((s.dueOnce .queueSlotTake (.queue q)).after 60000 .queuePollTimer (.queue q))) ∧
  (∀ (s : State) (i off : Nat) (tee : Bool), s.ev = .bell i off tee → i < 64 →
    ((s.vf i).closed tee = true → exec .doorbellWrite s = .next (s.answer i .unsupportedRequest [])) ∧
    (∀ q, (s.vf i).closed tee = false → s.bellQueue i off = some q → bit (s.queueCtl q) 63 = true →
      exec .doorbellWrite s = .next (s.dueOnce .queueSlotTake (.queue q)))) ∧
  (∀ (s s1 : State) (d n : Nat) (desc : QDesc) (slot : Nat) (bs : List Byte) (q : QueueRef), s.ev = .queue q →
    q = .launch d n ∨ q = .coll d n → s.lookSlot q = (s1, .ready desc slot bs) →
    let st := (s1.qstate q).getD ⟨desc.rd, [], 0⟩
    exec .queueSlotTake s = .next (((s1.setQstate q { st with taken := slot + 1 }).due
      (slotEvent q (pkKind (wordAt bs 0))) (.n d n slot)).dueOnce .queueSlotTake (.queue q))) ∧
  ∀ (s s1 : State) (d e j : Nat) (desc : QDesc) (slot : Nat) (bs : List Byte), s.ev = .queue (.copy d e j) →
    s.intakeFree d e = true → (∀ c ∈ (s.cengine (d * 4 + e)).waiting, s.intakeWaiter c = false) →
    s.lookSlot (.copy d e j) = (s1, .ready desc slot bs) →
    let q : QueueRef := .copy d e j
    let st := (s1.qstate q).getD ⟨desc.rd, [], 0⟩
    let s2 := s1.setQstate q { st with taken := slot + 1 }
    let ws := (List.range 8).map (fun i => wordAt bs (8 * i))
    exec .queueSlotTake s = .next ((if pktMalformed ws then s2.endSlot q slot (BitVec.ofNat 64 (0x10 * 256)) true
      else s2.intakePut (d * 4 + e) (newPacket s2.seq ws none (some (j, slot)) (bits (s2.queueCtl q) 62 60) none 0
        false)).dueOnce .queueSlotTake (.queue q))

/-- O56 (R64, R76, R87, R95, R109, R117, R118, R123, R257, R261, R284, R285, and with them R62 to R66, R77 to R99, R106 to R125,
R149, R256 to R265, R276 to R286). Replies and walks, the turns of a port, the slots of the Turret, the packets of the copy engines
with the bytes they read, convert and write and what follows their completion, and the operations of the plane engine with what a K
step reads, forms and accumulates, and what a change of owner settles, writes and loads. The times and the turns at which these
events fall are the model's choice where the manual gives nominal figures only (log entry 22), and so is what a change of owner
writes (log entry 44); so are the elements of an AP block from VC on (log entry 105), the port that serves a direct access over two
pages (109), the handler of a packet whose launch has ended, and its DIDX (111), and the ways and turns of late requests (118). -/
def Obligations.EngineEvents : Prop :=
  (∀ (s : State) (c seq : Nat), s.ev = .n c seq 1 → exec .lateItemArrival s = .next (State.settleLate s.lateOps.length s)) ∧
  (∀ (s : State) (n : Nat), (s.lateOps.find? (fun o => !s.anyOpen o.behind) = none → State.settleLate n s = s) ∧
    ∀ o, s.lateOps.find? (fun o => !s.anyOpen o.behind) = some o → State.settleLate (n + 1) s =
      State.settleLate n ({ s with lateOps := s.lateOps.filter (fun q => decide (q.id ≠ o.id)) }.performLate o)) ∧
  (∀ (s : State) (o : LateOp),
    (∀ keys size sg vec, o.act = .load keys size sg vec → s.performLate o = s.loadNow o.ctx o.id keys size sg vec) ∧
    (∀ keys bs, o.act = .store keys bs → s.performLate o = s.storeNow keys bs) ∧
    (∀ r, o.act = .direct r → s.performLate o = s.atPort r) ∧
    (∀ r, o.act = .atomic r → s.performLate o = s.askAtomic { r with cycle := s.copyCycle (homeOf r.key) }) ∧
    (∀ e n v, o.act = .count e n v → s.performLate o = s.addCounter e n v) ∧
    (∀ x, o.act = .event x → s.performLate o = s.due x.ev x.arg)) ∧
  (∀ (s : State) (c seq b h : Nat), s.ev = .n c seq b → b ≠ 1 → s.fillHome c seq = some h →
    (s.urgentLine h = true ∨ s.portTurn h 0 = false → exec .lateItemArrival s =
      .next ((s.due .lateItemArrival (.n c seq 0)).dueOnce .portRequestService (.n h 0 0))) ∧
    (s.urgentLine h = false → s.portTurn h 0 = true → ∃ t, exec .lateItemArrival s = .next t ∧ (t.die h).grant = 0 ∧
      (t.die h).fills = (s.die h).fills.filter (fun f => decide (f ≠ (c, seq))) ∧
      (t.ctx c).pend = ((s.itemArrives c seq).ctx c).pend)) ∧
  (∀ (s : State) (c seq b : Nat), s.ev = .n c seq b → b ≠ 1 → s.fillHome c seq = none → ∃ t, exec .lateItemArrival s = .next t ∧
    (∀ w ∈ (s.ctx c).pend, w.seq = seq → (∀ v, w.payload ≠ .await v) → w.payload ≠ .state → (∀ r, w.payload ≠ .fut r) →
      (∀ e r, w.payload ≠ .cpyw e r) → ({ w with arrived := true } : Pend) ∈ (t.ctx c).pend) ∧
    (t.ctx c).pend.length = (s.ctx c).pend.length ∧ (∀ e, e ≠ c → t.ctx e = s.ctx e) ∧ SameRegs s t ∧ SameMemory s t) ∧
  (∀ (s : State) (k tag b : Nat) (r : DirectReq), s.ev = .n k tag b →
    (s.answered k tag false = some r → exec .directReplyArrival s = .next (s.replyArrives r)) ∧
    (s.answered k tag true = some r → exec .directStoreAck s = .next (s.replyArrives r))) ∧
  (∀ (s : State) (h l : Nat), s.writeBackNext h = some l → ∃ x, (l, x) ∈ (s.die h).slice ∧ 1 ≤ x.queued ∧
    (x.queued < 2 → s.urgentLine h = false ∧ (s.die h).misses = 0)) ∧
  (∀ (s : State) (h b c l : Nat), s.ev = .n h b c → s.writeBackNext h = some l → s.portTurn h 0 = true →
    ((s.die h).grant ≠ 0 ∨ (∀ r ∈ (s.die h).ports, r.served.isSome) ∨ s.portTurn h 1 = false) →
      ∃ t, exec .portRequestService s = .next t ∧ (t.die h).grant = 0 ∧ (t.die h).ports = (s.die h).ports ∧
      (∀ x, mapFind (s.die h).slice l = some x → mapFind (t.die h).slice l = some { x with dirty := false, queued := 0 })) ∧
  (∀ (s : State) (h b c : Nat) (r : DirectReq), s.ev = .n h b c → s.portTurn h 1 = true →
    (s.writeBackNext h = none ∨ (s.die h).grant = 0) → (s.die h).ports.find? (fun x => x.served.isNone) = some r →
    let u := s.serveReq r
    let s3 := ((u.1.modDie h (fun x => { x with ports := x.ports.map (fun q =>
      if q.core = r.core ∧ q.tag = r.tag then u.2 else q) })).stirLate.due
        (if r.store.isSome then .directStoreAck else .directReplyArrival) (.n r.core r.tag 0)).granted h 1
    exec .portRequestService s = .next (if s3.portWork h then
      s3.dueOnce .portRequestService (.n h 0 0) else s3)) ∧
  (∀ (s : State) (h b c : Nat), s.ev = .n h b c → s.writeBackNext h = none → 0 < (s.die h).misses → s.portTurn h 0 = true →
    ((∀ r ∈ (s.die h).ports, r.served.isSome) ∨ s.portTurn h 1 = false) → ∃ t, exec .portRequestService s = .next t ∧
      (t.die h).grant = 0 ∧ (t.die h).misses = (s.die h).misses - 1 ∧ (t.die h).ports = (s.die h).ports ∧
      (t.die h).slice = (s.die h).slice) ∧
  (∀ (s : State) (k a : Nat) (x : W64), s.ev = .word k a x → x.toNat < 2 ^ 56 →
    (a = 0 → exec .pageWalk s = .next (s.walk (dieOfCore k) (some k) x.toNat .read).1) ∧
    (a = 1 → exec .pageWalk s = .next (s.walk (dieOfCore k) (some k) x.toNat .write).1) ∧
    (a = 2 → exec .pageWalk s = .next (s.walk (dieOfCore k) (some k) x.toNat .fetch).1) ∧
    (3 ≤ a → exec .pageWalk s = .next (s.walk (dieOfCore k) (some k) x.toNat .atomic).1)) ∧
  (∀ (s s1 : State) (c qn b : Nat) (x : Stream), s.ev = .n c qn b → s.streamLive c qn = some x →
    let q := (s.ctx c).queue qn
    let later (i : Instr) : State := s.afterCycles (dieOf c) (s.copyDiv (dieOf c)) 1 i (.n c qn 0)
    (x.outbound = false → q.count < q.nslot → x.next < x.total → s.forkWaits x = true →
      exec .turretSlotLoad s = .next (later .turretSlotLoad)) ∧
    (x.outbound = true → 0 < q.count → x.next < x.total → s.forkWaits x = true →
      exec .turretSlotStore s = .next (later .turretSlotStore)) ∧
    (s.forkWaits x = true ↔ ∃ n ∈ x.behind, s.anyOpen [n] = true) ∧
    (s.forkWaits x = false → x.outbound = false → q.count < q.nslot → x.next < x.total →
      (∀ va kind l, s.span x.die none (x.slotVa x.next) 512 .read = (s1, .bad va kind l) →
        exec .turretSlotLoad s = .next (s1.suspendStream c qn x va kind 0)) ∧
      (∀ ks l, s.span x.die none (x.slotVa x.next) 512 .read = (s1, .ok ks l) →
        let home := homeOf (ks.headD 0)
        let lost := ks.any (s1.homeLost x.die)
        (lost = true → exec .turretSlotLoad s = .next (s1.endStream c qn 5)) ∧
        let busy := (rgsOf (q.pos (q.head + q.count)) 512).any (s.inRefresh (dieOf c))
        (lost = false → busy = true → exec .turretSlotLoad s = .next (s.after 6 .turretSlotLoad (.n c qn 0))) ∧
        (lost = false → busy = false → s.portTurn home 2 = false →
          exec .turretSlotLoad s = .next (s.awaitPort home .turretSlotLoad c qn)) ∧
        (lost = false → busy = false → s.portTurn home 2 = true → s1.uncorr ks = true →
          exec .turretSlotLoad s = .next ((s1.granted home 2).endStream c qn 4)) ∧
        (lost = false → busy = false → s.portTurn home 2 = true → s1.uncorr ks = false → ∃ t, exec .turretSlotLoad s = .next t ∧
          ((t.ctx c).queue qn).count = q.count + 1 ∧ ((t.ctx c).queue qn).head = q.head ∧
          (((t.ctx c).queue qn).closed = true ↔ q.closed = true ∨ x.total = x.next + 1) ∧
          ((t.ctx c).queue qn).stream = some { x with next := x.next + 1 } ∧
          ∀ j, t.lb (dieOf c) j = (s1.localWrite (dieOf c) (q.pos (q.head + q.count)) (s1.mbytes ks) true).lb (dieOf c) j))) ∧
    (s.forkWaits x = false → x.outbound = true → 0 < q.count → x.next < x.total →
      (rgsOf (q.pos q.head) 512).any (s.inRefresh (dieOf c)) = true →
      exec .turretSlotStore s = .next (s.after 6 .turretSlotStore (.n c qn 0))) ∧
    (s.forkWaits x = false → x.outbound = true → 0 < q.count → x.next < x.total →
      (rgsOf (q.pos q.head) 512).any (s.inRefresh (dieOf c)) = false →
      (∀ st, s.readFault (dieOf c) [q.pos q.head] 512 = some st →
        exec .turretSlotStore s = .next (s.endStream c qn (if st.code = 0x08 then 6 else 4))) ∧
      (s.readFault (dieOf c) [q.pos q.head] 512 = none → s.cutHolds x.die (x.slotVa x.next) 512 = true →
        exec .turretSlotStore s = .next (s.afterCycles (dieOf c) (s.copyDiv (dieOf c)) 1 .turretSlotStore (.n c qn 0)))) ∧
    (s.forkWaits x = false → x.outbound = true → 0 < q.count → x.next < x.total →
      (rgsOf (q.pos q.head) 512).any (s.inRefresh (dieOf c)) = false →
      s.readFault (dieOf c) [q.pos q.head] 512 = none →
      s.cutHolds x.die (x.slotVa x.next) 512 = false →
      ∀ ks l, s.span x.die none (x.slotVa x.next) 512 .write = (s1, .ok ks l) →
        (ks.any (s1.homeLost x.die) = true → exec .turretSlotStore s = .next (s1.endStream c qn 5)) ∧
        (ks.any (s1.homeLost x.die) = false → s.portTurn (homeOf (ks.headD 0)) 2 = true →
          ∃ t, exec .turretSlotStore s = .next t ∧ ((t.ctx c).queue qn).count = q.count - 1 ∧
          ((t.ctx c).queue qn).head = (q.head + 1) % max q.nslot 1 ∧
          ((t.ctx c).queue qn).stream = some { x with next := x.next + 1 }))) ∧
  (∀ (s s1 : State) (c qn b : Nat) (x : Stream), s.ev = .n c qn b → ((s.ctx c).queue qn).stream = some x →
    (x.suspended = true → ∀ ks l, s.span x.die none (x.slotVa x.next) 512 (if x.outbound then .write else .read) =
      (s1, .ok ks l) → exec .streamRetry s = .next ((s1.modStream c qn (fun y => { y with suspended := false })).dueOnce
        (if x.outbound then .turretSlotStore else .turretSlotLoad) (.n c qn 0))) ∧
    (((s.ctx c).queue qn).closed = true → (if x.outbound then ((s.ctx c).queue qn).count = 0 else x.next = x.total) →
      exec .streamCompletion s = .next (s.endStream c qn 0))) ∧
  (∀ (s : State) (en b c : Nat) (p : Packet), s.ev = .n en b c →
    let e := (s.redonate).cengine en
    e.running < 16 → (∀ q ∈ e.packets, q.phase ≠ .waitSlot) → pickStart (s.redonate.startWaits en) [] e.packets none = some p →
    let s1 := s.redonate.modPacket en p.ref (fun q => { q with phase := .running })
    (pkKind p.h ≠ 1 → exec .copyPacketStart s = .next
      (((s1.due .copyCompletion (.n en p.ref 0)).dueOnce .copyPacketStart (.n en 0 0)).lookQueues en)) ∧
    (pkKind p.h = 1 → pkMc p.h = false → exec .copyPacketStart s = .next
      (((s1.nextUnit en p.ref).dueOnce .copyPacketStart (.n en 0 0)).lookQueues en))) ∧
  (∀ (s s1 s2 : State) (en ref u : Nat) (p : Packet) (f : Formed), s.ev = .n en ref u → s.packet en ref = some p →
    p.phase = .running → p.code = 0 → u < p.nUnits → u ∉ p.units → pkKind p.h = 1 → pkMc p.h = false →
    s.unitTurn en ref u p = none → s.formUnit (en / 4) p u = (s1, .ok f) → s1.unitWaits (en / 4) p u = false →
      s1.writeTargets (en / 4) p u f.bytes p.targets = (s2, none) →
    exec .copyUnitWrite s = .next ((s2.modPacket en ref (fun q =>
      { q with units := u :: q.units, inex := q.inex || f.inex, rsv := q.rsv || f.rsv, turn := 0 })).nextUnit en ref)) ∧
  (∀ (p : Packet), let h := p.h
    p.unitLen = (if pkConv h = 1 then 8 * (pkNpl h + 3) else if pkConv h = 3 then 136 else 512) ∧
    p.rowLen = (if pkConv h = 1 then (p.rows + 63) / 64 * p.cols * (8 * (pkNpl h + 3)) else fmtRow (pkDfmt h) p.cols) ∧
    p.total = p.rowLen * (if pkConv h = 1 then 1 else p.rows) ∧
    ∀ u, 0 < p.rowLen →
      ((p.pieces u).map (fun x => x.len)).sum = min p.unitLen (p.total - u * p.unitLen) ∧
      ∀ i x, (p.pieces u)[i]? = some x → 0 < x.len ∧ x.off + x.len ≤ p.rowLen ∧
        x.row * p.rowLen + x.off = u * p.unitLen + (((p.pieces u).take i).map (fun y => y.len)).sum) ∧
  (∀ (p : Packet) (x : Piece),
    let src (k : Nat) := addrPlus p.src ((x.row : Int) * p.sstride + (k : Int))
    let ds := max (codeSize (pkDfmt p.h)) 1
    let ss := max (codeSize (pkSfmt p.h)) 1
    (pkConv p.h = 0 ∨ pkConv p.h = 3 → p.pieceSource x = (src x.off, x.len)) ∧
    (pkConv p.h = 2 → p.pieceSource x = (src (x.off / ds / 5), (x.off / ds + x.len / ds + 4) / 5 - x.off / ds / 5)) ∧
    (pkConv p.h = 4 ∨ pkConv p.h = 5 → p.pieceSource x = (src (x.off / ds * ss), x.len / ds * ss)) ∧
    ∀ row off, p.dstAt none row off = addrPlus p.dst ((row : Int) * p.dstStep + (off : Int)) ∧
      (pkConv p.h ≠ 3 → p.dstStep = p.dstride)) ∧
  (∀ (s s1 : State) (d : Nat) (p : Packet) (a n : Nat) (keys : List Nat) (leaf : Nat),
    (pkSsp p.h = true → a < 2 ^ 32 → s.localMapped d a n = true → (rgsOf a n).any (s.inRefresh d) = false →
      (s.readFault d [a] n = none → s.copyRead d p a n = (s, .ok ((List.range n).map (fun i => s.lb d (a + i))))) ∧
      (∀ st, s.readFault d [a] n = some st → s.copyRead d p a n = (s, .error (.code (if st.code = 0x08 then 0x23 else 0x21))))) ∧
    (pkSsp p.h = true → 2 ^ 32 ≤ a ∨ s.localMapped d a n = false → s.copyRead d p a n = (s, .error (.code 0x22))) ∧
    (pkSsp p.h = false → s.spanBy d none true a n .read = (s1, .ok keys leaf) →
      (s1.uncorr keys = true → s.copyRead d p a n = (s1, .error (.code 0x21))) ∧
      (s1.uncorr keys = false → s.copyRead d p a n = (s1.cacheFill keys false, .ok (keys.map s1.mb)))) ∧
    (∀ va k l, pkSsp p.h = false → s.spanBy d none true a n .read = (s1, .bad va k l) →
      s.copyRead d p a n = (s1, .error (.transl va k 0)))) ∧
  (∀ (s s1 : State) (d : Nat) (p : Packet) (x : Piece) (bs : List Byte),
    s.copyRead d p (p.pieceSource x).1 (p.pieceSource x).2 = (s1, .ok bs) →
    let ds := max (codeSize (pkDfmt p.h)) 1
    let ss := max (codeSize (pkSfmt p.h)) 1
    let mode := (rmode (pkRmode p.h)).getD .rne
    (pkConv p.h = 0 ∨ pkConv p.h = 3 → s.formPiece d p x = (s1, .ok ⟨bs, false, false⟩)) ∧
    (pkConv p.h = 2 → (∃ b ∈ bs, 243 ≤ b.toNat) → pkRsvfen p.h = true → s.formPiece d p x = (s1, .error (.code 0x20))) ∧
    (pkConv p.h = 2 → (pkRsvfen p.h = false ∨ ∀ b ∈ bs, b.toNat < 243) → ∃ f, s.formPiece d p x = (s1, .ok f) ∧
      f.inex = false ∧ (f.rsv = true ↔ ∃ b ∈ bs, 243 ≤ b.toNat) ∧
      f.bytes = (List.range (x.len / ds)).flatMap (fun i =>
        let j := x.off / ds + i
        let v := ternDigit (bs.getD (j / 5 - x.off / ds / 5) 0).toNat (j % 5)
        (convOne .rne 9 (pkDfmt p.h) (BitVec.ofInt 32 v).toNat).1)) ∧
    (pkConv p.h = 4 ∨ pkConv p.h = 5 →
      let l := (List.range (x.len / ds)).map (fun i => convOne mode (pkSfmt p.h) (pkDfmt p.h) (leNat ((bs.drop (i * ss)).take ss)))
      s.formPiece d p x = (s1, .ok ⟨l.flatMap (fun y => y.1), l.any (fun y => y.2) && decide (pkConv p.h = 4), false⟩))) ∧
  (∀ (mode : RMode) (sf df x : Nat),
    let v : FVal := match numFmt sf with
      | .float f => f.decode x
      | .int f => .fin (Ex.ofInt (intVal f x))
      | _ => .fin (Ex.ofInt 0)
    (∀ f, numFmt df = .float f → (convOne mode sf df x).1 = leBytes (f.width / 8) (finFloat f mode v) ∧
      ((convOne mode sf df x).2 = true ↔ v ≠ .nan ∧ FVal.eqv (f.decode (finFloat f mode v)) v = false)) ∧
    (∀ f, numFmt df = .int f → let y := (finInt f mode v).1
      (convOne mode sf df x).1 = leBytes (f.width / 8) (y % (2 ^ f.width : Nat)).toNat ∧
      ((convOne mode sf df x).2 = true ↔ FVal.eqv (.fin (Ex.ofInt y)) v = false))) ∧
  (∀ (s s1 s2 : State) (d : Nat) (p : Packet) (x : Piece) (l : List Piece) (y : Formed) (ys : List Formed) (e : Option CopyStop),
    (formAll (fun t z => t.formPiece d p z) s [] = (s, [], none)) ∧
    (s.formPiece d p x = (s1, .ok y) → formAll (fun t z => t.formPiece d p z) s1 l = (s2, ys, e) →
      formAll (fun t z => t.formPiece d p z) s (x :: l) = (s2, y :: ys, e)) ∧
    (∀ z, s.formPiece d p x = (s1, .error z) → formAll (fun t z => t.formPiece d p z) s (x :: l) = (s1, [], some z)) ∧
    ∀ u, pkConv p.h ≠ 1 → formAll (fun t z => t.formPiece d p z) s (p.pieces u) = (s2, ys, none) →
      s.formUnit d p u =
        (s2, .ok ⟨ys.flatMap (fun f => f.bytes), ys.any (fun f => f.inex), ys.any (fun f => f.rsv)⟩)) ∧
  (∀ (s s1 s2 : State) (d : Nat) (p : Packet) (u c r k : Nat) (l : List Nat) (y : FVal × Bool) (ys : List (FVal × Bool))
      (e : Option CopyStop) (bs : List Byte),
    let kb := u / max p.cols 1
    let all (t : State) (q : List Nat) := formAll (fun t j => t.planeElem d p (u % max p.cols 1) (64 * kb + j)) t q
    let sf := pkSfmt p.h
    let at_ (off : Nat) := addrPlus p.src ((r : Int) * p.sstride + (off : Int))
    let nibble (w : Nat) : Int := (BitVec.ofNat w (leNat bs / 2 ^ (w * (c % (8 / w))))).toInt
    all s [] = (s, [], none) ∧
    (s.planeElem d p (u % max p.cols 1) (64 * kb + k) = (s1, .ok y) → all s1 l = (s2, ys, e) →
      all s (k :: l) = (s2, y :: ys, e)) ∧
    (pkConv p.h = 1 → all s (List.range (min 64 (p.rows - 64 * kb))) = (s2, ys, none) →
      let f := apForm (pkNpl p.h + 1) (decide (sf ∈ [5, 0xB, 0xC, 0xD])) (ys.map (fun z => z.1))
      s.formUnit d p u = (s2, .ok ⟨f.1, f.2, ys.any (fun z => z.2)⟩)) ∧
    p.planeSource c r = (if sf = 0xB then (at_ (c / 2), 1) else if sf = 0xC then (at_ (c / 4), 1)
      else if sf = 0xD then (at_ (c / 5), 1) else (at_ (c * max (codeSize sf) 1), max (codeSize sf) 1)) ∧
    (s.copyRead d p (p.planeSource c r).1 (p.planeSource c r).2 = (s1, .ok bs) →
      (sf = 0xB → s.planeElem d p c r = (s1, .ok (.fin (Ex.ofInt (nibble 4)), false))) ∧
      (sf = 0xC → s.planeElem d p c r = (s1, .ok (.fin (Ex.ofInt (nibble 2)), false))) ∧
      (sf = 0xD → bs.any (fun b => decide (243 ≤ b.toNat)) && pkRsvfen p.h = false →
        s.planeElem d p c r = (s1, .ok (.fin (Ex.ofInt (ternDigit (bs.getD 0 0).toNat (c % 5))),
          bs.any (fun b => decide (243 ≤ b.toNat))))) ∧
      (∀ f, numFmt sf = .float f → s.planeElem d p c r = (s1, .ok (f.decode (leNat bs), false))) ∧
      (sf = 5 → s.planeElem d p c r = (s1, .ok (.fin (Ex.ofInt (BitVec.ofNat 8 (leNat bs)).toInt), false))))) ∧
  (∀ (n : Nat) (int : Bool) (xs : List FVal), 2 ≤ n → n ≤ 16 → xs.length ≤ 64 → (∀ e, .fin e ∈ xs → 0 < e.den) →
    let bs := (apForm n int xs).1
    let xb : Int := if int then (n : Int) - 2 else alignExp xs
    let hd := leNat (bs.take 8)
    let q (x : FVal) : Int := match x with
      | .fin e => if int then rint .rtz e else rint .rtz { e with exp := e.exp + ((n : Int) - 2 - xb) }
      | .inf neg => if neg then -1 else 1
      | .nan => 0
    let special : Prop := ∃ x ∈ xs, ∀ e, x ≠ .fin e
    bs.length = 8 * (n + 2) ∧ (BitVec.ofNat 10 hd).toInt = (BitVec.ofInt 10 xb).toInt ∧ hd / 2 ^ 10 % 16 = n - 1 ∧
    hd / 2 ^ 17 = xs.length ∧
    (hd / 2 ^ 14 % 4 = 0 ↔ ¬ special) ∧
    (hd / 2 ^ 14 % 4 = 1 ↔ special ∧ ∀ x ∈ xs, (∀ e, x ≠ .fin e) → x = .inf false) ∧
    (hd / 2 ^ 14 % 4 = 2 ↔ special ∧ ∀ x ∈ xs, (∀ e, x ≠ .fin e) → x = .inf true) ∧
    (hd.testBit 16 = true ↔ (apForm n int xs).2 = true) ∧
    ((apForm n int xs).2 = true ↔ int = false ∧ ∃ e, .fin e ∈ xs ∧
      FVal.eqv (.fin ⟨decide (q (.fin e) < 0), (q (.fin e)).natAbs, 1, xb - (n : Int) + 2⟩) (.fin e) = false) ∧
    ∀ k, k < 64 →
      (∀ i, i < n → (bs.getD (8 + 8 * i + k / 8) 0).getLsbD (k % 8) =
        (decide (k < xs.length) && (BitVec.ofInt n (q (xs.getD k .nan))).getLsbD i)) ∧
      ((bs.getD (8 + 8 * n + k / 8) 0).getLsbD (k % 8) = true ↔ k < xs.length ∧ ∀ e, xs.getD k .nan ≠ .fin e)) ∧
  (∀ (s s1 : State) (d : Nat) (p : Packet) (u : Nat) (rcv : Option Nat) (x : Piece) (bs : List Byte),
    let a := p.dstAt rcv x.row x.off
    let outside : Prop := 2 ^ 32 ≤ a ∨ s.localMapped d a x.len = false ∨
      (rcv.isSome = true ∧ (rcv ≠ some (a / 2 ^ 22) ∨ rcv ≠ some ((a + x.len - 1) / 2 ^ 22)))
    (pkDsp p.h = true → outside → s.writePiece d p u rcv x bs = (s, some (.code 0x22))) ∧
    (pkDsp p.h = true → ¬ outside → bs.length = x.len → Memory.wf s = true → ∃ t, s.writePiece d p u rcv x bs = (t, none) ∧
      (∀ e y, y < 2 ^ 32 → t.lb e y = if e = d ∧ a ≤ y ∧ y < a + x.len then bs.getD (y - a) 0 else s.lb e y) ∧
      (∀ key, t.mb key = s.mb key) ∧ SameRegs s t ∧
      (∀ g, g < 2 ^ 23 → t.rg d g = (if g ∈ p.coveredBy rcv x ∧ ∀ v ∈ p.unitsOf rcv x.row g, v = u ∨ v ∈ p.units
        then { s.rg d g with valid := true, age := 0, rfq := false, poison := false } else s.rg d g))) ∧
    (∀ va k l, pkDsp p.h = false → s.spanBy d none true a x.len .write = (s1, .bad va k l) →
      s.writePiece d p u rcv x bs = (s1, some (.transl va k 1))) ∧
    (∀ keys leaf, pkDsp p.h = false → s.spanBy d none true a x.len .write = (s1, .ok keys leaf) → keys.length = bs.length →
      keys.Nodup → (∀ j ∈ keys, ∀ l ∈ keys, otherKey j l = false) → Memory.wf s1 = true →
      ∃ t, s.writePiece d p u rcv x bs = (t, none) ∧ (∀ j, j < bs.length → t.mb (keys.getD j 0) = bs.getD j 0) ∧
        (∀ key, key ∉ keys → (∀ j ∈ keys, otherKey j key = false) → t.mb key = s1.mb key) ∧
        (∀ e y, t.lb e y = s1.lb e y) ∧ SameRegs s1 t)) ∧
  (∀ (s s1 : State) (d : Nat) (p : Packet) (u : Nat) (rcv : Option Nat) (x : Piece) (l : List Piece) (bs : List Byte)
      (t : List (Option Nat)),
    s.writePieces d p u rcv [] bs = (s, none) ∧ s.writeTargets d p u bs [] = (s, none) ∧
    (s.writePiece d p u rcv x (bs.take x.len) = (s1, none) →
      s.writePieces d p u rcv (x :: l) bs = s1.writePieces d p u rcv l (bs.drop x.len)) ∧
    (∀ e, s.writePiece d p u rcv x (bs.take x.len) = (s1, some e) → s.writePieces d p u rcv (x :: l) bs = (s1, some e)) ∧
    (s.writePieces d p u rcv (p.pieces u) bs = (s1, none) →
      s.writeTargets d p u bs (rcv :: t) = s1.writeTargets d p u bs t) ∧
    (pkMc p.h = false → p.targets = [none]) ∧
    (pkMc p.h = true → ∀ r, some r ∈ p.targets ↔ r ∈ p.rcvs ∧ r < 64)) ∧
  (∀ (s s1 : State) (en ref u : Nat) (p : Packet), s.ev = .n en ref u → s.packet en ref = some p →
    (p.turn = u + 1 → s.unitTurn en ref u p = none) ∧
    ((∀ k ∈ s.unitKeys (en / 4) p u, k < hostBase → ∀ r ∈ (s.die (homeOf k)).atomics, r.line ≠ placeOf k / 64) →
      s.unitTurn en ref u p = none) ∧
    (p.phase = .running → p.code = 0 → u < p.nUnits → u ∉ p.units → pkKind p.h = 1 → pkMc p.h = false →
      s.unitTurn en ref u p = some s1 → exec .copyUnitWrite s = .next s1 ∧ s1.mem = s.mem)) ∧
  (∀ (s : State) (en ref b i : Nat) (p : Packet), s.ev = .n en ref b → s.packet en ref = some p →
    (s.cengine en).freeSlot = some i → p.phase = .waitSlot →
    exec .suspendSlotTake s = .next (((s.modPacket en ref (fun q => { q with phase := .suspended i })).report 0x02 (en / 4)
      [en % 4, i, (p.status 0x02).toNat, p.tfva]).dueOnce .copyPacketStart (.n en 0 0))) ∧
  (∀ (s : State) (en i b : Nat), s.ev = .n en (2 ^ i) b → i < 8 → exec .ceresumeWrite s = .next (s.resumeSlot en i)) ∧
  (∀ (s : State) (en ref r : Nat) (p : Packet), s.ev = .n en ref r → s.packet en ref = some p → p.phase = .running →
    pkMc p.h = true → (p.w 6).toNat ≤ s.tstamp → r ∈ p.mask → r ∉ p.rcvs → (64 + r) ∉ p.rcvs →
    (s.windowsHit (en / 4 * 64 + r) p r).find? (fun n => bit (s.coreCtl (en / 4 * 64 + r) (0x050 + n)) 63) = none →
    let s2 := s.modPacket en ref (fun q => { q with rcvs := q.rcvs ++ [r] })
    exec .multicastLanding s = .next (if p.rcvs.length + 1 = p.mask.length then s2.nextUnit en ref else s2)) ∧
  (∀ (s : State) (en ref b : Nat) (p : Packet), s.ev = .n en ref b → s.packet en ref = some p → p.phase = .running →
    (p.code ≠ 0 → exec .copyCompletion s = .next (s.packetOut en p p.code)) ∧
    (p.code = 0 → pkKind p.h = 0 → exec .copyCompletion s = .next (s.packetOut en p 0)) ∧
    (p.code = 0 → pkKind p.h = 1 → p.prog < p.nUnits → exec .copyCompletion s = .next s) ∧
    (p.code = 0 → pkKind p.h = 1 → p.nUnits ≤ p.prog →
      let d := en / 4
      let s1 := if pkDsp p.h then (s.windowsUse d p).copyClass d p else s
      let s2 := s1.copyRegister d p
      let p' : Packet := { p with noreg := !s2.2 }
      let s3 := if pkCen p.h then s2.1.decCounter d (pkCnt p.h) else s2.1
      exec .copyCompletion s = .next ((if pkHen p.h then s3.copyHandler en p (p'.status 0) else s3).packetOut en p' 0)) ∧
    (p.code = 0 → pkKind p.h = 2 → pkHen p.h = false → exec .copyCompletion s =
      .next ((if pkCen p.h then s.decCounter (en / 4) (pkCnt p.h) else s).packetOut en { p with noreg := false } 0))) ∧
  (∀ (s : State) (d : Nat) (p : Packet),
    (pkMc p.h = false → s.windowsUse d p = s) ∧
    (pkMc p.h = true → ∀ k n, n < 4 → bit ((s.windowsUse d p).coreCtl k (0x050 + n)) 63 =
      (bit (s.coreCtl k (0x050 + n)) 63 || (p.rcvs.any (fun r => decide (r < 64) && decide (k = d * 64 + r) &&
        decide (n ∈ s.windowsHit k p r))))) ∧
    (∀ k rcv n, n ∈ s.windowsHit k p rcv ↔ n < 4 ∧ bit (s.coreCtl k (0x050 + n)) 62 = true ∧
      ∃ r, r < p.dstRows ∧ ∃ g ∈ rgsOf (p.dstAt (some rcv) r 0 % 2 ^ 22) p.rowLen,
        bits (s.coreCtl k (0x050 + n)) 12 0 ≤ g ∧ g < bits (s.coreCtl k (0x050 + n)) 12 0 + bits (s.coreCtl k (0x050 + n)) 45 32) ∧
    (bit (p.w 5) 59 = false → s.copyClass d p = s) ∧
    (bit (p.w 5) 59 = true → ∀ g, g < 2 ^ 23 →
      ((s.copyClass d p).rg d g).cls =
        if ∃ r ∈ p.targets, g ∈ p.allCovered r then bits (p.w 5) 58 56 else (s.rg d g).cls) ∧
    (∀ rcv g, g ∈ p.allCovered rcv ↔ ∃ r, r < (if p.oneRow then 1 else p.dstRows) ∧
      p.dstAt rcv r 0 ≤ g * 512 ∧ g * 512 + 512 ≤ p.dstAt rcv r 0 + (if p.oneRow then p.total else p.rowLen)) ∧
    (pkReg p.h = false → s.copyRegister d p = (s, true)) ∧
    (pkReg p.h = true → pkMc p.h = false →
      let a := p.dstAt none 0 0
      let r := s.lexMake d (bits (p.w 5) 23 0) (bits (p.w 5) 55 24) a p.total
      s.copyRegister d p = if p.total ≤ 2 ^ 22 ∧ s.localOk d a p.total = true ∧ s.validRange d a p.total = true
        then (r.1, decide (r.2 < 2)) else (s, false))) ∧
  (∀ (s : State) (en : Nat) (p : Packet) (status : W64),
    let t := s.copyHandler en p status
    let d := en / 4
    (∀ id l, p.launch = some id → s.findLaunch id = some l → l.2.failed ≠ none → t = s) ∧
    ((∀ id l, p.launch = some id → s.findLaunch id = some l → l.2.failed = none) → ∃ x : Task,
      (t.die d).tasks = (s.die d).tasks ++ [x] ∧ (∃ q, x.kind = .copyHandler en q) ∧ x.entry = bits (p.w 6) 55 0 ∧
      x.args = [p.dst, status, p.w 5] ∧ x.prio = bits (p.w 3) 50 48 ∧ x.launch = p.launch ∧ x.phase = .waiting ∧
      x.pin = some (if pkDsp p.h then bits p.dst 27 22 else bits (p.w 6) 61 56) ∧ x.tid = s.seq ∧
      SameRegs s t ∧ SameMemory s t)) ∧
  (∀ (s : State) (en : Nat) (p : Packet) (code : Nat), s.packet en p.ref = some p → p.queue = none → p.wait = false →
    p.refetch = none →
    let t := s.packetOut en p code
    (∀ q ∈ (t.cengine en).packets, q.ref ≠ p.ref) ∧ (∀ q ∈ (s.cengine en).packets, q.ref ≠ p.ref → q ∈ (t.cengine en).packets) ∧
    SameMemory s t ∧ (code = 0 → SameControls s t)) ∧
  (∀ (s : State) (d a n : Nat),
    ((∀ g ∈ rgsOf a n, s.inRefresh d g = false ∧ (s.rg d g).valid = true ∧ (s.rg d g).poison = false) → s.seenBytes a n = true →
      s.engRead d a n = .ok ((List.range n).map (fun i => s.lb d (a + i)))) ∧
    ((∃ g ∈ rgsOf a n, s.inRefresh d g = true) → s.engRead d a n = .error ⟨4, a⟩) ∧
    ((∀ g ∈ rgsOf a n, s.inRefresh d g = false) → s.seenBytes a n = true → ∀ g ∈ rgsOf a n,
      (∀ h ∈ rgsOf a n, h < g → (s.rg d h).valid = true ∧ (s.rg d h).poison = false) →
      ((s.rg d g).valid = false → s.engRead d a n = .error ⟨2, max a (g * 512)⟩) ∧
      ((s.rg d g).valid = true → (s.rg d g).poison = true → s.engRead d a n = .error ⟨3, max a (g * 512)⟩))) ∧
  (∀ (s : State) (d : Nat) (o : MatOp) (m : Nat),
    let size := if fmtA o.fmt = 1 ∨ fmtA o.fmt = 2 then 2 else 1
    let read := s.engRead d (bits o.a 31 0 + m * bits o.a 47 32 + 64 * o.kb * size) (o.present * size)
    o.present = min 64 (bits o.b 47 32 - 64 * o.kb) ∧
    (∀ f, read = .error f → s.aRow d o m = .error f) ∧
    (∀ bs, read = .ok bs → s.aRow d o m = .ok ((List.range o.present).map (fun k =>
      aValue (fmtA o.fmt) (leNat ((bs.drop (k * size)).take size)))))) ∧
  (∀ x : Nat, aValue 1 x = fp16.decode x ∧ aValue 2 x = bf16.decode x ∧ aValue 3 x = f8e4.decode x ∧
    aValue 4 x = f8e5.decode x ∧ (x < 256 → aValue 5 x = .fin ⟨decide (128 ≤ x), if 128 ≤ x then 256 - x else x, 1, 0⟩)) ∧
  (∀ (s : State) (d : Nat) (o : MatOp) (cols c : Nat),
    (o.opcode = 0x42 → s.bCol d o cols c = s.apBlock d
      (bits o.b 31 0 + 8 * (fmtNpl o.fmt + 3) * (o.kb * cols + c)) (fmtNpl o.fmt + 1) o.present (decide (fmtAcc o.fmt = 9))) ∧
    (o.opcode ≠ 0x42 → s.bCol d o cols c =
      s.q4Block d (bits o.b 31 0 + 136 * (o.kb / 4 * cols + c)) (o.kb % 4) o.present (fmtScm o.fmt))) ∧
  (∀ (s : State) (d at_ n pres : Nat) (int32 : Bool) (hb planes spb : List Byte), s.engRead d at_ 8 = .ok hb →
    let h := leNat hb
    let xb : Int := (BitVec.ofNat 10 h).toInt
    let sv := h / 2 ^ 14 % 4
    let vc := h / 2 ^ 17 % 128
    let bad : Prop := n ≤ 1 ∨ h / 2 ^ 10 % 16 + 1 ≠ n ∨ 64 < vc ∨ h / 2 ^ 24 ≠ 0 ∨ (int32 = true ∧ (xb ≠ (n : Int) - 2 ∨ sv ≠ 0))
    (bad → s.apBlock d at_ n pres int32 = .error ⟨1, at_⟩) ∧
    (¬ bad → s.engRead d (at_ + 8) (8 * n) = .ok planes → (sv ≠ 0 → s.engRead d (at_ + 8 * n + 8) 8 = .ok spb) →
      ∃ b, s.apBlock d at_ n pres int32 = .ok b ∧ b.scale = ⟨false, 1, 1, xb - n + 2⟩ ∧ b.special = decide (sv ≠ 0) ∧
        b.st = h.testBit 16 ∧ b.w.length = pres ∧ b.value.length = pres ∧
        ∀ k, k < pres → ∃ x : BitVec n,
          (∀ i, i < n → x.getLsbD i = (decide (k < vc) && (planes.getD (8 * i + k / 8) 0).getLsbD (k % 8))) ∧
          b.w[k]? = some x.toInt ∧
          b.value[k]? = some (if sv ≠ 0 ∧ k < vc ∧ (spb.getD (k / 8) 0).getLsbD (k % 8) = true then
              (if x.toInt = 1 then .inf false else if x.toInt = -1 then .inf true else .nan)
            else .fin ⟨decide (x.toInt < 0), x.toInt.natAbs, 1, xb - n + 2⟩))) ∧
  (∀ (s : State) (d img b pres scm : Nat) (s256b s64b codes : List Byte), (scm = 0 → s.engRead d img 4 = .ok s256b) →
    (scm ≤ 1 → s.engRead d (img + 4 + b) 1 = .ok s64b) → s.engRead d (img + 8 + 32 * b) ((pres + 1) / 2) = .ok codes →
    let s256 : FVal := if scm = 0 then fp32.decode (leNat s256b) else .fin ⟨false, 1, 1, 0⟩
    let s64 : Int := if scm ≤ 1 then leNat s64b else 1
    let w (k : Nat) : Int := ([-127, -89, -67, -50, -36, -24, -12, 0, 10, 21, 32, 45, 59, 76, 98, 127] : List Int).getD
      ((codes.getD (k / 2) 0).toNat / 16 ^ (k % 2) % 16) 0 * s64
    ∃ x, s.q4Block d img b pres scm = .ok x ∧ x.st = false ∧ x.w = (List.range pres).map w ∧
      x.value.length = pres ∧
      (∀ y, s256 = .fin y → x.special = false ∧ x.scale = { y with den := 127 * y.den } ∧ ∀ k, k < pres →
        x.value[k]? = some (.fin ⟨decide (w k < 0) != y.neg, (w k).natAbs * y.num, 127 * y.den, y.exp⟩)) ∧
      (s256 = .nan → x.special = true ∧ ∀ k, k < pres → x.value[k]? = some .nan) ∧
      (∀ neg, s256 = .inf neg → x.special = true ∧ ∀ k, k < pres →
        x.value[k]? = some (if w k = 0 then .nan else .inf (neg != decide (w k < 0))))) ∧
  (∀ xs : List FVal, (∀ e, .fin e ∈ xs → 0 < e.den) →
    let xa := alignExp xs
    let abs (e : Ex) : Ex := { e with neg := false }
    (∀ e, .fin e ∈ xs → Ex.lt (abs e) ⟨false, 1, 1, xa + 1⟩ = true ∨ e.num = 0) ∧
    ((∃ e, .fin e ∈ xs ∧ e.num ≠ 0 ∧ Ex.lt (abs e) ⟨false, 1, 1, xa⟩ = false) ∨ ((∀ e, .fin e ∈ xs → e.num = 0) ∧ xa = 0)) ∧
    (alignA false xs).1 = xa ∧ (alignA false xs).2.length = xs.length ∧ (alignA true xs).1 = 23 ∧
    ∀ k, k < xs.length → ∀ x, xs[k]? = some x →
      (∀ e, x = .fin e →
        let q := rint .rtz { e with exp := e.exp + (23 - xa) }
        (alignA false xs).2[k]? = some (q, !(FVal.eqv (.fin ⟨decide (q < 0), q.natAbs, 1, xa - 23⟩) x)) ∧
        (alignA true xs).2[k]? = some (rint .rtz e, false)) ∧
      ((∀ e, x ≠ .fin e) → (alignA false xs).2[k]? = some (0, false))) ∧
  (∀ (int8 : Bool) (a : List FVal) (b : BBlock),
    let products := List.zipWith FVal.mul a b.value
    let odd : Prop := (b.special = true ∨ ∃ x ∈ a, ∀ e, x ≠ .fin e) ∧ ∃ x ∈ products, ∀ e, x ≠ .fin e
    let al := (alignA int8 a).2
    let p : Int := (List.zipWith (fun x w => x.1 * w) al b.w).sum
    let x : Ex := if p = 0 then ⟨false, 0, 1, 0⟩
      else ⟨decide (p < 0) != b.scale.neg, p.natAbs * b.scale.num, b.scale.den, b.scale.exp + ((alignA int8 a).1 - 23)⟩
    let lost : Prop := (∃ z ∈ List.zip al b.w, z.1.2 = true ∧ z.2 ≠ 0) ∨ (b.st = true ∧ ∃ w ∈ b.w, w ≠ 0)
    (odd → .nan ∈ products ∨ (.inf false ∈ products ∧ .inf true ∈ products) → blockPartial int8 a b = (0x7FC00000, false)) ∧
    (∀ neg, odd → .nan ∉ products → .inf neg ∈ products → .inf (!neg) ∉ products →
      blockPartial int8 a b = (if neg then 0xFF800000 else 0x7F800000, false)) ∧
    (¬ odd → (blockPartial int8 a b).1 = (roundOdd fp32 (.fin x)).1 ∧
      ((blockPartial int8 a b).2 = true ↔ (roundOdd fp32 (.fin x)).2 = true ∨ lost))) ∧
  (∀ (acc : Elem) (p : Nat × Bool),
    (p.1 % 2 ^ 31 = 0 → p.2 = false → accumulate acc p = acc) ∧
    (p.1 % 2 ^ 31 ≠ 0 ∨ p.2 = true →
      let r := roundOdd fp32 (sumSigned false (fval acc) (fp32.decode p.1))
      accumulate acc p = ⟨BitVec.ofNat 32 r.1, acc.s || p.2 || r.2⟩)) ∧
  (∀ (acc : Elem) (a : List Int) (w : List Int),
    accumulateInt acc (a.map (fun x => .fin (Ex.ofInt x))) w =
      ⟨acc.val + BitVec.ofInt 32 (List.zipWith (fun x y => x * y) a w).sum, false⟩) ∧
  (∀ (s : State) (d : Nat) (o : MatOp) (t : Tile) (rows : List (List FVal)) (cols : List BBlock),
    rows.length = t.rows → cols.length = t.cols →
    ((∀ r x, rows[r]? = some x → s.aRow d o r = .ok x) → (∀ c x, cols[c]? = some x → s.bCol d o t.cols c = .ok x) →
      ∃ t', s.kStep d o t = .ok (t', passesOf o rows cols) ∧ t'.rows = t.rows ∧ t'.cols = t.cols ∧
        ∀ r c a b, rows[r]? = some a → cols[c]? = some b →
          t'.elem r c = (if fmtAcc o.fmt = 9 then accumulateInt (t.elem r c) a b.w
            else accumulate (t.elem r c) (blockPartial (decide (fmtA o.fmt = 5)) a b))) ∧
    (∀ r f, r < t.rows → (∀ q, q < r → ∃ x, s.aRow d o q = .ok x) → s.aRow d o r = .error f → s.kStep d o t = .error f) ∧
    (∀ c f, (∀ q, q < t.rows → ∃ x, s.aRow d o q = .ok x) → c < t.cols →
      (∀ q, q < c → ∃ x, s.bCol d o t.cols q = .ok x) → s.bCol d o t.cols c = .error f → s.kStep d o t = .error f)) ∧
  (∀ (s : State) (k id b : Nat), s.ev = .n k id b →
    exec .matrixKStep s = .next (s.seenByOwner k (fun u => u.matrixStep k id b)) ∧
    exec .matrixOpComplete s = .next (s.seenByOwner k (fun u => u.matrixDone k id))) ∧
  (∀ (s : State) (k id kb : Nat) (o : MatOp) (t : Tile), (s.eng k).headIs id = some o → o.kb = kb →
    o.opcode = 0x42 ∨ o.opcode = 0x43 → kb < o.blocks → (s.eng k).tile o.tile = some t →
    let u := s.matrixStep k id kb
    let again := s.afterCycles (dieOfCore k) (s.core k).mdiv 1 .matrixKStep (.n k id kb)
    (s.opWaits o = true → u = again) ∧
    (s.opWaits o = false → SameRegs s u ∧
      (∀ t' n, s.kStep (dieOfCore k) o t = .ok (t', n) → SameMemory s u ∧ (u.eng k).owner = (s.eng k).owner ∧
        (∀ m, (u.eng k).tile m = if m = o.tile then some t' else (s.eng k).tile m) ∧
        (u.eng k).ops = (s.eng k).ops.map (fun x => if x.id = id then { x with kb := kb + 1 } else x) ∧
        (u.eng k).writes = (s.eng k).writes ∧
        (kb + 1 < o.blocks → ∃ at_, (at_, ⟨.matrixKStep, .n k id (kb + 1)⟩) ∈ u.timers) ∧
        (o.blocks = kb + 1 → ∃ at_, (at_, ⟨.matrixOpComplete, .n k id 0⟩) ∈ u.timers)) ∧
      (∀ f, s.kStep (dieOfCore k) o t = .error f →
        (f.code = 4 → u = again) ∧
        (f.code ≠ 4 → (u.eng k).tiles = (s.eng k).tiles ∧
          (u.eng k).ops = (s.eng k).ops.map (fun x => if x.id = id then { x with held := true } else x) ∧
          (∀ tid c, (s.eng k).owner = some tid → s.slotOfTid k tid = some c → SameMemory s u ∧
            (bit (s.ctxCtl c 0x078) 63 = true → u.ctxCtl c 0x078 = s.ctxCtl c 0x078) ∧
            (bit (s.ctxCtl c 0x078) 63 = false → f.code < 4 → f.addr < 2 ^ 32 → o.tile < 8 →
              let w := u.ctxCtl c 0x078
              bit w 63 = true ∧ bits w 62 60 = o.tile ∧ bits w 59 56 = f.code ∧ bits w 55 46 = kb % 1024 ∧
                bits w 45 0 = f.addr ∧ ∃ z ∈ (u.ctx c).traps, z.code = 0x23)))))) ∧
  (∀ (s : State) (k id : Nat) (o : MatOp), (s.eng k).headIs id = some o →
    let u := s.matrixDone k id
    let d := dieOfCore k
    let steps : Prop := o.opcode = 0x42 ∨ o.opcode = 0x43
    (s.mstoreWaits k o = true → u = s.afterCycles d (s.core k).mdiv 1 .matrixOpComplete (.n k id 0)) ∧
    (steps → o.kb < o.blocks → u = s) ∧
    (s.mstoreWaits k o = false → ¬ (steps ∧ o.kb < o.blocks) →
      (u.eng k).ops = (s.eng k).ops.drop 1 ∧ (u.eng k).writes = (s.eng k).writes ∧ (u.eng k).owner = (s.eng k).owner ∧
      SameRegs s u ∧ (∀ m, m ≠ o.tile → (u.eng k).tile m = (s.eng k).tile m) ∧ (∀ key, u.mb key = s.mb key) ∧
      (o.opcode ≠ 0x44 → SameMemory s u) ∧ (steps → (u.eng k).tiles = (s.eng k).tiles) ∧
      (o.opcode = 0x40 → o.imm / 2 ^ 15 % 2 = 1 → mapSorted (s.eng k).tiles = true → (u.eng k).tile o.tile = none) ∧
      (o.opcode = 0x40 → o.imm / 2 ^ 15 % 2 ≠ 1 →
        (u.eng k).tile o.tile = some ⟨o.imm % 32 + 1, o.imm / 32 % 64 + 1, true, []⟩) ∧
      ∀ t, (s.eng k).tile o.tile = some t →
        (o.opcode = 0x41 → (u.eng k).tile o.tile = some { t with elems := [], dirty := true }) ∧
        (o.opcode = 0x44 → (u.eng k).tiles = (s.eng k).tiles ∧
          let len := t.cols * codeSize (bits o.a 35 32)
          let at_ (r : Nat) : Nat := bits o.a 31 0 + r * bits o.a 55 40
          let row (r : Nat) : List Byte := (List.range t.cols).flatMap (fun c =>
            exitBytes (fmtAcc o.fmt) (bits o.a 35 32) (modeField (bits o.a 38 36) o.fmt) (t.elem r c))
          Memory.wf s = true → bits o.a 35 32 ≤ 0xA → (∀ r, r < t.rows → at_ r + len ≤ 2 ^ 32) →
            (∀ r j, r < t.rows → j < len → (∀ q, r < q → q < t.rows → at_ r + j < at_ q ∨ at_ q + len ≤ at_ r + j) →
              u.lb d (at_ r + j) = (row r).getD j 0) ∧
            ∀ e x, x < 2 ^ 32 → (e ≠ d ∨ ∀ r, r < t.rows → x < at_ r ∨ at_ r + len ≤ x) → u.lb e x = s.lb e x))) ∧
  (∀ (s : State) (k n : Nat),
    s.settle k 0 = s ∧ ((s.eng k).ops = [] → s.settle k n = s) ∧
    ∀ o l, (s.eng k).ops = o :: l →
      let waits : Prop := ((o.opcode = 0x42 ∨ o.opcode = 0x43) ∧ o.kb < o.blocks) ∨ s.mstoreWaits k o = true
      (waits → s.settle k n = s) ∧
      (¬ waits → s.settle k (n + 1) = ((s.finishOp k o).modEng k (fun e => { e with ops := e.ops.drop 1 })).settle k n)) ∧
  (∀ (s : State) (k : Nat) (es : List TileWrite) (e : Engine), (s.eng k).writes = es →
    (((s.drainWrites k).eng k).writes = [] ∧ ((s.drainWrites k).eng k).ops = (s.eng k).ops ∧
      (s.drainWrites k).eng k = { es.foldl Engine.applyWrite (s.eng k) with writes := [] }) ∧
    ∀ (w : TileWrite) (t : Tile), e.tile w.tile = some t →
      (∀ n, n ≠ w.tile → (e.applyWrite w).tile n = e.tile n) ∧
      ∃ x, (e.applyWrite w).tile w.tile = some x ∧ x.rows = t.rows ∧ x.cols = t.cols ∧ x.dirty = true ∧
        x.elems = w.elems.foldl (fun m p => mapPut m p.1 p.2) t.elems) ∧
  (∀ (s : State) (k tid : Nat), (s.eng k).owner = some tid →
    let s0 := s.drainWrites k
    let s1 := match s0.slotOfTid k tid with
      | some c => s0.seenBy c (fun u => u.settle k 4)
      | none => s0.settle k 4
    let e := s1.eng k
    let f := s.flushOwner k
    (∀ o l, e.ops = o :: l → s1.mstoreWaits k o = true → f = (s1.startHead k, false, 0)) ∧
    ((∀ o l, e.ops = o :: l → s1.mstoreWaits k o = false) →
      (∀ c, s1.slotOfTid k tid = some c → (s1.ctx c).phase = .done → f = (s1.startHead k, false, 0)) ∧
      (∀ c, s1.slotOfTid k tid = some c → (s1.ctx c).phase ≠ .done → e.tiles ≠ [] ∨ e.ops ≠ [] →
        (s1.resImage c = none → f = (s1.startHead k, false, 0)) ∧
        (∀ i s2 n, s1.resImage c = some i → s1.writeOwner (dieOfCore k) tid i (s1.ctx c).resRecords e = (s2, true, n) →
          f.2 = (true, n) ∧ f.1.eng k = ⟨none, [], [], []⟩ ∧ (f.1.ctx c).resRecords = true ∧
          (∀ m, m < 8 → f.1.ctxCtl c (0x070 + m) = tshapeWord ((mapFind e.tiles m).map (fun t => { t with dirty := false }))) ∧
          SameMemory s2 f.1 ∧ SameRegs s2 f.1) ∧
        (∀ i s2 n, s1.resImage c = some i → s1.writeOwner (dieOfCore k) tid i (s1.ctx c).resRecords e = (s2, false, n) →
          f = (s2.startHead k, false, 0))) ∧
      (∀ c, s1.slotOfTid k tid = some c → (s1.ctx c).phase ≠ .done → e.tiles = [] → e.ops = [] →
        f.2 = (true, 0) ∧ f.1.eng k = ⟨none, [], [], []⟩ ∧ (f.1.ctx c).resRecords = false ∧ SameMemory s1 f.1) ∧
      (∀ td t i s2 n, s1.slotOfTid k tid = none → s1.allTasks.find? (fun p => decide (p.2.tid = tid)) = some (td, t) →
        s1.imageOf t = some i →
        (s1.writeOwner td tid i true e = (s2, true, n) →
          f.2 = (true, n) ∧ f.1.eng k = ⟨none, [], [], []⟩ ∧ SameMemory s2 f.1 ∧ SameRegs s2 f.1) ∧
        (s1.writeOwner td tid i true e = (s2, false, n) →
          f = ((s2.modEng k (fun _ => ⟨none, [], [], []⟩)).restartTask td t 0, true, 0))))) ∧
  (∀ (s s1 : State) (d tid i : Nat) (held : Bool) (e : Engine) (runs : List (Nat × List Byte)),
    s.areaRuns (i / 65536) (s.imageVa i + 0x1C000) held e.tiles e.ops = (s1, runs) →
    (s.writeOwner d tid i held e).2.1 = (s1.writeRuns (i / 65536) (s.imageVa i + 0x1C000) runs).2 ∧
    (∀ key, (s.writeOwner d tid i held e).1.mb key = (s1.writeRuns (i / 65536) (s.imageVa i + 0x1C000) runs).1.mb key) ∧
    (s.writeOwner d tid i held e).2.2 = ((runs.filter (fun r => decide (r.1 ≠ 0))).map (fun r => r.2.length)).sum ∧
    (∀ (u u1 : State) (va off : Nat) (bs : List Byte) (l : List (Nat × List Byte)), u.writeRuns d va [] = (u, true) ∧
      (u.writeRun d (va + off) bs = (u1, true) → u.writeRuns d va ((off, bs) :: l) = u1.writeRuns d va l) ∧
      (u.writeRun d (va + off) bs = (u1, false) → u.writeRuns d va ((off, bs) :: l) = (u1, false)))) ∧
  (∀ (s : State) (d va : Nat) (tiles : Table Tile) (ops : List MatOp),
    let head := leBytes 8 (ops.length * 16 + tiles.length)
    let recs := tiles.map (fun p => (if p.2.dirty then none else some p.1, tileBytes p.1 p.2)) ++ ops.map (fun o => (none, opBytes o))
    s.areaRuns d va false tiles ops = (s, (0, head) :: recordRuns [] 8 recs) ∧
    (∀ s1, s.areaNow d va = (s1, none) → s.areaRuns d va true tiles ops = (s1, (0, head) :: recordRuns [] 8 recs)) ∧
    (∀ s1 hb old, s.areaNow d va = (s1, some (hb, old)) →
      s.areaRuns d va true tiles ops = (s1, (if hb = head then [] else [(0, head)]) ++ recordRuns old 8 recs)) ∧
    ∀ (old : List (Nat × Nat × Nat)) (off : Nat) (clean : Option Nat) (bs : List Byte) (t : List (Option Nat × List Byte)),
      recordRuns old off [] = [] ∧
      ((∃ m, clean = some m ∧ (m, off, bs.length) ∈ old) →
        recordRuns old off ((clean, bs) :: t) = recordRuns old (off + bs.length) t) ∧
      ((∀ m, clean = some m → (m, off, bs.length) ∉ old) →
        recordRuns old off ((clean, bs) :: t) = (off, bs) :: recordRuns old (off + bs.length) t)) ∧
  (∀ (n : Nat) (t : Tile) (o : MatOp), n < 8 → 1 ≤ t.rows → t.rows ≤ 32 → 1 ≤ t.cols → t.cols ≤ 64 →
    let bs := tileBytes n t
    let cnt := t.rows * t.cols
    bs.length = 8 + 4 * cnt + 8 * ((cnt + 63) / 64) ∧
    leNat (bs.take 8) = n * 2 ^ 16 + 2 ^ 15 + (t.cols - 1) * 2 ^ 6 + (t.rows - 1) ∧
    (∀ j, j < cnt → leNat ((bs.drop (8 + 4 * j)).take 4) = (t.elem (j / t.cols) (j % t.cols)).val.toNat ∧
      (bs.getD (8 + 4 * cnt + j / 8) 0).getLsbD (j % 8) = (t.elem (j / t.cols) (j % t.cols)).s) ∧
    (o.opcode < 256 → o.tile < 8 → o.kb < 1024 → o.imm < 2 ^ 16 → (opBytes o).length = 32 ∧
      leNat ((opBytes o).take 8) = o.opcode + o.tile * 2 ^ 8 + o.kb * 2 ^ 16 + o.imm * 2 ^ 32 ∧
      (opBytes o).drop 8 = leBytes 8 o.fmt.toNat ++ leBytes 8 o.a.toNat ++ leBytes 8 o.b.toNat)) ∧
  (∀ (s s1 : State) (c i : Nat) (tiles : Table Tile) (ops : List MatOp), (s.ctx c).resRecords = true → s.resImage c = some i →
    s.readTileArea (dieOf c) (s.imageVa i + 0x1C000) = (s1, some (tiles, ops)) → (s1.ctx c).tid = (s.ctx c).tid →
    let e := (s.loadOwner c).1.eng (coreOf c)
    e.owner = some (s.ctx c).tid ∧ e.tiles = tiles ∧ e.writes = [] ∧ e.ops.length = ops.length ∧
    (s.loadOwner c).2 = (tiles.map (fun p => (tileBytes p.1 p.2).length)).sum + 32 * ops.length ∧
    (∀ j (o : MatOp), ops[j]? = some o → ∃ h : Bool,
      e.ops[j]? = some { o with behind := ((s.ctx c).pend.filter Pend.isPush).map (fun w => w.seq), held := h } ∧
      (h = true ↔ j = 0 ∧ bit (s1.ctxCtl c 0x078) 63 = true ∧ (o.opcode = 0x42 ∨ o.opcode = 0x43) ∨ j ≠ 0 ∧ o.held = true)) ∧
    (∀ key, (s.loadOwner c).1.mb key = s1.mb key) ∧ SameRegs s1 (s.loadOwner c).1) ∧
  (∀ (s s1 s2 : State) (c a b n m : Nat), s.ev = .n c a b → (s.ctx c).phase = .ready ∨ (s.ctx c).phase = .done →
    s.owns c = false →
    (s.flushOwner (coreOf c) = (s1, false, n) → exec .tileOwnerChange s = .next s1) ∧
    (s.flushOwner (coreOf c) = (s1, true, n) → (s1.ctx c).phase = .ready ∨ (s1.ctx c).phase = .done →
      s1.loadOwner c = (s2, m) → ∃ t, exec .tileOwnerChange s = .next t ∧
        t.eng (coreOf c) = s2.eng (coreOf c) ∧ SameMemory s2 t ∧ SameRegs s2 t ∧
        (t.core (coreOf c)).next = max (s2.core (coreOf c)).next s2.now +
          s2.ticksOf (dieOf c) (s2.core (coreOf c)).mdiv (32 + (n + m + 127) / 128))) ∧
  ∀ (s : State) (c a b : Nat), s.ev = .n c a b → (s.ctx c).phase = .ready → (s.eng (coreOf c)).owner = none →
    s.owns c = false → (s.ctx c).resRecords = false → ∃ t, exec .tileOwnerChange s = .next t ∧
      (t.eng (coreOf c)).owner = some (s.ctx c).tid ∧ (t.eng (coreOf c)).tiles = [] ∧
      (t.core (coreOf c)).next =
        max (s.core (coreOf c)).next s.now + s.ticksOf (dieOf c) (s.core (coreOf c)).mdiv 32

/-- O57 (R134, R139, R141, R143 to R146, R150, R410, R411, R413). Ages, limits, refreshes, missed refreshes and bands. "At each tick
boundary, every valid row group's age rises by one"; then, on each die that is online, the band takes its course, the row groups meet
the limits of the band that stood and of one that it steps to, missed refreshes are found, and the level, BOOST, PCAP and FLOOR follow
the power. That BUCKET's level is held in microjoules, and the course of PCAP whatever FWOK is, is log entry 64 (DEDUCED); that a
refresh in progress spares a row group at a step of the band alone is log entry 27 (DEDUCED), and when memory errors
occur, an operand of the event, is log entry 79. -/
def Obligations.LifetimeEvents : Prop :=
  (∀ s : State, exec .tickBoundary s = .next ((allDies.foldl State.dieTick s.ageAll).advertise) ∧
    ∀ d g, s.ageAll.rg d g =
      if (s.rg d g).valid then { s.rg d g with age := min ((s.rg d g).age + 1) 1023 } else s.rg d g) ∧
  (∀ (s : State) (d : Nat), (s.die d).online = false → s.dieTick d = s) ∧
  (∀ (s : State) (d : Nat), d < 64 → (s.die d).online = true →
    let u := s.dieTick d
    let temp := Config.temperature d (s.now / 6000) % 256
    let p := Config.power d (s.now / 6000)
    let v := s.bandTick d temp
    let w := s.dieCtl d 0x200
    let cap := bits w 11 0 * 1000
    let lvl := min (((s.die d).level : Int) + (bits w 21 12 : Int) - (p : Int)).toNat cap
    bits (u.dieCtl d 0x180) 15 8 = temp ∧ bits (u.dieCtl d 0x202) 47 32 = min p 65535 ∧ u.band d = v.band d ∧
    u.floorOf d = u.floorNow d ∧ (∀ e g, e ≠ d → g < 2 ^ 23 → u.rg e g = s.rg e g) ∧
    ((∀ c, (s.ctx c).phase ≠ .restoring) → (∀ e a, u.lb e a = s.lb e a) ∧ ∀ key, u.mb key = s.mb key) ∧
    (∀ g, g < 2 ^ 23 → u.rg d g = (v.limitsAndMisses d (if s.band d = v.band d then [(s.band d, false)]
      else [(s.band d, false), (v.band d, true)])).rg d g) ∧
    (s.fwok d = false → u.boost d = false) ∧
    (s.fwok d = true → (u.die d).level = lvl ∧
      u.boost d = if lvl = 0 then false else if cap ≤ 8 * lvl then true else s.boost d) ∧
    u.pcap d = (if bits w 31 22 < p then max 1 (s.pcap d - 1)
      else if u.boost d = false ∧ bits w 21 12 < p then max 2 (s.pcap d - 1) else s.pcap d) ∧
    (u.die d).pcapTicks = if p ≤ bits w 31 22 ∧ (u.boost d = true ∨ p ≤ bits w 21 12) ∧ p + 16 < bits w 21 12 then
      (s.die d).pcapTicks + 1 else 0) ∧
  (∀ (s : State) (d temp : Nat), temp < 256 →
    let u := s.bandTick d temp
    let b := s.band d
    let n := u.band d
    (s.tmax d b < temp → (n = 7 ∨ temp ≤ s.tmax d n) ∧ (∀ m, m < n → s.tmax d m < temp) ∧ (u.die d).bandTicks = 0 ∧
      bit (u.dieCtl d 0x180) 16 = true ∧ (n = 7 → ⟨.dieLoss, .n d 0 0⟩ ∈ u.agenda)) ∧
    (temp ≤ s.tmax d b → n = b ∧ (u.die d).bandTicks =
      (if 0 < b ∧ temp + 3 ≤ s.tmax d (b - 1) then (s.die d).bandTicks + 1 else 0) ∧
      (0 < b → temp + 3 ≤ s.tmax d (b - 1) → 99 ≤ (s.die d).bandTicks → ⟨.bandStepDown, .n d 0 0⟩ ∈ u.agenda))) ∧
  (∀ (s : State) (d b c : Nat), s.elimIn d b c =
    if bits (s.dieCtl d (0x170 + c)) 9 0 = 0 then s.ret d b - 16 else min (bits (s.dieCtl d (0x170 + c)) 9 0) (s.ret d b - 16)) ∧
  (∀ (s : State) (d b g : Nat), g < 2 ^ 23 → Memory.wf s = true →
    let x := s.rg d g
    let met : Bool := x.valid && decide (s.elimIn d b x.cls ≤ x.age) && !s.limitAsked d g
    let u := s.limitsAndMisses d [(b, false)]
    (∀ e h, e ≠ d → h < 2 ^ 23 → u.rg e h = s.rg e h) ∧
    (met = true → s.policy d x.cls ≠ 0 → (u.rg d g).valid = false) ∧
    (met = false ∨ s.policy d x.cls = 0 →
      (x.valid = true → (x.rfq || met) = true → s.ret d b - 4 ≤ x.age → (u.rg d g).valid = false) ∧
      (¬ (x.valid = true ∧ (x.rfq || met) = true ∧ s.ret d b - 4 ≤ x.age) → u.rg d g = { x with rfq := x.rfq || met }))) ∧
  (∀ (s : State) (d b c : Nat), s.ev = .n d b c →
    (0 < s.band d → 100 ≤ (s.die d).bandTicks → exec .bandStepDown s =
      .next ((((s.setBand d (s.band d - 1)).modDie d (fun x => { x with bandTicks := 0 })).limitsAndMisses d
        [(s.band d - 1, true)]).refloor d)) ∧
    ((s.band d = 0 ∨ (s.die d).bandTicks < 100) → exec .bandStepDown s = .next s)) ∧
  (∀ (s : State) (d g c : Nat), s.ev = .n d g c → g < 2 ^ 23 → Memory.wf s = true →
    let x := s.rg d g
    let due : Prop := x.valid = true ∧ s.limitAsked d g = false ∧ s.elim d x.cls ≤ x.age
    ∃ t, exec .rowGroupLimit s = .next t ∧ (∀ e h, h < 2 ^ 23 → (e ≠ d ∨ h ≠ g) → t.rg e h = s.rg e h) ∧
      (¬ due → t = s) ∧
      (due → s.policy d x.cls = 0 → t.rg d g = { x with rfq := true } ∧
        (∀ k, k < 64 → rgCore g = some k → (s.core (d * 64 + k)).refreshing = none → (s.core (d * 64 + k)).refreshQ = [] →
          (t.core (d * 64 + k)).refreshing = some g)) ∧
      (due → s.policy d x.cls ≠ 0 → (t.rg d g).valid = false) ∧
      (due → s.policy d x.cls ≠ 0 → s.policy d x.cls ≠ 1 → t.reports = s.reports ∧ ∀ e, t.ctxCtl e 0x058 = s.ctxCtl e 0x058) ∧
      (due → s.policy d x.cls = 1 →
        (s.rgOwner d g = none → t.reports = s.reports ++ [⟨0x20, d, [g * 512]⟩]) ∧
        (∀ o task i, s.rgOwner d g = some o → s.taskAt o = some task → s.restoresFrom o task = some i →
          t = (s.invalidate d g).expireImage d task.tid i g) ∧
        (∀ o, s.rgOwner d g = some o → (∀ task, s.taskAt o = some task → s.restoresFrom o task = none) → t.reports = s.reports ∧
          (bit (s.ctxCtl o 0x058) 63 = false → bit (t.ctxCtl o 0x058) 63 = true ∧ bits (t.ctxCtl o 0x058) 31 0 = g * 512 % 2 ^ 32 ∧
            bits (t.ctxCtl o 0x058) 47 32 = 1 ∧ (∃ z ∈ (t.ctx o).traps, z.code = 0x20)) ∧
          (bit (s.ctxCtl o 0x058) 63 = true →
            bits (t.ctxCtl o 0x058) 47 32 = min (bits (s.ctxCtl o 0x058) 47 32 + 1) 65535)))) ∧
  (∀ (s s1 : State) (d tid i g : Nat) (w : W64), s.readWord d (s.imageVa i + 0x40) = (s1, some w) →
    let s2 := (s1.writeVa d (s.imageVa i + 0x40) (leBytes 8 (expInfo w g).toNat)).1
    s.expireImage d tid i g =
      if bit w 63 = true then s2 else s2.modTask d tid (fun y => { y with traps := addTrap y.traps ⟨0x20, 0⟩ })) ∧
  (∀ (w : W64) (g : Nat), g < 2 ^ 23 →
    (bit w 63 = false → expInfo w g = BitVec.ofNat 64 (2 ^ 63 + 2 ^ 32 + g * 512)) ∧
    (bit w 63 = true → bit (expInfo w g) 63 = true ∧ bits (expInfo w g) 31 0 = bits w 31 0 ∧
      bits (expInfo w g) 47 32 = min (bits w 47 32 + 1) 65535)) ∧
  (∀ (s : State) (k g f : Nat), s.ev = .n k g f → k < 4096 → (s.core k).refreshing = some g → g < 2 ^ 23 →
    ∃ t, exec .refreshComplete s = .next t ∧
      (let x := s.rg (dieOfCore k) g
       t.rg (dieOfCore k) g =
        if x.valid then { x with age := 0, rfq := false, poison := x.poison || decide (f = 1) } else x) ∧
      (∀ e h, h < 2 ^ 23 → (e ≠ dieOfCore k ∨ h ≠ g) → t.rg e h = s.rg e h)) ∧
  (∀ (s : State) (d g f : Nat), s.ev = .n (4096 + d) g f → g ∈ (s.die d).refreshing → g < 2 ^ 23 →
    ∃ t, exec .refreshComplete s = .next t ∧
      (let x := s.rg d g
       t.rg d g = if x.valid then { x with age := 0, rfq := false, poison := x.poison || decide (f = 1) } else x)) ∧
  (∀ (s : State) (d g c : Nat), s.ev = .n d g c → g < 2 ^ 23 → Memory.wf s = true →
    let x := s.rg d g
    let late : Prop := x.valid = true ∧ x.rfq = true ∧ s.ret d (s.band d) - 4 ≤ x.age
    (late → ∃ t, exec .missedRefresh s = .next t ∧ (t.rg d g).valid = false ∧
      (∀ k, rgCore g = some k → bit (t.coreCtl (d * 64 + k) 0x059) 16 = true)) ∧
    (¬ late → exec .missedRefresh s = .next s)) ∧
  ∀ (s : State) (d l c : Nat) (x : SliceLine), s.ev = .n d l c → mapFind (s.die d).slice l = some x →
    let lim := s.ret d (s.band d) - 16
    ∃ t, exec .sliceLineAgeLimit s = .next t ∧ (∀ d a, t.lb d a = s.lb d a) ∧ (∀ key, t.mb key = s.mb key) ∧
      (lim ≤ x.age → mapSorted (s.die d).slice = true → mapFind (t.die d).slice l = none) ∧
      (x.age < lim → x.dirty = false → t = s) ∧
      (x.age < lim → x.dirty = true → lim - 16 ≤ x.age → mapFind (t.die d).slice l = some { x with queued := 2 }) ∧
      (x.age < lim - 16 → x.dirty = true → lim - 32 ≤ x.age →
        mapFind (t.die d).slice l = some { x with queued := max x.queued 1 })

/-- O58 (R298, R307, R391, R393, R413, R415, R416, R418, R419, R427). Clock changes, waits for a time, the power events, core
retention, samples, and the loss of a die. How a core's idle time is measured, and what an exit from retention finds, is log entry 62;
what a droop trip stretches is log entry 63; PCAP beside FWOK 0 and the unit of LEVEL are log entry 64; what LINKEPOCH counts at a loss
is log entry 65; what a sample names while nothing issues is log entry 95: these are the model's choices. -/
def Obligations.PowerEvents : Prop :=
  (∀ (s : State) (c b e : Nat), s.ev = .n c b e →
    (∀ w, (s.ctx c).phase = .waitTime w → w ≤ s.tstamp → ∃ t, exec .waitTimerExpiry s = .next t ∧ (t.ctx c).phase = .ready)) ∧
  (∀ (s : State) (d b c : Nat), s.ev = .n d b c →
    (8 ≤ (s.die d).pcapTicks → ∃ t, exec .pcapRaise s = .next t ∧ t.pcap d = min 4 (s.pcap d + 1) ∧
      (t.die d).pcapTicks = 0 ∧ ∀ n, n ≠ 0x202 → t.dieCtl d n = s.dieCtl d n) ∧
    ((s.die d).pcapTicks < 8 → exec .pcapRaise s = .next s) ∧
    (∃ t, exec .powerFirmwareWatchdogSignal s = .next t ∧ t.fwok d = true ∧ bit (t.dieCtl d 0x200) 62 = false ∧
      (∀ e, e ≠ d → t.die e = s.die e)) ∧
    (∃ t, exec .powerFirmwareUpdateStart s = .next t ∧ t.fwok d = false ∧ t.boost d = false) ∧
    ((s.die d).fwSignal = b → ∃ t, exec .firmwareWatchdogExpiry s = .next t ∧ t.fwok d = false ∧ t.boost d = false) ∧
    ((s.die d).fwSignal ≠ b → exec .firmwareWatchdogExpiry s = .next s)) ∧
  (∀ (s : State) (d b c : Nat), s.ev = .n d b c → bit (s.dieCtl d 0x201) 63 = true →
    ∃ t, exec .droopTrip s = .next t ∧ bit (t.dieCtl d 0x202) 16 = true ∧
      bits (t.dieCtl d 0x202) 15 0 = min (bits (s.dieCtl d 0x202) 15 0 + 1) 65535 ∧
      (t.die d).droopStretch = s.now + 1 ∧ (t.die d).droopFreeze = 0 ∧
      (∃ n, (s.now + 12 * n, ⟨.droopStretchEnd, .n d (s.now + 1) 1⟩) ∈ t.timers ∧ s.copyDiv d ≤ n ∧
        ∀ i, i < 64 → let y := s.core (d * 64 + i)
          y.cdiv ≤ n ∧ y.vdiv ≤ n ∧ y.mdiv ≤ n) ∧
      ∀ i, i < 64 → let y := s.core (d * 64 + i)
        (t.core (d * 64 + i)).droop = 0 ∧
        (t.core (d * 64 + i)).next = y.next + s.tripWait d y ∧
        (y.next ≤ s.now + y.pause → (t.core (d * 64 + i)).next = y.next) ∧
        (∀ n, (s.die d).droopStretch = 0 → y.pause = 0 → y.matrixWait ≤ s.now → 1 ≤ y.cdiv → y.next = s.now + n * y.cdiv →
          (t.core (d * 64 + i)).next = y.next + min 6 n * y.cdiv) ∧
        ∀ n, (s.die d).droopStretch = 0 → y.pause = 0 → y.next ≤ y.matrixWait → 1 ≤ y.mdiv → y.next = s.now + n * y.mdiv →
          1 ≤ n → (t.core (d * 64 + i)).next = y.next + min 6 n * y.mdiv) ∧
  (∀ (s : State) (d b c : Nat), s.ev = .n d b c → bit (s.dieCtl d 0x201) 63 = false → exec .droopTrip s = .next s) ∧
  (∀ (s : State) (d stamp v : Nat), s.ev = .n d stamp v →
    ((s.die d).droopStretch ≠ stamp ∨ stamp = 0 → exec .droopStretchEnd s = .next s) ∧
    ((s.die d).droopStretch = stamp → stamp ≠ 0 → ∃ t, exec .droopStretchEnd s = .next t ∧
      (v = 0 → (t.die d).droopFreeze = 1 ∧ (t.die d).droopStretch = stamp) ∧
      (v = 1 → (t.die d).droopFreeze = (s.die d).droopFreeze ∧ (t.die d).droopStretch = 0 ∧ t.cores = s.cores) ∧
      (2 ≤ v → t.die d = s.die d) ∧
      (v ≠ 1 → ∀ i, i < 64 → let y := s.core (d * 64 + i)
        (t.core (d * 64 + i)).droop = if v = y.cdiv ∨ (v = 0 ∧ y.droop = 0) then 64 else y.droop))) ∧
  (∀ (s : State) (k b c : Nat), s.ev = .n k b c → (∀ x ∈ coresOf (dieOfCore k), (s.core x).droop = 0) →
    ∃ t, exec .droopFreezeEnd s = .next t ∧ (t.die (dieOfCore k)).droopFreeze = 0) ∧
  (∀ (s : State) (k since c : Nat), s.ev = .n k since c → (s.core k).idleSince = since → (s.core k).running = none →
    (s.core k).retention = false → (s.core k).working = true → exec .retentionEntry s = .next
      ((s.modCore k (fun y => { y with idleSince := s.now })).after 6 .retentionEntry (.n k s.now 0))) ∧
  (∀ (s : State) (k since c : Nat), s.ev = .n k since c → (s.core k).idleSince = since → s.mayRetain k = true →
    s.now < since + s.idleTicks (dieOfCore k) → exec .retentionEntry s =
      .next (s.at_ (since + s.idleTicks (dieOfCore k)) .retentionEntry (.n k since 0))) ∧
  (∀ (s : State) (k since c : Nat), s.ev = .n k since c → (s.core k).idleSince = since → s.mayRetain k = true →
    since + s.idleTicks (dieOfCore k) ≤ s.now →
    ((s.eng k).owner = none → ∃ t, exec .retentionEntry s = .next t ∧ (t.core k).retention = true ∧
      SameRegs s t ∧ SameMemory s t) ∧
    (∀ u n, s.flushOwner k = (u, true, n) →
      exec .retentionEntry s = .next (u.modCore k (fun y => { y with retention := true }))) ∧
    (∀ u n, s.flushOwner k = (u, false, n) → exec .retentionEntry s =
      .next ((u.modCore k (fun y => { y with idleSince := u.now })).after 6 .retentionEntry (.n k u.now 0)))) ∧
  (∀ (s : State) (k : Nat), s.mayRetain k = true ↔ bit (s.dieCtl (dieOfCore k) 0x203) 63 = true ∧ (s.core k).running = none ∧
    (s.core k).retention = false ∧ (s.core k).working = false ∧ ∀ i, i < 4 → let x := s.ctx (k * 4 + i)
      (x.phase = .free ∨ x.phase.waiting = true ∨ x.phase = .waitRefetch) ∧ x.preempt = false ∧ x.traps = []) ∧
  (∀ (s : State) (k c : Nat), s.ev = .n k 0 c → (s.core k).retention = true →
    ∃ t, exec .retentionExit s = .next t ∧ (t.core k).retention = false ∧
      (t.core k).next = max (s.core k).next s.now + 1800 ∧ (t.core k).pause = 1800 ∧ SameRegs s t ∧ SameMemory s t) ∧
  (∀ (s : State) (d : Nat), allDies.find? (fun x => (s.die x).online) = some d →
    ∃ e, exec .thermalEmergency s = .next (s.due .dieLoss (.n e 0 0)) ∧ e < 64 ∧ (s.die e).online = true ∧
      ∀ x, x < 64 → (s.die x).online = true → s.tempOf x < s.tempOf e ∨ (s.tempOf x = s.tempOf e ∧ e ≤ x)) ∧
  (∀ (s : State) (d b c : Nat), s.ev = .n d b c → d < 64 → (s.die d).online = true → ∃ t, exec .dieLoss s = .next t ∧
    t = s.loseDie d ∧ (t.die d).online = false ∧ t.dieLive d = false ∧ (s.dieLive d = true → ∀ l ∈ linksOf d, t.linkLive l = false) ∧
    (∀ e, e ≠ d → (t.die e).online = (s.die e).online ∧ (t.die e).part = (s.die e).part) ∧
    (∀ x, dieOf x = d → t.ctx x = Ctx.reset) ∧
    (∀ k, dieOfCore k = d → (t.core k).running = none ∧ (t.core k).tags = [] ∧ (t.core k).tlb = [] ∧
      t.eng k = ⟨none, [], [], []⟩) ∧
    (∀ en, en / 4 = d → (t.cengine en).packets = []) ∧ (t.die d).tasks = [] ∧ (t.die d).operators = [] ∧
    (∀ p ∈ t.allTasks, p.2.home ≠ d) ∧ (∀ o ∈ t.lateOps, dieOf o.ctx ≠ d) ∧
    ∀ e l, l ∈ (s.die e).launches → s.touchesDie d e l = true →
      ∃ m ∈ (t.die e).launches, m.id = l.id ∧ m.failed = l.failed.or (some (codeWord 0x24))) ∧
  (∀ (s : State) (d b c : Nat), s.ev = .n d b c → (64 ≤ d ∨ (s.die d).online = false) → exec .dieLoss s = .next s) ∧
  (∀ (s : State) (d : Nat), d < 64 → s.dieLive d = true → let u := s.dropDie d
    (∀ p, p < 64 → u.dieLive p = (s.dieLive p && decide (p ≠ d))) ∧
    (∀ l, l < 128 → u.linkLive l = (s.linkLive l && decide (l ∉ linksOf d))) ∧
    u.modCtl 0x1B3 = BitVec.ofNat 64 (((s.modCtl 0x1B3).toNat + 1 + ((linksOf d).filter s.linkLive).length) % 2 ^ 32)) ∧
  (∀ (s : State) (d e : Nat) (l : Launch), s.touchesDie d e l = true ↔ e = d ∨
    (∃ p ∈ s.allTasks, p.2.launch = some l.id ∧ (p.1 = d ∨ p.2.home = d ∨
      ∃ c n, p.2.phase = .placed c ∧ (s.ctx c).phase = .waitCounter d n)) ∨
    ∃ o ∈ (s.die d).operators, o.launch = some l.id) ∧
  (∀ (s : State) (d b c : Nat), s.ev = .n d b c →
    (bit (s.dieCtl d 0x210) 63 = true →
      let u := if s.dbgRight d 2 then (coresOf d).foldl State.sampleCore s else s
      exec .sampleRecord s = .next (u.at_ (u.nextSample d) .sampleRecord (.n d 0 0))) ∧
    (bit (s.dieCtl d 0x210) 63 = false → exec .sampleRecord s = .next s)) ∧
  (∀ (s : State) (k : Nat), let d := dieOfCore k
    (s.sampleOf k = none → s.sampleCore k = s.ringRecord d [0, s.tstamp, k % 64 * 2 ^ 24 + 2 * 2 ^ 8, 0]) ∧
    (∀ x, s.sampleOf k = some x → s.sampleCore k = s.ringRecord d
      [x.slot * 2 ^ 56 + x.pc, s.tstamp, x.lid % 2 ^ 32 * 2 ^ 32 + k % 64 * 2 ^ 24 +
        x.ctx % 4 * 2 ^ 22 + (if x.frozen = true then 2 ^ 8 else 0), x.cycles]) ∧
    (∀ c frozen pc slot cyc, s.sampleCtx c frozen pc slot cyc =
      ⟨c, ((s.taskAt c).map (fun t => t.launchId)).getD 0, frozen, pc, slot, cyc⟩) ∧
    let i := (s.core k).issued
    (i.start ≤ s.now → s.now < i.stop → s.sampleOf k =
      some ⟨i.ctx, i.lid, decide (i.cycle ≤ s.now), i.pc, if i.cycle ≤ s.now then i.slot else 0, i.cycles⟩) ∧
    ((s.now < i.start ∨ i.stop ≤ s.now) →
      ((s.core k).running = none → s.sampleOf k = none) ∧
      ∀ r, (s.core k).running = some r → s.attempts k = false →
        ((s.core k).held = none → s.sampleOf k = none) ∧
        ∀ n, (s.core k).held = some n → s.sampleOf k = some (if 64 ≤ n then s.sampleCtx (k * 4 + r) true i.pc (n % 8) i.cycles
          else s.sampleCtx (k * 4 + r) (decide (n ≠ 8)) (s.ctx (k * 4 + r)).pc (n % 8) (s.ctx (k * 4 + r)).cycles))) ∧
  ∀ (s : State) (k b c : Nat), s.ev = .n k b c → (s.core k).pausing = true →
    (s.now < (s.core k).next → exec .clkdivPauseEnd s = .next (s.at_ (s.core k).next .clkdivPauseEnd (.n k 0 0))) ∧
    ((s.core k).next ≤ s.now → ∃ t, exec .clkdivPauseEnd s = .next t ∧ (t.core k).pausing = false ∧
      ∀ r, (s.core k).running = some r →
        ((t.core k).cdiv, (t.core k).vdiv, (t.core k).mdiv) = s.clkOf k (s.ctx (k * 4 + r)).clkreq)

/-- O59 (R183, R184, R284, R300, R303, R313, R322, R325 to R327, R335, R336, R381, R383, R389, R395, R397, R404, R406 to R408,
R428). The events of contexts and tasks: traps and stops, the choice of a context, saving and restoring, ends, placement, operators,
teams, launches, captures, phases, audits and checkpoints. The model's choices in it: FCODE at a failure for want of a record or an
image (log entry 56), a task of a failed launch that reaches DONE (57), a refetch packet that cannot be read (59), the audit's
corners (60), what an epoch's stream holds and in which order (61), INPUTLOST against other causes (76), a CAPSTART of a window that
a CAPSTOP waits for (82), how a task's time without a slot is counted (93), that a launch's NOP decrements nothing (53), the
decision that is due at once as patience ends (75), and the engine that operators away at DONE take again (108). -/
def Obligations.ContextEvents : Prop :=
  (∀ (s : State) (c b e : Nat) (i : Instr) (code detail : Nat), s.ev = .n c b e →
    (i, code) ∈ [(.expiryTrap, 0x20), (.copyErrorTrap, 0x21), (.bufferContractTrap, 0x22), (.deferredMatrixFault, 0x23)] →
    (s.ctx c).phase = .ready → (s.core (coreOf c)).running = some (c % 4) → bit (s.ctxCtl c 0x088) 61 = false →
    (s.core (coreOf c)).held.getD 0 < 32 → (∀ w ∈ (s.ctx c).pend, (s.ctx c).cycles < w.land) →
    ((s.ctx c).traps = [⟨code, detail⟩] → exec i s =
      .next ((s.modCtx c (fun x => { x with traps := [] })).takeStop c ⟨code, detail, 0, none⟩ (s.ctx c).pc 0 false)) ∧
    (((s.ctx c).traps.any (fun t => decide (t.code = code))) = false → exec i s = .next s)) ∧
  (∀ (s : State) (c b e : Nat), s.ev = .n c b e →
    let x := s.ctx c
    let runs : Prop := x.phase = .ready ∧ (s.core (coreOf c)).running = some (c % 4)
    (runs → 4096 ≤ x.wdc → exec .progressFault s = .next (s.takeStop c (Stop.of 0x10) x.pc 0 false)) ∧
    (x.wdc < 4096 → exec .progressFault s = .next s) ∧
    (x.phase ≠ .free → ∃ t, exec .preemptionRequest s = .next t ∧ (t.ctx c).preempt = true ∧ SameRegs s t ∧ SameMemory s t) ∧
    (x.phase = .ready → x.preempt = true → x.wdc = 0 → x.doneMask = 0 → (s.freeImage (dieOf c)).isSome →
      exec .preemptStop s = .next (s.takeStop c (Stop.of 0x41) x.pc 0 false)) ∧
    ((x.preempt = false ∨ x.wdc ≠ 0) → exec .preemptStop s = .next s) ∧
    (runs → x.runSince = b → ∃ t, exec .timesliceExpiry s = .next t ∧ (t.ctx c).sliceOver = true ∧ SameRegs s t) ∧
    (x.phase = .stopping → s.repliesOut c = true →
      exec .contextSave s = .next (s.stirLate.after 1 .contextSave (.n c b 0))) ∧
    (x.phase = .stopping → s.repliesOut c = false →
      let code := bits (s.ctxCtl c 0x081) 7 0
      let u := ((if s.owns c then s.drainWrites (coreOf c) else s).leaveTags c).landAtStop c
      let w := u.traceRec c 2 (bits (u.ctxCtl c 0x081) 34 32) (u.ctxCtl c 0x082).toNat code (u.ctx c).cycles
      let launch := (w.taskAt c).bind (fun t => t.launch)
      let v := if b = 1 then s
        else if code = 0x41 then w.captureMark launch false else if code = 0x40 then w.captureMark launch true else w
      (v.taskAt c = none → exec .contextSave s = .next (v.dropCtx c)) ∧
      (∀ task, v.taskAt c = some task → task.isReplay = true →
        exec .contextSave s = .next (v.restartTask (dieOf c) task code)) ∧
      ∀ task, v.taskAt c = some task → task.isReplay = false →
        let pool := ((v.ctx c).futStop.map (fun p => decide (8 ≤ p.1))).getD false
        (v.doomed task = false → pool = true →
          exec .contextSave s = .next (v.failTask (dieOf c) task causePool 0)) ∧
        (v.doomed task = true → exec .contextSave s = .next ((v.endTask (dieOf c) task).launchCheck task.launch)) ∧
        (v.doomed task = false → pool = false → isFaultOrTrap code = true →
          (task.isHandler = true → exec .contextSave s = .next (v.failTask (dieOf c) task causeHandler code)) ∧
          (task.isHandler = false → v.vectorOn c code = false → exec .contextSave s =
            .next (v.failTask (dieOf c) task (faultCause task code causeFault) code)) ∧
          (task.isHandler = false → v.vectorOn c code = true →
            (∀ i, v.freeImage (dieOf c) = some i → exec .contextSave s = .next (if v.rowsBusy c task.spr = true then
              v.after 6 .contextSave (.n c 1 0) else v.saveInto c task i code)) ∧
            (v.freeImage (dieOf c) = none → exec .contextSave s = .next (v.failTask (dieOf c) task causeImgPool code)))) ∧
        (v.doomed task = false → pool = false → code = 0x40 ∨ code = 0x41 ∨ code = 0x42 →
          (∀ i, v.freeImage (dieOf c) = some i → exec .contextSave s = .next (if v.rowsBusy c task.spr = true then
            v.after 6 .contextSave (.n c 1 0) else v.saveInto c task i code)) ∧
          (v.freeImage (dieOf c) = none →
            (code = 0x41 → exec .contextSave s =
              .next (((v.modCtx c (fun x => { x with preempt := false })).wake c).kickStreams c)) ∧
            (code = 0x40 → exec .contextSave s = .next (v.after 600 .contextSave (.n c 1 0))) ∧
            (code = 0x42 → exec .contextSave s = .next (v.failTask (dieOf c) task causeImgPool 0))))) ∧
    (∀ task, b = task.tid → x.phase = .restoring → s.taskAt c = some task → s.rowsBusy c task.spr = true →
      exec .contextRestore s = .next (s.after 6 .contextRestore (.n c b e))) ∧
    (∀ task i s3 parts, b = task.tid → e = i → x.phase = .restoring → s.taskAt c = some task →
      s.task (dieOf c) task.tid = some task → s.rowsBusy c task.spr = false →
      (∀ p ∈ s.cores, p.2.engine.owner ≠ some task.tid) →
      let u := (s.modTask (dieOf c) task.tid (fun y => { y with phase := .placed c })).modCtx c (fun y =>
        { y with tid := task.tid })
      u.readImage (dieOf c) (u.imageVa i) task.spr = (s3, some parts) →
      exec .contextRestore s = .next (s3.restoreParts c task i parts)) ∧
    (x.phase = .done → s.now < (s.core (coreOf c)).next → exec .taskCompletion s =
      .next (s.at_ (s.core (coreOf c)).next .taskCompletion (.n c 0 0))) ∧
    (∀ task, x.phase = .done → (s.core (coreOf c)).next ≤ s.now → s.leaveTags c = s → s.repliesOut c = false → s.opsAway c = (s, false) →
      (s.owns c = false ∨ ((s.eng (coreOf c)).ops = [] ∧
      (s.eng (coreOf c)).writes = [])) → s.taskAt c = some task →
      exec .taskCompletion s = .next ((s.dropCtx c).finishTask (dieOf c) task)) ∧
    (x.phase = .done → (s.core (coreOf c)).next ≤ s.now → s.leaveTags c = s → s.repliesOut c = false → s.opsAway c = (s, true) →
      s.owns c = false →
      exec .taskCompletion s = .next ((((s.countFrozen c 1).modCore (coreOf c) (fun y => { y with held := some 0 })).afterCycles (dieOf c)
        (s.core (coreOf c)).cdiv 1 .taskCompletion (.n c 0 0)).dueOnce .tileOwnerChange (.n c 0 0))) ∧
    (x.phase = .done → (s.core (coreOf c)).next ≤ s.now → s.leaveTags c = s →
      (s.owns c = false ∨ (s.eng (coreOf c)).ops.any (fun o => o.held) = false) → (∃ away, s.opsAway c = (s, away)) →
      (s.owns c = true ∧ ((s.eng (coreOf c)).ops ≠ [] ∨ (s.eng (coreOf c)).writes ≠ [])) ∨ s.repliesOut c = true →
      exec .taskCompletion s =
        .next (((s.stirLate.countFrozen c 1).modCore (coreOf c) (fun y => { y with held := some 0 })).afterCycles (dieOf c)
          (s.core (coreOf c)).cdiv 1 .taskCompletion (.n c 0 0))) ∧
    (x.phase = .done → (s.core (coreOf c)).next ≤ s.now → s.leaveTags c = s → s.owns c = true →
      (s.eng (coreOf c)).ops.any (fun o => o.held) = true → exec .taskCompletion s =
        .next ((s.modCtx c (fun y => { y with traps := y.traps.filter (fun t => decide (t.code ≠ 0x23)) })).stopCtx c
          (Stop.of 0x23) x.pc x.doneMask false)) ∧
    (x.phase = .waitRefetch → (e ≠ 1 → e ≠ 2 → b = 0 → exec .phaseRefetchComplete s = .next (s.resumePhase c)) ∧
      (e = 1 → exec .phaseRefetchComplete s = .next (s.issueRefetch c)) ∧
      (e = 2 → s.repliesOut c = true → exec .phaseRefetchComplete s = .next (s.stirLate.after 1 .phaseRefetchComplete (.n c 0 2))) ∧
      (e = 2 → s.repliesOut c = false → exec .phaseRefetchComplete s = .next (s.discardPhase c)) ∧
      (∀ task, e ≠ 1 → e ≠ 2 → b ≠ 0 → s.taskAt c = some task →
        exec .phaseRefetchComplete s = .next (s.failTask (dieOf c) task causeInputLost 0x09)))) ∧
  (∀ (s : State) (c : Nat), let a := s.refetchAt c
    let d := dieOf c
    let en := d * 4 + coreOf c % 64 / 16
    let again := s.afterCycles d (s.core (coreOf c)).cdiv 1 .phaseRefetchComplete (.n c 0 1)
    let busy : Prop := (rgsOf a 64).any (s.inRefresh d) = true
    let lost : Prop := s.localOk d a 64 = false ∨ s.validRange d a 64 = false ∨ s.poisonedRange d a 64 = true
    let ws := (List.range 8).map (fun i => wordAt (s.lbytes d a 64) (8 * i))
    a = bits (s.ctxCtl c 0x088) 31 0 + (if bit (s.ctxCtl c 0x088) 62 = true then 64 else 0) ∧
    (busy → s.issueRefetch c = again) ∧
    (¬ busy → (lost ∨ pktMalformed ws = true) → s.issueRefetch c = s.due .phaseRefetchComplete (.n c 0x10 0)) ∧
    (¬ busy → ¬ lost → pktMalformed ws = false → s.intakeFree d (en % 4) = false → s.issueRefetch c = again) ∧
    (¬ busy → ¬ lost → pktMalformed ws = false → s.intakeFree d (en % 4) = true →
      ∃ q, q ∈ ((s.issueRefetch c).cengine en).packets ∧ q.refetch = some c ∧ (∀ i, 1 ≤ i → i < 8 → q.w i = ws.getD i 0) ∧
        pkCen q.h = false ∧ pkHen q.h = false ∧ pkKind q.h = pkKind (ws.headD 0))) ∧
  (∀ (s : State) (c : Nat) (sn : Snap), (s.ctx c).snap = some sn → ∃ t, t = s.resumePhase c ∧ (t.ctx c).pc = sn.pc ∧
    (t.ctx c).phase = .ready ∧ (t.ctx c).fmt = sn.fmt ∧ (t.ctx c).loops = sn.loops ∧ (t.ctx c).cycles = (s.ctx c).cycles ∧
    ∀ r, 1 ≤ r → r ≤ 7 → (t.ctx c).rg r = sn.g.getD (r - 1) 0) ∧
  (∀ (s : State) (k b e : Nat), s.ev = .n k b e → (s.core k).retention = false → (s.core k).running = none →
    (∀ i, i < 4 → (s.ctx (k * 4 + i)).phase = .ready → ∃ t r, exec .runningContextChange s = .next t ∧ r < 4 ∧
      (t.core k).running = some r ∧ (s.ctx (k * 4 + r)).phase = .ready ∧
      ∀ j, j < 4 → (s.ctx (k * 4 + j)).phase = .ready → s.ctxPrio (k * 4 + j) ≤ s.ctxPrio (k * 4 + r)) ∧
    ((∀ i, i < 4 → (s.ctx (k * 4 + i)).phase ≠ .ready) → ∃ t, exec .runningContextChange s = .next t ∧
      (t.core k).running = none)) ∧
  (∀ (s s1 : State) (d tid b i : Nat) (t : Task) (bs : List Byte), s.ev = .n d tid b → s.task d tid = some t →
    t.phase = .held i → s.readRun d (s.imageVa i) 0x40 = (s1, some bs) → ∃ u h, exec .trapHandlerStart s = .next u ∧
      (u.die d).tasks = (s1.die d).tasks ++ [h] ∧ h.kind = .trapHandler tid i ∧ h.pin = some t.lastCore ∧
      h.args = [BitVec.ofNat 64 (s1.imageVa i), wordAt bs 0x10, wordAt bs 0x18, wordAt bs 0x30] ∧
      h.priv = decide (bits (wordAt bs 0x10) 7 0 = 0x31) ∧
      h.entry = bits (if bits (wordAt bs 0x10) 7 0 = 0x31 then s1.dieCtl d 0x1D1 else wordAt bs 0x28) 55 5 * 32) ∧
  (∀ (s : State) (d b e k c : Nat) (t : Task), s.ev = .n d b e → (s.die d).online = true → s.redonate = s →
    (s.die d).tasks = [t] → t.phase = .waiting → (s.die d).operators = [] → (∀ x, x ≠ d → s.waitingTasks x = []) → t.pin = some k → s.freeSlot d k = some c →
    (∀ p, bit (s.partCtl p 0x1D5) 63 = false) → ∃ u, exec .placementDecision s = .next u ∧ u.ctx c = t.startCtx c s.now ∧
      (∀ f, f ≠ c → u.ctx f = s.ctx f) ∧ (∃ t', (u.die d).tasks = [t'] ∧ t'.phase = .placed c ∧ t'.tid = t.tid) ∧
      ⟨.runningContextChange, .n (coreOf c) 0 0⟩ ∈ u.agenda) ∧
  (∀ (s : State) (d tid e dl w : Nat) (t : Task), s.ev = .n d tid e → s.task d tid = some t → t.patience = some (w, dl) →
    dl ≤ s.now → exec .patienceExpiry s = .next ((s.modTask d tid (fun u =>
      { u with patience := none, patienceOver := true })).dueOnce .placementDecision (.n d 0 0))) ∧
  (∀ (s : State) (d id e : Nat) (o : Operator) (iv : List Nat), s.ev = .n d id e →
    (s.die d).operators.find? (fun o => decide (o.id = id)) = some o → o.gate = none → o.next = some iv →
    (s.liveSteps d id).countP (fun t => decide (t.phase = .waiting)) < 64 → ∃ t, exec .tileStepProduce s = .next t ∧
      (t.die d).tasks = (s.die d).tasks ++ [o.stepTask d s.seq s.now iv] ∧
      (t.die d).operators = (s.die d).operators.map (fun y => if y.id = id then { y with next := nextIndex o.counts iv } else y)) ∧
  (∀ (s : State) (d b e : Nat), s.ev = .n d b e → s.overloaded d = none → exec .teamMigration s = .next s) ∧
  (∀ (s : State) (d b e x : Nat) (t u : Task), s.ev = .n d b e → s.overloaded d = some t → u ∈ (s.die d).tasks →
    u.launch = t.launch → s.mayMigrate d u = true → x ≠ d → x ∈ (s.part (s.partOf d)).dies →
    let free (y : Nat) : Nat := mapGet 0 (s.die d).tfree y
    0 < free x → ∃ (v : State) (dst : Nat) (team : List Task), exec .teamMigration s = .next v ∧
      dst ∈ (s.part (s.partOf d)).dies ∧ dst ≠ d ∧ (∀ y ∈ (s.part (s.partOf d)).dies, y ≠ d → free y ≤ free dst) ∧
      team ≠ [] ∧ team.length ≤ 16 ∧ (∀ w ∈ team, w ∈ (s.die d).tasks ∧ w.launch = t.launch ∧ s.mayMigrate d w = true) ∧
      (v.die dst).team = (s.die dst).team ++ [(d, team)] ∧
      ∀ w, w ∈ (v.die d).tasks ↔ w ∈ (s.die d).tasks ∧ w.tid ∉ team.map (fun y => y.tid)) ∧
  (∀ (s : State) (d b e f : Nat) (team : List Task) (rest : List (Nat × List Task)), s.ev = .n d b e →
    (s.die d).team = (f, team) :: rest → ∃ u hs, exec .teamArrival s = .next u ∧ (u.die d).team = rest ∧
      (u.die d).tasks = (s.die d).tasks ++ hs ∧ hs.map (fun h => h.tid) = team.map (fun h => h.tid) ∧
      ∀ h ∈ hs, h.readyAt = s.now ∧ h.patience = none) ∧
  (∀ (s s1 : State) (d n slot : Nat) (bs : List Byte), s.ev = .n d n slot →
    (s.slotBytes (.launch d n) slot = (s1, some bs) →
      (launchFieldsBad bs = false → exec .launchNopPacket s = .next (s1.endSlot (.launch d n) slot 0 false)) ∧
      (bits (wordAt bs 16) 15 0 = 0 → launchFieldsBad bs = true) ∧
      (launchFieldsBad bs = true → exec .launchNopPacket s =
        .next (s1.endSlot (.launch d n) slot (BitVec.ofNat 64 (0x30 * 256)) true)) ∧
      (launchMalformed bs = true → exec .launchPacket s =
        .next (s1.endSlot (.launch d n) slot (BitVec.ofNat 64 (0x30 * 256)) true)) ∧
      (launchMalformed bs = false →
        let w0 := wordAt bs 0
        let l : Launch := ⟨s1.seq, n, slot, field bs 24 4, bit w0 35, bits w0 51 40, field bs 8 8, field bs 16 2, 0, none⟩
        let s2 := (s1.modDie d (fun x => { x with launches := x.launches ++ [l] })).fresh.captureLaunch d n s1.seq
        ∀ s3, (s2.enqueueAll d l.desc s1.seq l.launchId 0 l.ndesc = (s3, none) → exec .launchPacket s =
            .next (s3.modLaunch s1.seq (fun y => { y with enqueued := l.ndesc }))) ∧
          (∀ i code, s2.enqueueAll d l.desc s1.seq l.launchId 0 l.ndesc = (s3, some (i, code)) → exec .launchPacket s =
            .next (s3.failLaunch s1.seq (BitVec.ofNat 64 (i % 2 ^ 16 * 2 ^ 48 + code * 256))))) ∧
      (s1.dbgRight d 1 = false → ∀ i, i ∈ [Instr.capstart, .capstop] → exec i s =
        .next (s1.endSlot (.launch d n) slot (BitVec.ofNat 64 (0x33 * 256)) true)) ∧
      (s1.dbgRight d 1 = true → (mapFind (s1.die d).captures (bits (wordAt bs 0) 14 12)).all (fun x => x.stops.isEmpty) = true →
        exec .capstart s = .next ((s1.modDie d (fun y => { y with
          captures := mapPut y.captures (bits (wordAt bs 0) 14 12)
            ⟨n, s1.tstamp, 0, 0, 0, 0, [], [], false, false, []⟩ })).endSlot (.launch d n) slot 0 false)) ∧
      (s1.dbgRight d 1 = true → field bs 8 8 % 64 = 0 → (mapFind (s1.die d).captures (bits (wordAt bs 0) 14 12)).isSome →
        exec .capstop s = .next ((s1.modDie d (fun y => { y with captures := y.captures.map (fun p =>
          if p.1 = bits (wordAt bs 0) 14 12 then (p.1, { p.2 with stops := p.2.stops ++ [(n, slot, field bs 8 8)] })
          else p) })).captureCheck d (bits (wordAt bs 0) 14 12))))) ∧
  (∀ (s : State) (d id e : Nat) (l : Launch), s.ev = .n d id e →
    (s.die d).launches.find? (fun l => decide (l.id = id)) = some l → s.launchLive id = false →
    let u := (s.modDie d (fun x => { x with launches := x.launches.filter (fun y => decide (y.id ≠ id)) })).endSlot
      (.launch d l.queue) l.slot (l.failed.getD 0) l.failed.isSome
    exec .launchCompletion s = .next ((if l.cen then u.decCounter d l.cnt else u).captureDone d id)) ∧
  (∀ (s : State) (p r e : Nat) (x : List Nat), s.ev = .n p r e → auditFind (s.part p).auditing r = some x →
    (s.nextDie p (x.getD 4 0) = none → exec .auditReplayStart s = .next ((s.dropAudit p r).skipAudit (x.getD 4 0))) ∧
    (∀ d s1 s2 s3 head parts data, s.nextDie p (x.getD 4 0) = some d →
      let c := (d * 64 + x.getD 5 0) * 4 + x.getD 6 0
      (s.ctx c).phase = .free → s.readRun d (s.logVa p r) 0x400 = (s1, some head) →
      let t := replayTask x head (wordAt head 0x100) r s1.seq d c s1.now
      s1.rowsBusy c t.spr = false →
      let base := coreOf c % 64 * 2 ^ 22 + c % 4 * 2 ^ 20
      s1.readImage d (s.logVa p r) t.spr = (s2, some parts) →
      s2.readRows d (s.logVa p r) (parts.rows.zipIdx.map (fun q => (q.2, q.1))) = (s3, some data) →
      exec .auditReplayStart s = .next (((((s3.modDie d (fun y => { y with tasks := y.tasks ++ [t] })).fresh.setCtx c
        (restoredCtx parts t base s3.now)).writeRows d base (parts.rows.zipIdx.map (fun q => (q.2, q.1))) data).dueOnce
          .runningContextChange (.n (coreOf c) 0 0)).lookPlacement))) ∧
  (∀ (s : State) (p b e : Nat), s.ev = .n p b e → bit (s.partCtl p 0x1D8) 63 = true → s.writesOpen p = true →
    exec .checkpointCut s = .next (s.stirLate.after 6 .checkpointCut (.n p 0 0))) ∧
  (∀ (s : State) (p b e : Nat), s.ev = .n p b e → bit (s.partCtl p 0x1D8) 63 = true → s.writesOpen p = false →
    let u := s
    Memory.wf u = true → ∃ t, exec .checkpointCut s = .next t ∧ bit (t.partCtl p 0x1D9) 63 = true ∧
      bits (t.partCtl p 0x1D9) 31 0 = (bits (u.partCtl p 0x1D9) 31 0 + 1) % 2 ^ 32 ∧ bit (t.partCtl p 0x1D8) 63 = false ∧
      (t.part p).pages = (u.dirtyPages p).map (fun y =>
        (y.2.1, y.2.2.1, y.2.2.2.2 / 2 ^ 14 % 16 * 2 ^ 41 + y.2.2.2.2 / 2 ^ 24 % 2 ^ 33 * 256)) ∧ (t.part p).stream = 0 ∧
      (t.part p).atCut = u.mem ∧
      (u.dirtyPages p = [] → ⟨.checkpointPageStream, .n p 0 0⟩ ∈ t.agenda) ∧
      (u.dirtyPages p ≠ [] → ∃ at_, (at_, ⟨.checkpointPageStream, .n p 0 0⟩) ∈ t.timers) ∧
      (∀ d a, t.lb d a = u.lb d a) ∧
      ∀ key, (∀ x ∈ u.dirtyPages p, ∀ i, i < 8 → key ≠ u.paKey x.1 (x.2.2.2.1 + i) ∧
        otherKey (u.paKey x.1 (x.2.2.2.1 + i)) key = false) → t.mb key = u.mb key) ∧
  ∀ (s s1 : State) (p b e : Nat), s.ev = .n p b e → bit (s.partCtl p 0x1D9) 63 = true →
    let x := s.part p
    let room := 2 ^ bits (s.partCtl p 0x1D8) 5 0
    let epoch := leBytes 8 (bits (s.partCtl p 0x1D9) 31 0)
    let va := bits (s.partCtl p 0x1D8) 55 12 * 2 ^ 12 + x.stream
    (x.pages = [] →
      (room < x.stream + 64 → exec .checkpointPageStream s = .next (s.endEpoch p 2)) ∧
      (x.stream + 64 ≤ room → s.writeRaw (x.dies.headD 0) true va (zeros 8 ++ epoch ++ zeros 48) = (s1, true) →
        exec .checkpointPageStream s = .next (s1.endEpoch p 1)) ∧
      (x.stream + 64 ≤ room → s.writeRaw (x.dies.headD 0) true va (zeros 8 ++ epoch ++ zeros 48) = (s1, false) →
        exec .checkpointPageStream s = .next (s1.endEpoch p 3))) ∧
    ∀ page lg pa rest, x.pages = (page, lg, pa) :: rest →
      let old : State := { s with mem := x.atCut }
      let key (i : Nat) : Nat := s.paUnder (x.dies.headD 0) (pa / 2 ^ 41) (pa % 2 ^ 41 + i)
      let data := old.mbytes ((List.range (2 ^ lg)).map key)
      let head := leBytes 8 (page + sizeCode lg * 2 ^ 56) ++ epoch ++ leBytes 8 (crc64 0 data).toNat ++ zeros 40
      (room < x.stream + 64 + 2 ^ lg → exec .checkpointPageStream s = .next (s.endEpoch p 2)) ∧
      (x.stream + 64 + 2 ^ lg ≤ room →
        s.writeWin (homeOf (key 0)) (2 ^ lg / 512 + 2) va (head ++ data) = (s1, true) →
        ∃ t, exec .checkpointPageStream s = .next t ∧
          (t.part p).pages = rest.filter (fun y => decide (y ≠ (page, lg, pa))) ∧ (t.part p).stream = x.stream + 64 + 2 ^ lg ∧
          bits (t.partCtl p 0x1D9) 59 32 = min (bits (s.partCtl p 0x1D9) 59 32 + 1) (2 ^ 28 - 1) ∧
          ((t.part p).pages = [] → ⟨.checkpointPageStream, .n p 0 0⟩ ∈ t.agenda) ∧
          ((t.part p).pages ≠ [] → ∃ at_, (at_, ⟨.checkpointPageStream, .n p 0 0⟩) ∈ t.timers))

/-- O60 (R353, R359, R364 to R366, R368 to R370, R372 to R374, R394, R445). The events of collectives, of links and modules, and of
the scale-out ports. What the flits of a frame hold, and how messages travel between modules, is log entry 19; what LINKEPOCH counts is
65; the checks and the chunks of a collective are 66; marks that an earlier root left are 67; and the acknowledgements of an epoch and
the loss of frames are 68; that a collective's NOP completes whatever its fields hold and decrements nothing is 53 (DEDUCED): these
are the model's choices. -/
def Obligations.CollectiveAndLinkEvents : Prop :=
  (∀ (s s1 : State) (d n slot : Nat) (bs : List Byte), s.ev = .n d n slot →
    exec .collectiveNopPacket s = .next (s.endSlot (.coll d n) slot 0 false) ∧
    (s.slotBytes (.coll d n) slot = (s1, some bs) →
      let pod := bit (wordAt bs 0) 29
      let rootDie := bits (wordAt bs 0) 49 44
      let rootMod := bits (wordAt bs 24) 48 40
      let c0 : Collective := ⟨s1.seq, n, slot, (List.range 8).map (fun i => wordAt bs (8 * i)), rootDie,
        if pod then rootMod else rootDie, [], [], [], [], false, 0, false, none, false, none, [], [], 0⟩
      let ended (u : State) (code : Nat) : State :=
        (u.doneChunks d c0).1.endSlot (.coll d n) slot (c0.status (u.doneChunks d c0).2 code) true
      let bad : Prop := c0.malformed = true ∨ s1.phys d rootDie ≠ some d ∨ (pod = true ∧ rootMod ≠ s1.ownModule)
      (bad → exec .collectivePacket s = .next (s1.endSlot (.coll d n) slot (codeWord 0x10) true)) ∧
      let shut : Bool := pod && (!bit (s1.modCtl 0x232) 5 || !bit (s1.modCtl 0x1B4) 63)
      (∀ s2, ¬ bad → s1.collVertices d c0 = (s2, none) →
        exec .collectivePacket s = .next (ended s2 (if shut then 0x25 else 0x29))) ∧
      (∀ s2 vs, ¬ bad → s1.collVertices d c0 = (s2, some vs) →
        (c0.root ∉ vs → exec .collectivePacket s = .next (s2.endSlot (.coll d n) slot (codeWord 0x10) true)) ∧
        (∀ s3 e, c0.root ∈ vs → s2.marksBad d c0 = (s3, .error e) →
          exec .collectivePacket s = .next (ended s3 (if shut then 0x25 else e))) ∧
        (∀ s3, c0.root ∈ vs → s2.marksBad d c0 = (s3, .ok true) →
          exec .collectivePacket s = .next (s3.endSlot (.coll d n) slot (codeWord 0x10) true))) ∧
      ∀ s2 s3 vs, ¬ bad → s1.collVertices d c0 = (s2, some vs) → c0.root ∈ vs → s2.marksBad d c0 = (s3, .ok false) →
        (shut = true → exec .collectivePacket s = .next (ended s3 0x25)) ∧
        (∀ s4, pod = true → shut = false → s3.anyModuleLost d vs = (s4, true) →
          exec .collectivePacket s = .next (ended s4 0x26)) ∧
        (pod = false →
          let ms : List CollMember := vs.map (fun v => ⟨v, true, !s3.logDieLive d v⟩)
          ∀ s4 trees, s3.collTrees d { c0 with members := ms } = (s4, trees) →
            let c : Collective := { c0 with members := ms, trees := trees }
            let s5 := (s4.modDie d (fun x => { x with collectives := x.collectives ++ [c] })).fresh
            (trees = [] → exec .collectivePacket s = .next (s5.endColl d s1.seq 0x25)) ∧
            (∀ s6, trees ≠ [] → s5.homesLost d c = (s6, true) → exec .collectivePacket s = .next (s6.endColl d s1.seq 0x27)) ∧
            (∀ s6, trees ≠ [] → s5.homesLost d c = (s6, false) → exec .collectivePacket s = .next (s6.collBegin d s1.seq))))) ∧
  (∀ (s s1 : State) (d id : Nat) (c : Collective) (bs : List Byte), s.coll d id = some c →
    s.readRun (s.belfry d c) (c.w 7).toNat c.nchunks = (s1, some bs) → bs.length = c.nchunks →
    let t := s.collBegin d id
    let mark (k : Nat) : Nat := (bs.getD k 0).toNat
    (t.coll d id).map (fun x => (x.chunks, x.partials, x.outputs)) =
      some ((List.range c.nchunks).filter (fun k => decide (mark k ≠ 2)), [], []) ∧
    ((∀ k, k < c.nchunks → mark k = 2) → c.ending = none → (t.coll d id).map (fun x => x.ending) = some (some 0)) ∧
    ∀ k, k < c.nchunks → mark k ≠ 2 →
      if c.op = 2 ∨ (mark k = 1 ∧ s.markOurs d c k = true) then ⟨.chunkMarkWrite, .n d id (k * 4 + 2)⟩ ∈ t.agenda
      else ⟨.collectiveChunkStep, .n d id (k * 1024 + c.root)⟩ ∈ t.agenda) ∧
  (∀ (s : State) (d : Nat) (c : Collective) (k : Nat), s.markOurs d c k = true ↔
    mapFind (s.part (s.partOf d)).marks (c.markVa k) = some (s.rootKey c) ∨
    (mapFind (s.part (s.partOf d)).marks (c.markVa k) = none ∧ c.rootNew = false)) ∧
  (∀ (s s1 : State) (d : Nat) (c : Collective), s.coll d c.id = some c → c.ending = none → c.stopped = false → c.remote = none →
    s.treesStand d c = (s1, false) → let t := s.collTouched d c
      (t.coll d c.id).map (fun x => (x.stopped, x.epoch, x.partials)) = some (true, c.epoch + 1, []) ∧
      ⟨.epochAckCollect, .n d c.id 0⟩ ∈ t.agenda) ∧
  (∀ (s : State) (rs : List (Nat × List Nat)) (i : Instr) (d id x : Nat), (2 ^ 64 ≤ x ∨ ∀ p ∈ s.dies, p.2.atomics = []) →
    s.belfryTurn rs i d id x = none) ∧
  (∀ (s : State) (d id k v z : Nat) (c : Collective), s.coll d id = some c → c.stopped = false → c.ending = none →
    k ∈ c.chunks → k < 2 ^ 50 → z = 0 ∨ z = 2 ^ 64 →
    let rs := s.inputKeys d c k (c.ownDies v) ++
      (if c.remote.isSome ∨ v ≠ c.root then [] else s.outputKeys d c k [c.rootDie])
    let turn (st : Nat) : Option State := s.belfryTurn (s.markKeys d c k st) .chunkMarkWrite d id (k * 4 + st + z)
    (s.ev = .n d id (k * 1024 + v + z) → v < 1024 → c.op ≠ 2 → s.vertexReady c k v = true →
      ∀ s1, s.belfryTurn rs .collectiveChunkStep d id (k * 1024 + v + z) = some s1 →
        exec .collectiveChunkStep s = .next s1) ∧
    (∀ st s1, st < 4 → s.ev = .n d id (k * 4 + st + z) → turn st = some s1 → exec .chunkMarkWrite s = .next s1) ∧
    (s.ev = .n d id (k * 1024 + v + z) → v < 1024 → c.op ≠ 2 → s.vertexReady c k v = true →
      s.belfryTurn rs .collectiveChunkStep d id (k * 1024 + v + z) = none → ∀ s1 l,
      s.vertexPartial d c k v = (s1, .ok l) →
      (c.remote.isSome = true → exec .collectiveChunkStep s = .next ((s1.sendUp d c k l).modColl d id (fun y =>
        { y with partials := y.partials.filter (fun e => decide (e.1 / 1024 ≠ k)) }))) ∧
      (c.remote = none → v ≠ c.root → exec .collectiveChunkStep s = .next (s1.modColl d id (fun y =>
        { y with partials := mapPut y.partials (k * 1024 + v) l }))) ∧
      (c.remote = none → v = c.root → ∀ s2, s1.collOutput d c k c.rootDie (c.outBytes l).1 = (s2, .ok ()) → exec .collectiveChunkStep s =
        .next ((s2.modColl d id (fun y => { y with
          inex := y.inex || (c.outBytes l).2, partials := y.partials.filter (fun e => decide (e.1 / 1024 ≠ k)) })).due .chunkMarkWrite (.n d id (k * 4 + 1))))) ∧
    (s.ev = .n d id (k * 4 + z) → turn 0 = none → exec .chunkMarkWrite s = .next (s.deliverOutput d id k)) ∧
    (s.ev = .n d id (k * 4 + 1 + z) → turn 1 = none →
      (∀ s1, s.writeVa (s.belfry d c) (c.markVa k) [1] = (s1, true) → exec .chunkMarkWrite s =
        .next ((s1.modPart (s1.partOf d) (fun y => { y with marks := mapPut y.marks (c.markVa k) (s.rootKey c) })).due
          .chunkMarkWrite (.n d id (k * 4 + 2)))) ∧
      (∀ s1, s.writeVa (s.belfry d c) (c.markVa k) [1] = (s1, false) → exec .chunkMarkWrite s =
        .next (s1.endColl d id 0x29))) ∧
    (s.ev = .n d id (k * 4 + 2 + z) → turn 2 = none → ∀ s1, s.collBroadcast d id c k = (s1, .ok ()) → exec .chunkMarkWrite s =
      .next (if c.op = 1 ∨ s1.peers c = [] then s1.due .chunkMarkWrite (.n d id (k * 4 + 3)) else s1)) ∧
    (s.ev = .n d id (k * 4 + 3 + z) → turn 3 = none →
      let whole : Prop := c.op = 1 ∨ ∀ m ∈ s.peers c, k * 1024 + m ∈ c.outputs
      (¬ whole → exec .chunkMarkWrite s = .next s) ∧
      (∀ s2, whole → s.writeVa (s.belfry d c) (c.markVa k) [2] = (s2, true) →
        let s3 := (s2.modPart (s2.partOf d) (fun y => { y with marks := mapDel y.marks (c.markVa k) })).modColl d id
          (fun x => { x with chunks := x.chunks.erase k })
        exec .chunkMarkWrite s = .next (if c.chunks.erase k = [] then s3.endColl d id 0 else s3)) ∧
      (∀ s2, whole → s.writeVa (s.belfry d c) (c.markVa k) [2] = (s2, false) → exec .chunkMarkWrite s =
        .next (s2.endColl d id 0x29)))) ∧
  (∀ (s : State) (l : Nat), s.ev = .link (.link l) → l < 128 →
    exec .linkFall s = .next (s.dropLink l).fallSeen.endLostStreams) ∧
  (∀ (s : State) (p : Nat), s.ev = .link (.die p) → p < 64 →
    exec .linkFall s = .next (s.dropDie p).fallSeen.endLostStreams) ∧
  (∀ (s : State) (p b e : Nat), s.ev = .n p b e → p < 16 → bit (s.modCtl 0x1B4) 63 = false →
    ∃ t, exec .podLinkLoss s = .next t ∧ (mapGet PodPort.reset t.pod p).down = true ∧
      (mapGet PodPort.reset t.pod p).unacked = [] ∧ ∀ q, q ≠ p → mapGet PodPort.reset t.pod q = mapGet PodPort.reset s.pod q) ∧
  (∀ (s s2 : State) (p b e : Nat), s.ev = .n p b e → p < 16 → bit (s.modCtl 0x1B4) 63 = true →
    let s1 : State := { s with pod := mapMod PodPort.reset s.pod p (fun x => { x with down := true, unacked := [] }) }
    (s1.podEntry s1.podDie s1.ownModule p = (s2, none) → exec .podLinkLoss s = .next s2) ∧
    ∀ j q, s1.podEntry s1.podDie s1.ownModule p = (s2, some (j, q)) →
      exec .podLinkLoss s = .next ((s2.podFallen 16 [j]).reroute (mapGet PodPort.reset s.pod p).unacked)) ∧
  (∀ (s : State) (part : Nat) (f : Frame) (fs : List (Nat × Frame)),
    s.reroute [] = s ∧ (msgOperation f.msg = none → s.reroute ((part, f) :: fs) = s.reroute fs) ∧
    ∀ root id, msgOperation f.msg = some (root, id) →
      let goes : Prop := msgReroutes f.msg = true ∧ (f.src ≠ s.ownModule ∨ root ≠ s.ownModule ∨ f.msg = .finish root id ∨
        (s.collNamed part root id).isSome)
      (goes → s.reroute ((part, f) :: fs) = (s.passOn part f).reroute fs) ∧
      (¬ goes → s.reroute ((part, f) :: fs) = s.reroute fs)) ∧
  (∀ (s : State) (part root id d : Nat) (words : List W64) (mods : List Nat),
    (s.part part).dies[bits (words.headD 0) 49 44]? = some d → s.collNamed part root id = none →
    bit (s.modCtl 0x232) 5 = false →
    let c : Collective := ⟨s.seq, 0, 0, words, bits (words.headD 0) 49 44, root, mods.map (fun m => ⟨m, true, false⟩), [], [], [],
      false, 0, false, none, false, some id, [], [], 0⟩
    s.startMember part root id words mods = s.tell d c root (.failed root id 0x25)) ∧
  (∀ (s : State) (m b e : Nat), s.ev = .n m b e → m < 512 → bit (s.modCtl 0x1B4) 63 = true →
    let r := s.podLinks s.podDie m
    exec .moduleHeartbeatLoss s = .next (r.1.podFallen 16 (r.2.map (fun l => l.1)))) ∧
  (∀ (s : State) (p : Nat) (f : Frame), s.ev = .frame p f → p < 16 →
    let x := mapGet PodPort.reset s.pod p
    x.down = false →
      (s.partOfTag f.ptag.toNat = none → ∃ t, exec .fabricFrameReceive s = .next t ∧
        (∀ q, q ≠ p → mapGet PodPort.reset t.pod q = mapGet PodPort.reset s.pod q) ∧ SameRegs s t ∧ SameMemory s t ∧
        mapGet PodPort.reset t.pod p = { x with dropped := x.dropped + 1 }) ∧
      ∀ part, s.partOfTag f.ptag.toNat = some part →
        (f.msg = .ack → ∃ t, exec .fabricFrameReceive s = .next t ∧ SameRegs s t ∧ SameMemory s t ∧
          (∀ q, q ≠ p → mapGet PodPort.reset t.pod q = mapGet PodPort.reset s.pod q) ∧
          let y := mapGet PodPort.reset t.pod p
          y.unacked = x.unacked.filter (fun g => decide (2 ^ 31 ≤ (f.seq + 2 ^ 32 - g.2.seq) % 2 ^ 32)) ∧
          y.recvSeq = x.recvSeq ∧ y.received = x.received) ∧
        (f.msg ≠ .ack → f.seq ≠ x.recvSeq → exec .fabricFrameReceive s = .next (if x.received.isEmpty then s
          else s.acknowledge part p ((x.recvSeq + 2 ^ 32 - 1) % 2 ^ 32) f)) ∧
        (f.msg ≠ .ack → f.seq = x.recvSeq →
          let u := ({ s with pod := mapPut s.pod p { x with
            recvSeq := (x.recvSeq + 1) % 2 ^ 32, received := x.received ++ [f] } } : State).acknowledge part p f.seq f
          exec .fabricFrameReceive s = .next (u.takeFrame p part f) ∧
          (f.dst = u.ownModule → ∀ va data, f.msg = .write va data →
            u.takeFrame p part f = (u.outsideWrite ((u.part part).dies.headD 0) va.toNat data (64 + p)).1) ∧
          (f.dst = u.ownModule → ∀ va o, f.msg = .atomic va o →
            u.takeFrame p part f = (u.outsideAtomic ((u.part part).dies.headD 0) va.toNat o (.frame part p f.src f.cls)).1) ∧
          (f.dst = u.ownModule → ∀ n count, f.msg = .arrive n count → let b := u.barrier (barKeyOf part 5 0 n)
            u.takeFrame p part f = if b.arrived = 0 ∨ b.gcount = count then u.arriveAt (barKeyOf part 5 0 n) (arrIdx 5 n) count
              else u) ∧
          (f.dst ≠ u.ownModule → (∃ va data, f.msg = .write va data) ∨ (∃ va o, f.msg = .atomic va o) ∨
            (∃ n count, f.msg = .arrive n count) → u.takeFrame p part f = u.passOn part f) ∧
          ∀ root id e c, msgOperation f.msg = some (root, id) → u.collNamed part root id = some (e, c) → f.dst = u.ownModule →
            (msgEpoch f.msg).any (fun y => decide (y ≠ c.epoch)) = true → u.takeFrame p part f = u)) ∧
  (∀ (s s1 : State) (home part p dst cls : Nat) (r : AtomicReq) (old : W64), s.ev = .n home 0 0 →
    r.asker = .frame part p dst cls → homeOf r.key = home → (s.die home).atomics = [r] → r.cycle < s.copyCycle home →
    r.op ≤ 10 →
    (s.modDie home (fun x => { x with atomics := [] })).atomicAt r.key r.size r.op r.x r.cmp = (s1, some old) →
    exec .atomicEnginePerform s = .next (let t := s1.sendMsg part p dst cls (.reply old)
      (if (t.die home).atomics.isEmpty then t else t.nextCycle home).stirLate)) ∧
  (∀ (s : State) (p b e : Nat), s.ev = .n p b e → p < 16 →
    let x := mapGet PodPort.reset s.pod p
    x.down = false → x.unacked ≠ [] →
      (16 ≤ x.attempts → exec .goBackNRetransmission s = .next (s.dueOnce .podLinkLoss (.n p 0 0))) ∧
      (x.attempts < 16 → exec .goBackNRetransmission s =
        .next (({ s with pod := mapPut s.pod p { x with attempts := x.attempts + 1 } } : State).putWire p x.unacked))) ∧
  (∀ (s : State) (d id mask : Nat) (c : Collective), s.ev = .n d id mask → s.coll d id = some c → c.stopped = true →
    c.ending = none →
      (c.pod = false → mask = 0 → ∃ t, exec .epochAckCollect s = .next t ∧ ⟨.treeRebuild, .n d id 0⟩ ∈ t.agenda ∧
        t.timers = s.timers) ∧
      (c.pod = true → ∃ t, exec .epochAckCollect s = .next t ∧ ∀ m ∈ c.members, m.vertex ≠ s.ownModule → m.lost = false →
        ∃ at_, (at_, ⟨.memberAckTimeout, .n d id (c.epoch * 1024 + m.vertex)⟩) ∈ t.timers)) ∧
  (∀ (s : State) (d id x : Nat) (c : Collective), s.ev = .n d id x → s.coll d id = some c → x / 1024 ≠ c.epoch →
    exec .memberAckTimeout s = .next s) ∧
  (∀ (s : State) (d id v : Nat) (c : Collective), s.ev = .n d id (c.epoch * 1024 + v) → v < 1024 → s.coll d id = some c →
    c.stopped = true →
    c.members.any (fun m => decide (m.vertex = v) && !m.lost && !m.acked) = true →
    let ms := c.members.map (fun m => if m.vertex = v then { m with lost := true } else m)
    let s1 := s.modColl d id (fun x => { x with members := ms })
    exec .memberAckTimeout s = .next
      (if ms.all (fun m => m.lost || m.acked) then s1.dueOnce .treeRebuild (.n d id 0) else s1)) ∧
  (∀ (s : State) (d id b : Nat) (c : Collective), s.ev = .n d id b → s.coll d id = some c →
    (c.stopped = true → c.ending = none → (∀ m ∈ c.members, m.lost = true ∨ m.acked = true) →
      (c.pod = true → (∃ m ∈ c.members, m.lost = true) → exec .treeRebuild s = .next (s.endColl d id 0x26)) ∧
      (∀ s1, c.pod = true → (∀ m ∈ c.members, m.lost = false) → s.anyModuleLost (s.belfry d c) c.vertices = (s1, true) →
        exec .treeRebuild s = .next (s1.endColl d id 0x26)) ∧
      (c.pod = false →
        let ms := c.members.map (fun m => { m with lost := m.lost || !s.logDieLive d m.vertex })
        let live := c.dies.filter (fun l => s.logDieLive d l && ms.all (fun m => decide (m.vertex ≠ l) || !m.lost))
        let rootDie := if c.rootDie ∈ live then c.rootDie else live.headD c.rootDie
        let new := decide (rootDie ≠ c.rootDie)
        let c1 : Collective := { c with
          members := ms, rootDie := rootDie, root := rootDie, rootNew := c.rootNew || new,
          recomp := min 255 (c.recomp + 1), stopped := false, partials := [] }
        ∀ s2 trees, s.collTrees d c1 = (s2, trees) →
          let s3 := s2.modColl d id (fun _ => { c1 with trees := trees })
          ((trees = [] ∨ c1.root ∉ c1.vertices) → exec .treeRebuild s = .next (s3.endColl d id 0x25)) ∧
          ∀ s4 lost, trees ≠ [] → c1.root ∈ c1.vertices → s3.homesLost d c1 = (s4, lost) →
            exec .treeRebuild s = .next (if lost = true then s4.endColl d id 0x27 else s4.collBegin d id))) ∧
    (∀ code, c.ending = some code → exec .collectiveCompletion s = .next (s.finishColl d c code)) ∧
    (c.ending = none → exec .collectiveCompletion s = .next s))
end

