-- ==== Sys2Proof/Laws/Issue.lean ====
section
/-! SUPPORT. Laws of the issue stage: all that a slot operation can do, and what a gate that goes
on has found. -/

namespace Sys2Proof.Machine

/-- All that a slot operation on its own can do: stop before its bundle, wait, stall at a queue, stop there, stop at its
checks, or have its effect. -/
theorem slot_exec_cases (o : SlotOp) (s : State) :
    (∃ st, o.before s = some st ∧ o.exec s = .next (s.stopSlot st)) ∨
    (o.before s = none ∧ o.waits s = true ∧ o.exec s = .next s) ∨
    (o.before s = none ∧ o.waits s = false ∧
      ((∃ s1 st, s.popSlot s.iss.slot (queueNums o.pops) = (s1, .stall, st) ∧ o.exec s = .next s) ∨
       (∃ s1 st, s.popSlot s.iss.slot (queueNums o.pops) = (s1, .bad, st) ∧
         o.exec s = .next (s.stopSlot (st.getD (Stop.of 0x0A)))) ∨
       (∃ s1 x s2 st, s.popSlot s.iss.slot (queueNums o.pops) = (s1, .go, x) ∧ o.check s1 = (s2, some st) ∧
         o.exec s = .next (s2.stopSlot st)) ∨
       (∃ s1 x s2, s.popSlot s.iss.slot (queueNums o.pops) = (s1, .go, x) ∧ o.check s1 = (s2, none) ∧
         o.exec s = .next (o.act s2)))) := by
  unfold SlotOp.exec
  cases hb : o.before s with
  | some st => exact .inl ⟨st, rfl, rfl⟩
  | none =>
    cases hh : o.waits s with
    | true => exact .inr (.inl ⟨rfl, rfl, rfl⟩)
    | false =>
      refine .inr (.inr ⟨rfl, rfl, ?_⟩)
      obtain ⟨s1, a, x⟩ := s.popSlot s.iss.slot (queueNums o.pops)
      cases a with
      | stall => exact .inl ⟨s1, x, rfl, rfl⟩
      | bad => exact .inr (.inl ⟨s1, x, rfl, rfl⟩)
      | go =>
        rcases hc : o.check s1 with ⟨s2, st⟩
        cases st with
        | some st => exact .inr (.inr (.inl ⟨s1, x, s2, st, rfl, hc, by simp [hc]⟩))
        | none => exact .inr (.inr (.inr ⟨s1, x, s2, rfl, hc, by simp [hc]⟩))

/-- A chain of gates that goes on went on at its first. -/
theorem then_go {α β : Type} {g : Gate α} {f : State → α → Gate β} {s : State} {y : β} (h : g.then_ f = .go s y) :
    ∃ s1 x, g = .go s1 x ∧ f s1 x = .go s y := by
  cases g with
  | wait t => simp [Gate.then_] at h
  | go s1 x => exact ⟨s1, x, rfl, h⟩

/-- Each operation found for a bundle is its instruction's. -/
theorem runsOf_op {done : Nat} {l : List (Nat × Instr)} {r : SlotRun} (h : r ∈ runsOf done l) :
    slotOp r.instr = some r.op := by
  simp only [runsOf, List.mem_filterMap] at h
  obtain ⟨p, -, hp⟩ := h
  split at hp
  · cases hp
  · cases ho : slotOp p.2 with
    | none => simp [ho] at hp
    | some o => simp only [ho, Option.map_some, Option.some.injEq] at hp; subst hp; exact ho

/-- What decoding goes on with are the operations of its bundle. -/
theorem decodeGate_op {s s1 : State} {k c : Nat} {x : BitVec 256} {runs : List SlotRun}
    (h : s.decodeGate k c = .go s1 (x, runs)) : ∀ r ∈ runs, slotOp r.instr = some r.op := by
  intro r hr
  unfold State.decodeGate at h
  repeat' split at h
  all_goals first
    | cases h; exact runsOf_op hr
    | cases h
    | skip
  all_goals (revert h; (try dsimp only []); intro h; repeat' split at h)
  all_goals first
    | cases h; exact runsOf_op hr
    | cases h
    | skip

/-- The gates go on with the operations of one decoded bundle. -/
theorem gates_op {s s1 : State} {k c : Nat} {x : BitVec 256} {runs : List SlotRun}
    (h : s.gates k c = .go s1 (x, runs)) : ∀ r ∈ runs, slotOp r.instr = some r.op := by
  obtain ⟨u1, _, -, h⟩ := then_go h
  obtain ⟨u2, _, -, h⟩ := then_go h
  obtain ⟨u3, _, -, h⟩ := then_go h
  obtain ⟨u4, _, -, h⟩ := then_go h
  obtain ⟨u5, p, h5, h⟩ := then_go h
  obtain ⟨u6, _, -, h⟩ := then_go h
  obtain ⟨u7, _, -, h⟩ := then_go h
  obtain ⟨u8, _, -, h⟩ := then_go h
  cases h
  exact decodeGate_op h5

end Sys2Proof.Machine
end

