-- ==== Sys2Proof/Laws/Maps.lean ====
section
/-! SUPPORT. The laws of sparse tables: read after write, and that each operation keeps keys rising and the canonical
form. -/

namespace Sys2Proof.Machine

theorem mapGet_mapPut_same {α : Type} (d : α) (t : Table α) (k : Nat) (v : α) : mapGet d (mapPut t k v) k = v := by
  induction t with
  | nil => simp [mapPut, mapGet]
  | cons e t ih =>
    obtain ⟨a, x⟩ := e
    unfold mapPut
    split
    · simp [mapGet]
    · split
      · simp [mapGet]
      · rename_i h1 h2
        rw [mapGet, if_neg (by omega), if_pos (by omega), ih]

theorem mapGet_mapPut_ne {α : Type} (d : α) (t : Table α) (k j : Nat) (v : α) (h : j ≠ k) :
    mapGet d (mapPut t k v) j = mapGet d t j := by
  induction t with
  | nil =>
    simp only [mapPut, mapGet]
    rw [if_neg (Ne.symm h)]
    split <;> rfl
  | cons e t ih =>
    obtain ⟨a, x⟩ := e
    unfold mapPut
    split
    · rename_i h1
      rw [mapGet, if_neg (Ne.symm h)]
      split
      · rfl
      · rw [mapGet, if_neg (by omega), if_neg (by omega)]
    · split
      · rename_i h1 h2
        subst h2
        rw [mapGet, mapGet, if_neg (Ne.symm h), if_neg (Ne.symm h)]
      · rw [mapGet, mapGet, ih]

theorem mapFind_mapPut_same {α : Type} (t : Table α) (k : Nat) (v : α) : mapFind (mapPut t k v) k = some v := by
  induction t with
  | nil => simp [mapPut, mapFind]
  | cons e t ih =>
    obtain ⟨a, x⟩ := e
    unfold mapPut
    split
    · simp [mapFind]
    · split
      · simp [mapFind]
      · rename_i h1 h2
        rw [mapFind, if_neg (by omega), if_pos (by omega), ih]

theorem mapFind_mapPut_ne {α : Type} (t : Table α) (k j : Nat) (v : α) (h : j ≠ k) :
    mapFind (mapPut t k v) j = mapFind t j := by
  induction t with
  | nil =>
    simp only [mapPut, mapFind]
    rw [if_neg (Ne.symm h)]
    split <;> rfl
  | cons e t ih =>
    obtain ⟨a, x⟩ := e
    unfold mapPut
    split
    · rename_i h1
      rw [mapFind, if_neg (Ne.symm h)]
      split
      · rfl
      · rw [mapFind, if_neg (by omega), if_neg (by omega)]
    · split
      · rename_i h1 h2
        subst h2
        rw [mapFind, mapFind, if_neg (Ne.symm h), if_neg (Ne.symm h)]
      · rw [mapFind, mapFind, ih]

/-! Rising keys. -/

theorem mapAbove_mono {α : Type} (t : Table α) (lo hi : Nat) (h : lo ≤ hi) (w : mapAbove hi t = true) :
    mapAbove lo t = true := by
  cases t with
  | nil => rfl
  | cons e t =>
    simp only [mapAbove, Bool.and_eq_true, decide_eq_true_eq] at *
    exact ⟨by omega, w.2⟩

theorem mapAbove_mapPut {α : Type} (t : Table α) (lo k : Nat) (v : α) (h : lo ≤ k) (w : mapAbove lo t = true) :
    mapAbove lo (mapPut t k v) = true := by
  induction t generalizing lo with
  | nil => simp [mapPut, mapAbove, h]
  | cons e t ih =>
    obtain ⟨a, x⟩ := e
    simp only [mapAbove, Bool.and_eq_true, decide_eq_true_eq] at w
    unfold mapPut
    split
    · rename_i h1
      simp only [mapAbove, Bool.and_eq_true, decide_eq_true_eq]
      exact ⟨h, by omega, w.2⟩
    · split
      · rename_i h1 h2
        subst h2
        simp only [mapAbove, Bool.and_eq_true, decide_eq_true_eq]
        exact w
      · rename_i h1 h2
        simp only [mapAbove, Bool.and_eq_true, decide_eq_true_eq]
        exact ⟨w.1, ih (a + 1) (by omega) w.2⟩

theorem mapAbove_mapDel {α : Type} (t : Table α) (lo k : Nat) (w : mapAbove lo t = true) :
    mapAbove lo (mapDel t k) = true := by
  induction t generalizing lo with
  | nil => rfl
  | cons e t ih =>
    obtain ⟨a, x⟩ := e
    have w' := w
    simp only [mapAbove, Bool.and_eq_true, decide_eq_true_eq] at w
    unfold mapDel
    split
    · exact mapAbove_mono t lo (a + 1) (by omega) w.2
    · split
      · simp only [mapAbove, Bool.and_eq_true, decide_eq_true_eq]
        exact ⟨w.1, ih (a + 1) w.2⟩
      · exact w'

theorem mapSorted_mapPut {α : Type} (t : Table α) (k : Nat) (v : α) (w : mapSorted t = true) :
    mapSorted (mapPut t k v) = true := mapAbove_mapPut t 0 k v (Nat.zero_le k) w

theorem mapSorted_mapDel {α : Type} (t : Table α) (k : Nat) (w : mapSorted t = true) :
    mapSorted (mapDel t k) = true := mapAbove_mapDel t 0 k w

theorem mapSorted_mapSet {α : Type} [DecidableEq α] (d : α) (t : Table α) (k : Nat) (v : α)
    (w : mapSorted t = true) : mapSorted (mapSet d t k v) = true := by
  unfold mapSet
  split
  · exact mapSorted_mapDel t k w
  · exact mapSorted_mapPut t k v w

/-- Where every key lies above k, k is unlisted. -/
theorem mapFind_above {α : Type} (t : Table α) (lo k : Nat) (h : k < lo) (w : mapAbove lo t = true) :
    mapFind t k = none := by
  cases t with
  | nil => rfl
  | cons e t =>
    simp only [mapAbove, Bool.and_eq_true, decide_eq_true_eq] at w
    rw [mapFind, if_neg (by omega), if_neg (by omega)]

theorem mapFind_mapDel_same {α : Type} (t : Table α) (lo k : Nat) (w : mapAbove lo t = true) :
    mapFind (mapDel t k) k = none := by
  induction t generalizing lo with
  | nil => rfl
  | cons e t ih =>
    obtain ⟨a, x⟩ := e
    simp only [mapAbove, Bool.and_eq_true, decide_eq_true_eq] at w
    unfold mapDel
    split
    · rename_i h1
      exact mapFind_above t (a + 1) k (by omega) w.2
    · split
      · rw [mapFind, if_neg (by omega), if_pos (by omega)]
        exact ih (a + 1) w.2
      · rw [mapFind, if_neg (by omega), if_neg (by omega)]

theorem mapFind_mapDel_ne {α : Type} (t : Table α) (lo k j : Nat) (h : j ≠ k) (w : mapAbove lo t = true) :
    mapFind (mapDel t k) j = mapFind t j := by
  induction t generalizing lo with
  | nil => rfl
  | cons e t ih =>
    obtain ⟨a, x⟩ := e
    simp only [mapAbove, Bool.and_eq_true, decide_eq_true_eq] at w
    unfold mapDel
    split
    · rename_i h1
      subst h1
      rw [mapFind, if_neg (Ne.symm h)]
      split
      · rfl
      · exact mapFind_above t (a + 1) j (by omega) w.2
    · split
      · rw [mapFind, mapFind, ih (a + 1) w.2]
      · rfl

/-- A read is the listed value, or the default. -/
theorem mapGet_eq_mapFind {α : Type} (d : α) (t : Table α) (k : Nat) : mapGet d t k = (mapFind t k).getD d := by
  induction t with
  | nil => rfl
  | cons e t ih =>
    obtain ⟨a, x⟩ := e
    rw [mapGet, mapFind]
    split
    · rfl
    · split
      · exact ih
      · rfl

theorem mapFind_mapSet_same {α : Type} [DecidableEq α] (d : α) (t : Table α) (k : Nat) (v : α)
    (w : mapSorted t = true) : (mapFind (mapSet d t k v) k).getD d = v := by
  unfold mapSet
  split
  · rename_i h
    rw [mapFind_mapDel_same t 0 k w, h]; rfl
  · rw [mapFind_mapPut_same]; rfl

theorem mapFind_mapSet_ne {α : Type} [DecidableEq α] (d : α) (t : Table α) (k j : Nat) (v : α) (h : j ≠ k)
    (w : mapSorted t = true) : mapFind (mapSet d t k v) j = mapFind t j := by
  unfold mapSet
  split
  · exact mapFind_mapDel_ne t 0 k j h w
  · exact mapFind_mapPut_ne t k j v h

theorem mapGet_mapSet_same {α : Type} [DecidableEq α] (d : α) (t : Table α) (k : Nat) (v : α)
    (w : mapSorted t = true) : mapGet d (mapSet d t k v) k = v := by
  rw [mapGet_eq_mapFind, mapFind_mapSet_same d t k v w]

theorem mapGet_mapSet_ne {α : Type} [DecidableEq α] (d : α) (t : Table α) (k j : Nat) (v : α) (h : j ≠ k)
    (w : mapSorted t = true) : mapGet d (mapSet d t k v) j = mapGet d t j := by
  rw [mapGet_eq_mapFind, mapGet_eq_mapFind, mapFind_mapSet_ne d t k j v h w]

/-! No entry holds the default. -/

theorem mapPut_all {α : Type} (p : Nat × α → Bool) (t : Table α) (k : Nat) (v : α) (h : p (k, v) = true)
    (w : t.all p = true) : (mapPut t k v).all p = true := by
  induction t with
  | nil => simp [mapPut, h]
  | cons e t ih =>
    obtain ⟨a, x⟩ := e
    simp only [List.all_cons, Bool.and_eq_true] at w
    unfold mapPut
    split
    · simp [h, w.1, w.2]
    · split
      · simp only [List.all_cons, Bool.and_eq_true]
        exact ⟨h, w.2⟩
      · simp only [List.all_cons, Bool.and_eq_true]
        exact ⟨w.1, ih w.2⟩

theorem mapDel_all {α : Type} (p : Nat × α → Bool) (t : Table α) (k : Nat) (w : t.all p = true) :
    (mapDel t k).all p = true := by
  induction t with
  | nil => rfl
  | cons e t ih =>
    obtain ⟨a, x⟩ := e
    have w' := w
    simp only [List.all_cons, Bool.and_eq_true] at w
    unfold mapDel
    split
    · exact w.2
    · split
      · simp only [List.all_cons, Bool.and_eq_true]
        exact ⟨w.1, ih w.2⟩
      · exact w'

theorem mapWf_mapSet {α : Type} [DecidableEq α] (d : α) (t : Table α) (k : Nat) (v : α) (w : mapWf d t = true) :
    mapWf d (mapSet d t k v) = true := by
  simp only [mapWf, Bool.and_eq_true] at *
  refine ⟨mapSorted_mapSet d t k v w.1, ?_⟩
  unfold mapSet
  split
  · exact mapDel_all _ t k w.2
  · rename_i h
    exact mapPut_all _ t k v (by simpa using h) w.2

/-- A canonical table has rising keys. -/
theorem mapSorted_of_mapWf {α : Type} [DecidableEq α] (d : α) (t : Table α) (w : mapWf d t = true) :
    mapSorted t = true := by
  simp only [mapWf, Bool.and_eq_true] at w
  exact w.1

end Sys2Proof.Machine
end

