-- ==== Sys2Proof/Laws/State.lean ====
section
/-! SUPPORT. One lemma per field per update of State, so that no proof unfolds a record update; and what the records of
units read after an update. -/

namespace Sys2Proof.Machine

/-! Where a context's record is replaced (`State.setCtx`). -/

@[simp] theorem State.setCtx_now (s : State) (c : Nat) (x : Ctx) : (s.setCtx c x).now = s.now := rfl
@[simp] theorem State.setCtx_seq (s : State) (c : Nat) (x : Ctx) : (s.setCtx c x).seq = s.seq := rfl
@[simp] theorem State.setCtx_free (s : State) (c : Nat) (x : Ctx) : (s.setCtx c x).free = s.free := rfl
@[simp] theorem State.setCtx_agenda (s : State) (c : Nat) (x : Ctx) : (s.setCtx c x).agenda = s.agenda := rfl
@[simp] theorem State.setCtx_timers (s : State) (c : Nat) (x : Ctx) : (s.setCtx c x).timers = s.timers := rfl
@[simp] theorem State.setCtx_ev (s : State) (c : Nat) (x : Ctx) : (s.setCtx c x).ev = s.ev := rfl
@[simp] theorem State.setCtx_mem (s : State) (c : Nat) (x : Ctx) : (s.setCtx c x).mem = s.mem := rfl
@[simp] theorem State.setCtx_pkids (s : State) (c : Nat) (x : Ctx) : (s.setCtx c x).pkids = s.pkids := rfl
@[simp] theorem State.setCtx_poison (s : State) (c : Nat) (x : Ctx) : (s.setCtx c x).poison = s.poison := rfl
@[simp] theorem State.setCtx_loc (s : State) (c : Nat) (x : Ctx) : (s.setCtx c x).loc = s.loc := rfl
@[simp] theorem State.setCtx_rgs (s : State) (c : Nat) (x : Ctx) : (s.setCtx c x).rgs = s.rgs := rfl
@[simp] theorem State.setCtx_cores (s : State) (c : Nat) (x : Ctx) : (s.setCtx c x).cores = s.cores := rfl
@[simp] theorem State.setCtx_dies (s : State) (c : Nat) (x : Ctx) : (s.setCtx c x).dies = s.dies := rfl
@[simp] theorem State.setCtx_mctl (s : State) (c : Nat) (x : Ctx) : (s.setCtx c x).mctl = s.mctl := rfl
@[simp] theorem State.setCtx_trained (s : State) (c : Nat) (x : Ctx) : (s.setCtx c x).trained = s.trained := rfl
@[simp] theorem State.setCtx_parts (s : State) (c : Nat) (x : Ctx) : (s.setCtx c x).parts = s.parts := rfl
@[simp] theorem State.setCtx_assigns (s : State) (c : Nat) (x : Ctx) : (s.setCtx c x).assigns = s.assigns := rfl
@[simp] theorem State.setCtx_vfs (s : State) (c : Nat) (x : Ctx) : (s.setCtx c x).vfs = s.vfs := rfl
@[simp] theorem State.setCtx_hostMem (s : State) (c : Nat) (x : Ctx) : (s.setCtx c x).hostMem = s.hostMem := rfl
@[simp] theorem State.setCtx_pod (s : State) (c : Nat) (x : Ctx) : (s.setCtx c x).pod = s.pod := rfl
@[simp] theorem State.setCtx_early (s : State) (c : Nat) (x : Ctx) : (s.setCtx c x).early = s.early := rfl
@[simp] theorem State.setCtx_hostHeld (s : State) (c : Nat) (x : Ctx) : (s.setCtx c x).hostHeld = s.hostHeld := rfl
@[simp] theorem State.setCtx_barriers (s : State) (c : Nat) (x : Ctx) : (s.setCtx c x).barriers = s.barriers := rfl
@[simp] theorem State.setCtx_features (s : State) (c : Nat) (x : Ctx) : (s.setCtx c x).features = s.features := rfl
@[simp] theorem State.setCtx_requests (s : State) (c : Nat) (x : Ctx) : (s.setCtx c x).requests = s.requests := rfl
@[simp] theorem State.setCtx_lateOps (s : State) (c : Nat) (x : Ctx) : (s.setCtx c x).lateOps = s.lateOps := rfl
@[simp] theorem State.setCtx_reports (s : State) (c : Nat) (x : Ctx) : (s.setCtx c x).reports = s.reports := rfl
@[simp] theorem State.setCtx_trace (s : State) (c : Nat) (x : Ctx) : (s.setCtx c x).trace = s.trace := rfl
@[simp] theorem State.setCtx_iss (s : State) (c : Nat) (x : Ctx) : (s.setCtx c x).iss = s.iss := rfl

/-! Where a context's record changes (`State.modCtx`). -/

@[simp] theorem State.modCtx_now (s : State) (c : Nat) (f : Ctx → Ctx) : (s.modCtx c f).now = s.now := rfl
@[simp] theorem State.modCtx_seq (s : State) (c : Nat) (f : Ctx → Ctx) : (s.modCtx c f).seq = s.seq := rfl
@[simp] theorem State.modCtx_free (s : State) (c : Nat) (f : Ctx → Ctx) : (s.modCtx c f).free = s.free := rfl
@[simp] theorem State.modCtx_agenda (s : State) (c : Nat) (f : Ctx → Ctx) : (s.modCtx c f).agenda = s.agenda := rfl
@[simp] theorem State.modCtx_timers (s : State) (c : Nat) (f : Ctx → Ctx) : (s.modCtx c f).timers = s.timers := rfl
@[simp] theorem State.modCtx_ev (s : State) (c : Nat) (f : Ctx → Ctx) : (s.modCtx c f).ev = s.ev := rfl
@[simp] theorem State.modCtx_mem (s : State) (c : Nat) (f : Ctx → Ctx) : (s.modCtx c f).mem = s.mem := rfl
@[simp] theorem State.modCtx_pkids (s : State) (c : Nat) (f : Ctx → Ctx) : (s.modCtx c f).pkids = s.pkids := rfl
@[simp] theorem State.modCtx_poison (s : State) (c : Nat) (f : Ctx → Ctx) : (s.modCtx c f).poison = s.poison := rfl
@[simp] theorem State.modCtx_loc (s : State) (c : Nat) (f : Ctx → Ctx) : (s.modCtx c f).loc = s.loc := rfl
@[simp] theorem State.modCtx_rgs (s : State) (c : Nat) (f : Ctx → Ctx) : (s.modCtx c f).rgs = s.rgs := rfl
@[simp] theorem State.modCtx_cores (s : State) (c : Nat) (f : Ctx → Ctx) : (s.modCtx c f).cores = s.cores := rfl
@[simp] theorem State.modCtx_dies (s : State) (c : Nat) (f : Ctx → Ctx) : (s.modCtx c f).dies = s.dies := rfl
@[simp] theorem State.modCtx_mctl (s : State) (c : Nat) (f : Ctx → Ctx) : (s.modCtx c f).mctl = s.mctl := rfl
@[simp] theorem State.modCtx_trained (s : State) (c : Nat) (f : Ctx → Ctx) : (s.modCtx c f).trained = s.trained := rfl
@[simp] theorem State.modCtx_parts (s : State) (c : Nat) (f : Ctx → Ctx) : (s.modCtx c f).parts = s.parts := rfl
@[simp] theorem State.modCtx_assigns (s : State) (c : Nat) (f : Ctx → Ctx) : (s.modCtx c f).assigns = s.assigns := rfl
@[simp] theorem State.modCtx_vfs (s : State) (c : Nat) (f : Ctx → Ctx) : (s.modCtx c f).vfs = s.vfs := rfl
@[simp] theorem State.modCtx_hostMem (s : State) (c : Nat) (f : Ctx → Ctx) : (s.modCtx c f).hostMem = s.hostMem := rfl
@[simp] theorem State.modCtx_pod (s : State) (c : Nat) (f : Ctx → Ctx) : (s.modCtx c f).pod = s.pod := rfl
@[simp] theorem State.modCtx_early (s : State) (c : Nat) (f : Ctx → Ctx) : (s.modCtx c f).early = s.early := rfl
@[simp] theorem State.modCtx_hostHeld (s : State) (c : Nat) (f : Ctx → Ctx) : (s.modCtx c f).hostHeld = s.hostHeld := rfl
@[simp] theorem State.modCtx_barriers (s : State) (c : Nat) (f : Ctx → Ctx) : (s.modCtx c f).barriers = s.barriers := rfl
@[simp] theorem State.modCtx_features (s : State) (c : Nat) (f : Ctx → Ctx) : (s.modCtx c f).features = s.features := rfl
@[simp] theorem State.modCtx_requests (s : State) (c : Nat) (f : Ctx → Ctx) : (s.modCtx c f).requests = s.requests := rfl
@[simp] theorem State.modCtx_lateOps (s : State) (c : Nat) (f : Ctx → Ctx) : (s.modCtx c f).lateOps = s.lateOps := rfl
@[simp] theorem State.modCtx_reports (s : State) (c : Nat) (f : Ctx → Ctx) : (s.modCtx c f).reports = s.reports := rfl
@[simp] theorem State.modCtx_trace (s : State) (c : Nat) (f : Ctx → Ctx) : (s.modCtx c f).trace = s.trace := rfl
@[simp] theorem State.modCtx_iss (s : State) (c : Nat) (f : Ctx → Ctx) : (s.modCtx c f).iss = s.iss := rfl

/-! Where a core's record is replaced (`State.setCore`). -/

@[simp] theorem State.setCore_now (s : State) (k : Nat) (x : Core) : (s.setCore k x).now = s.now := rfl
@[simp] theorem State.setCore_seq (s : State) (k : Nat) (x : Core) : (s.setCore k x).seq = s.seq := rfl
@[simp] theorem State.setCore_free (s : State) (k : Nat) (x : Core) : (s.setCore k x).free = s.free := rfl
@[simp] theorem State.setCore_agenda (s : State) (k : Nat) (x : Core) : (s.setCore k x).agenda = s.agenda := rfl
@[simp] theorem State.setCore_timers (s : State) (k : Nat) (x : Core) : (s.setCore k x).timers = s.timers := rfl
@[simp] theorem State.setCore_ev (s : State) (k : Nat) (x : Core) : (s.setCore k x).ev = s.ev := rfl
@[simp] theorem State.setCore_mem (s : State) (k : Nat) (x : Core) : (s.setCore k x).mem = s.mem := rfl
@[simp] theorem State.setCore_pkids (s : State) (k : Nat) (x : Core) : (s.setCore k x).pkids = s.pkids := rfl
@[simp] theorem State.setCore_poison (s : State) (k : Nat) (x : Core) : (s.setCore k x).poison = s.poison := rfl
@[simp] theorem State.setCore_loc (s : State) (k : Nat) (x : Core) : (s.setCore k x).loc = s.loc := rfl
@[simp] theorem State.setCore_rgs (s : State) (k : Nat) (x : Core) : (s.setCore k x).rgs = s.rgs := rfl
@[simp] theorem State.setCore_ctxs (s : State) (k : Nat) (x : Core) : (s.setCore k x).ctxs = s.ctxs := rfl
@[simp] theorem State.setCore_dies (s : State) (k : Nat) (x : Core) : (s.setCore k x).dies = s.dies := rfl
@[simp] theorem State.setCore_mctl (s : State) (k : Nat) (x : Core) : (s.setCore k x).mctl = s.mctl := rfl
@[simp] theorem State.setCore_trained (s : State) (k : Nat) (x : Core) : (s.setCore k x).trained = s.trained := rfl
@[simp] theorem State.setCore_parts (s : State) (k : Nat) (x : Core) : (s.setCore k x).parts = s.parts := rfl
@[simp] theorem State.setCore_assigns (s : State) (k : Nat) (x : Core) : (s.setCore k x).assigns = s.assigns := rfl
@[simp] theorem State.setCore_vfs (s : State) (k : Nat) (x : Core) : (s.setCore k x).vfs = s.vfs := rfl
@[simp] theorem State.setCore_hostMem (s : State) (k : Nat) (x : Core) : (s.setCore k x).hostMem = s.hostMem := rfl
@[simp] theorem State.setCore_pod (s : State) (k : Nat) (x : Core) : (s.setCore k x).pod = s.pod := rfl
@[simp] theorem State.setCore_early (s : State) (k : Nat) (x : Core) : (s.setCore k x).early = s.early := rfl
@[simp] theorem State.setCore_hostHeld (s : State) (k : Nat) (x : Core) : (s.setCore k x).hostHeld = s.hostHeld := rfl
@[simp] theorem State.setCore_barriers (s : State) (k : Nat) (x : Core) : (s.setCore k x).barriers = s.barriers := rfl
@[simp] theorem State.setCore_features (s : State) (k : Nat) (x : Core) : (s.setCore k x).features = s.features := rfl
@[simp] theorem State.setCore_requests (s : State) (k : Nat) (x : Core) : (s.setCore k x).requests = s.requests := rfl
@[simp] theorem State.setCore_lateOps (s : State) (k : Nat) (x : Core) : (s.setCore k x).lateOps = s.lateOps := rfl
@[simp] theorem State.setCore_reports (s : State) (k : Nat) (x : Core) : (s.setCore k x).reports = s.reports := rfl
@[simp] theorem State.setCore_trace (s : State) (k : Nat) (x : Core) : (s.setCore k x).trace = s.trace := rfl
@[simp] theorem State.setCore_iss (s : State) (k : Nat) (x : Core) : (s.setCore k x).iss = s.iss := rfl

/-! Where a core's record changes (`State.modCore`). -/

@[simp] theorem State.modCore_now (s : State) (k : Nat) (f : Core → Core) : (s.modCore k f).now = s.now := rfl
@[simp] theorem State.modCore_seq (s : State) (k : Nat) (f : Core → Core) : (s.modCore k f).seq = s.seq := rfl
@[simp] theorem State.modCore_free (s : State) (k : Nat) (f : Core → Core) : (s.modCore k f).free = s.free := rfl
@[simp] theorem State.modCore_agenda (s : State) (k : Nat) (f : Core → Core) : (s.modCore k f).agenda = s.agenda := rfl
@[simp] theorem State.modCore_timers (s : State) (k : Nat) (f : Core → Core) : (s.modCore k f).timers = s.timers := rfl
@[simp] theorem State.modCore_ev (s : State) (k : Nat) (f : Core → Core) : (s.modCore k f).ev = s.ev := rfl
@[simp] theorem State.modCore_mem (s : State) (k : Nat) (f : Core → Core) : (s.modCore k f).mem = s.mem := rfl
@[simp] theorem State.modCore_pkids (s : State) (k : Nat) (f : Core → Core) : (s.modCore k f).pkids = s.pkids := rfl
@[simp] theorem State.modCore_poison (s : State) (k : Nat) (f : Core → Core) : (s.modCore k f).poison = s.poison := rfl
@[simp] theorem State.modCore_loc (s : State) (k : Nat) (f : Core → Core) : (s.modCore k f).loc = s.loc := rfl
@[simp] theorem State.modCore_rgs (s : State) (k : Nat) (f : Core → Core) : (s.modCore k f).rgs = s.rgs := rfl
@[simp] theorem State.modCore_ctxs (s : State) (k : Nat) (f : Core → Core) : (s.modCore k f).ctxs = s.ctxs := rfl
@[simp] theorem State.modCore_dies (s : State) (k : Nat) (f : Core → Core) : (s.modCore k f).dies = s.dies := rfl
@[simp] theorem State.modCore_mctl (s : State) (k : Nat) (f : Core → Core) : (s.modCore k f).mctl = s.mctl := rfl
@[simp] theorem State.modCore_trained (s : State) (k : Nat) (f : Core → Core) : (s.modCore k f).trained = s.trained := rfl
@[simp] theorem State.modCore_parts (s : State) (k : Nat) (f : Core → Core) : (s.modCore k f).parts = s.parts := rfl
@[simp] theorem State.modCore_assigns (s : State) (k : Nat) (f : Core → Core) : (s.modCore k f).assigns = s.assigns := rfl
@[simp] theorem State.modCore_vfs (s : State) (k : Nat) (f : Core → Core) : (s.modCore k f).vfs = s.vfs := rfl
@[simp] theorem State.modCore_hostMem (s : State) (k : Nat) (f : Core → Core) : (s.modCore k f).hostMem = s.hostMem := rfl
@[simp] theorem State.modCore_pod (s : State) (k : Nat) (f : Core → Core) : (s.modCore k f).pod = s.pod := rfl
@[simp] theorem State.modCore_early (s : State) (k : Nat) (f : Core → Core) : (s.modCore k f).early = s.early := rfl
@[simp] theorem State.modCore_hostHeld (s : State) (k : Nat) (f : Core → Core) : (s.modCore k f).hostHeld = s.hostHeld := rfl
@[simp] theorem State.modCore_barriers (s : State) (k : Nat) (f : Core → Core) : (s.modCore k f).barriers = s.barriers := rfl
@[simp] theorem State.modCore_features (s : State) (k : Nat) (f : Core → Core) : (s.modCore k f).features = s.features := rfl
@[simp] theorem State.modCore_requests (s : State) (k : Nat) (f : Core → Core) : (s.modCore k f).requests = s.requests := rfl
@[simp] theorem State.modCore_lateOps (s : State) (k : Nat) (f : Core → Core) : (s.modCore k f).lateOps = s.lateOps := rfl
@[simp] theorem State.modCore_reports (s : State) (k : Nat) (f : Core → Core) : (s.modCore k f).reports = s.reports := rfl
@[simp] theorem State.modCore_trace (s : State) (k : Nat) (f : Core → Core) : (s.modCore k f).trace = s.trace := rfl
@[simp] theorem State.modCore_iss (s : State) (k : Nat) (f : Core → Core) : (s.modCore k f).iss = s.iss := rfl

/-! Where a die's record is replaced (`State.setDie`). -/

@[simp] theorem State.setDie_now (s : State) (d : Nat) (x : Die) : (s.setDie d x).now = s.now := rfl
@[simp] theorem State.setDie_seq (s : State) (d : Nat) (x : Die) : (s.setDie d x).seq = s.seq := rfl
@[simp] theorem State.setDie_free (s : State) (d : Nat) (x : Die) : (s.setDie d x).free = s.free := rfl
@[simp] theorem State.setDie_agenda (s : State) (d : Nat) (x : Die) : (s.setDie d x).agenda = s.agenda := rfl
@[simp] theorem State.setDie_timers (s : State) (d : Nat) (x : Die) : (s.setDie d x).timers = s.timers := rfl
@[simp] theorem State.setDie_ev (s : State) (d : Nat) (x : Die) : (s.setDie d x).ev = s.ev := rfl
@[simp] theorem State.setDie_mem (s : State) (d : Nat) (x : Die) : (s.setDie d x).mem = s.mem := rfl
@[simp] theorem State.setDie_pkids (s : State) (d : Nat) (x : Die) : (s.setDie d x).pkids = s.pkids := rfl
@[simp] theorem State.setDie_poison (s : State) (d : Nat) (x : Die) : (s.setDie d x).poison = s.poison := rfl
@[simp] theorem State.setDie_loc (s : State) (d : Nat) (x : Die) : (s.setDie d x).loc = s.loc := rfl
@[simp] theorem State.setDie_rgs (s : State) (d : Nat) (x : Die) : (s.setDie d x).rgs = s.rgs := rfl
@[simp] theorem State.setDie_ctxs (s : State) (d : Nat) (x : Die) : (s.setDie d x).ctxs = s.ctxs := rfl
@[simp] theorem State.setDie_cores (s : State) (d : Nat) (x : Die) : (s.setDie d x).cores = s.cores := rfl
@[simp] theorem State.setDie_mctl (s : State) (d : Nat) (x : Die) : (s.setDie d x).mctl = s.mctl := rfl
@[simp] theorem State.setDie_trained (s : State) (d : Nat) (x : Die) : (s.setDie d x).trained = s.trained := rfl
@[simp] theorem State.setDie_parts (s : State) (d : Nat) (x : Die) : (s.setDie d x).parts = s.parts := rfl
@[simp] theorem State.setDie_assigns (s : State) (d : Nat) (x : Die) : (s.setDie d x).assigns = s.assigns := rfl
@[simp] theorem State.setDie_vfs (s : State) (d : Nat) (x : Die) : (s.setDie d x).vfs = s.vfs := rfl
@[simp] theorem State.setDie_hostMem (s : State) (d : Nat) (x : Die) : (s.setDie d x).hostMem = s.hostMem := rfl
@[simp] theorem State.setDie_pod (s : State) (d : Nat) (x : Die) : (s.setDie d x).pod = s.pod := rfl
@[simp] theorem State.setDie_early (s : State) (d : Nat) (x : Die) : (s.setDie d x).early = s.early := rfl
@[simp] theorem State.setDie_hostHeld (s : State) (d : Nat) (x : Die) : (s.setDie d x).hostHeld = s.hostHeld := rfl
@[simp] theorem State.setDie_barriers (s : State) (d : Nat) (x : Die) : (s.setDie d x).barriers = s.barriers := rfl
@[simp] theorem State.setDie_features (s : State) (d : Nat) (x : Die) : (s.setDie d x).features = s.features := rfl
@[simp] theorem State.setDie_requests (s : State) (d : Nat) (x : Die) : (s.setDie d x).requests = s.requests := rfl
@[simp] theorem State.setDie_lateOps (s : State) (d : Nat) (x : Die) : (s.setDie d x).lateOps = s.lateOps := rfl
@[simp] theorem State.setDie_reports (s : State) (d : Nat) (x : Die) : (s.setDie d x).reports = s.reports := rfl
@[simp] theorem State.setDie_trace (s : State) (d : Nat) (x : Die) : (s.setDie d x).trace = s.trace := rfl
@[simp] theorem State.setDie_iss (s : State) (d : Nat) (x : Die) : (s.setDie d x).iss = s.iss := rfl

/-! Where a die's record changes (`State.modDie`). -/

@[simp] theorem State.modDie_now (s : State) (d : Nat) (f : Die → Die) : (s.modDie d f).now = s.now := rfl
@[simp] theorem State.modDie_seq (s : State) (d : Nat) (f : Die → Die) : (s.modDie d f).seq = s.seq := rfl
@[simp] theorem State.modDie_free (s : State) (d : Nat) (f : Die → Die) : (s.modDie d f).free = s.free := rfl
@[simp] theorem State.modDie_agenda (s : State) (d : Nat) (f : Die → Die) : (s.modDie d f).agenda = s.agenda := rfl
@[simp] theorem State.modDie_timers (s : State) (d : Nat) (f : Die → Die) : (s.modDie d f).timers = s.timers := rfl
@[simp] theorem State.modDie_ev (s : State) (d : Nat) (f : Die → Die) : (s.modDie d f).ev = s.ev := rfl
@[simp] theorem State.modDie_mem (s : State) (d : Nat) (f : Die → Die) : (s.modDie d f).mem = s.mem := rfl
@[simp] theorem State.modDie_pkids (s : State) (d : Nat) (f : Die → Die) : (s.modDie d f).pkids = s.pkids := rfl
@[simp] theorem State.modDie_poison (s : State) (d : Nat) (f : Die → Die) : (s.modDie d f).poison = s.poison := rfl
@[simp] theorem State.modDie_loc (s : State) (d : Nat) (f : Die → Die) : (s.modDie d f).loc = s.loc := rfl
@[simp] theorem State.modDie_rgs (s : State) (d : Nat) (f : Die → Die) : (s.modDie d f).rgs = s.rgs := rfl
@[simp] theorem State.modDie_ctxs (s : State) (d : Nat) (f : Die → Die) : (s.modDie d f).ctxs = s.ctxs := rfl
@[simp] theorem State.modDie_cores (s : State) (d : Nat) (f : Die → Die) : (s.modDie d f).cores = s.cores := rfl
@[simp] theorem State.modDie_mctl (s : State) (d : Nat) (f : Die → Die) : (s.modDie d f).mctl = s.mctl := rfl
@[simp] theorem State.modDie_trained (s : State) (d : Nat) (f : Die → Die) : (s.modDie d f).trained = s.trained := rfl
@[simp] theorem State.modDie_parts (s : State) (d : Nat) (f : Die → Die) : (s.modDie d f).parts = s.parts := rfl
@[simp] theorem State.modDie_assigns (s : State) (d : Nat) (f : Die → Die) : (s.modDie d f).assigns = s.assigns := rfl
@[simp] theorem State.modDie_vfs (s : State) (d : Nat) (f : Die → Die) : (s.modDie d f).vfs = s.vfs := rfl
@[simp] theorem State.modDie_hostMem (s : State) (d : Nat) (f : Die → Die) : (s.modDie d f).hostMem = s.hostMem := rfl
@[simp] theorem State.modDie_pod (s : State) (d : Nat) (f : Die → Die) : (s.modDie d f).pod = s.pod := rfl
@[simp] theorem State.modDie_early (s : State) (d : Nat) (f : Die → Die) : (s.modDie d f).early = s.early := rfl
@[simp] theorem State.modDie_hostHeld (s : State) (d : Nat) (f : Die → Die) : (s.modDie d f).hostHeld = s.hostHeld := rfl
@[simp] theorem State.modDie_barriers (s : State) (d : Nat) (f : Die → Die) : (s.modDie d f).barriers = s.barriers := rfl
@[simp] theorem State.modDie_features (s : State) (d : Nat) (f : Die → Die) : (s.modDie d f).features = s.features := rfl
@[simp] theorem State.modDie_requests (s : State) (d : Nat) (f : Die → Die) : (s.modDie d f).requests = s.requests := rfl
@[simp] theorem State.modDie_lateOps (s : State) (d : Nat) (f : Die → Die) : (s.modDie d f).lateOps = s.lateOps := rfl
@[simp] theorem State.modDie_reports (s : State) (d : Nat) (f : Die → Die) : (s.modDie d f).reports = s.reports := rfl
@[simp] theorem State.modDie_trace (s : State) (d : Nat) (f : Die → Die) : (s.modDie d f).trace = s.trace := rfl
@[simp] theorem State.modDie_iss (s : State) (d : Nat) (f : Die → Die) : (s.modDie d f).iss = s.iss := rfl

/-! Where a partition's record changes (`State.modPart`). -/

@[simp] theorem State.modPart_now (s : State) (p : Nat) (f : Partition → Partition) : (s.modPart p f).now = s.now := rfl
@[simp] theorem State.modPart_seq (s : State) (p : Nat) (f : Partition → Partition) : (s.modPart p f).seq = s.seq := rfl
@[simp] theorem State.modPart_free (s : State) (p : Nat) (f : Partition → Partition) : (s.modPart p f).free = s.free := rfl
@[simp] theorem State.modPart_agenda (s : State) (p : Nat) (f : Partition → Partition) : (s.modPart p f).agenda = s.agenda := rfl
@[simp] theorem State.modPart_timers (s : State) (p : Nat) (f : Partition → Partition) : (s.modPart p f).timers = s.timers := rfl
@[simp] theorem State.modPart_ev (s : State) (p : Nat) (f : Partition → Partition) : (s.modPart p f).ev = s.ev := rfl
@[simp] theorem State.modPart_mem (s : State) (p : Nat) (f : Partition → Partition) : (s.modPart p f).mem = s.mem := rfl
@[simp] theorem State.modPart_pkids (s : State) (p : Nat) (f : Partition → Partition) : (s.modPart p f).pkids = s.pkids := rfl
@[simp] theorem State.modPart_poison (s : State) (p : Nat) (f : Partition → Partition) : (s.modPart p f).poison = s.poison := rfl
@[simp] theorem State.modPart_loc (s : State) (p : Nat) (f : Partition → Partition) : (s.modPart p f).loc = s.loc := rfl
@[simp] theorem State.modPart_rgs (s : State) (p : Nat) (f : Partition → Partition) : (s.modPart p f).rgs = s.rgs := rfl
@[simp] theorem State.modPart_ctxs (s : State) (p : Nat) (f : Partition → Partition) : (s.modPart p f).ctxs = s.ctxs := rfl
@[simp] theorem State.modPart_cores (s : State) (p : Nat) (f : Partition → Partition) : (s.modPart p f).cores = s.cores := rfl
@[simp] theorem State.modPart_dies (s : State) (p : Nat) (f : Partition → Partition) : (s.modPart p f).dies = s.dies := rfl
@[simp] theorem State.modPart_mctl (s : State) (p : Nat) (f : Partition → Partition) : (s.modPart p f).mctl = s.mctl := rfl
@[simp] theorem State.modPart_trained (s : State) (p : Nat) (f : Partition → Partition) : (s.modPart p f).trained = s.trained := rfl
@[simp] theorem State.modPart_assigns (s : State) (p : Nat) (f : Partition → Partition) : (s.modPart p f).assigns = s.assigns := rfl
@[simp] theorem State.modPart_vfs (s : State) (p : Nat) (f : Partition → Partition) : (s.modPart p f).vfs = s.vfs := rfl
@[simp] theorem State.modPart_hostMem (s : State) (p : Nat) (f : Partition → Partition) : (s.modPart p f).hostMem = s.hostMem := rfl
@[simp] theorem State.modPart_pod (s : State) (p : Nat) (f : Partition → Partition) : (s.modPart p f).pod = s.pod := rfl
@[simp] theorem State.modPart_early (s : State) (p : Nat) (f : Partition → Partition) : (s.modPart p f).early = s.early := rfl
@[simp] theorem State.modPart_hostHeld (s : State) (p : Nat) (f : Partition → Partition) : (s.modPart p f).hostHeld = s.hostHeld := rfl
@[simp] theorem State.modPart_barriers (s : State) (p : Nat) (f : Partition → Partition) : (s.modPart p f).barriers = s.barriers := rfl
@[simp] theorem State.modPart_features (s : State) (p : Nat) (f : Partition → Partition) : (s.modPart p f).features = s.features := rfl
@[simp] theorem State.modPart_requests (s : State) (p : Nat) (f : Partition → Partition) : (s.modPart p f).requests = s.requests := rfl
@[simp] theorem State.modPart_lateOps (s : State) (p : Nat) (f : Partition → Partition) : (s.modPart p f).lateOps = s.lateOps := rfl
@[simp] theorem State.modPart_reports (s : State) (p : Nat) (f : Partition → Partition) : (s.modPart p f).reports = s.reports := rfl
@[simp] theorem State.modPart_trace (s : State) (p : Nat) (f : Partition → Partition) : (s.modPart p f).trace = s.trace := rfl
@[simp] theorem State.modPart_iss (s : State) (p : Nat) (f : Partition → Partition) : (s.modPart p f).iss = s.iss := rfl

/-! Where an event becomes due (`State.due`). -/

@[simp] theorem State.due_now (s : State) (i : Instr) (o : EvArg) : (s.due i o).now = s.now := rfl
@[simp] theorem State.due_seq (s : State) (i : Instr) (o : EvArg) : (s.due i o).seq = s.seq := rfl
@[simp] theorem State.due_free (s : State) (i : Instr) (o : EvArg) : (s.due i o).free = s.free := rfl
@[simp] theorem State.due_timers (s : State) (i : Instr) (o : EvArg) : (s.due i o).timers = s.timers := rfl
@[simp] theorem State.due_ev (s : State) (i : Instr) (o : EvArg) : (s.due i o).ev = s.ev := rfl
@[simp] theorem State.due_mem (s : State) (i : Instr) (o : EvArg) : (s.due i o).mem = s.mem := rfl
@[simp] theorem State.due_pkids (s : State) (i : Instr) (o : EvArg) : (s.due i o).pkids = s.pkids := rfl
@[simp] theorem State.due_poison (s : State) (i : Instr) (o : EvArg) : (s.due i o).poison = s.poison := rfl
@[simp] theorem State.due_loc (s : State) (i : Instr) (o : EvArg) : (s.due i o).loc = s.loc := rfl
@[simp] theorem State.due_rgs (s : State) (i : Instr) (o : EvArg) : (s.due i o).rgs = s.rgs := rfl
@[simp] theorem State.due_ctxs (s : State) (i : Instr) (o : EvArg) : (s.due i o).ctxs = s.ctxs := rfl
@[simp] theorem State.due_cores (s : State) (i : Instr) (o : EvArg) : (s.due i o).cores = s.cores := rfl
@[simp] theorem State.due_dies (s : State) (i : Instr) (o : EvArg) : (s.due i o).dies = s.dies := rfl
@[simp] theorem State.due_mctl (s : State) (i : Instr) (o : EvArg) : (s.due i o).mctl = s.mctl := rfl
@[simp] theorem State.due_trained (s : State) (i : Instr) (o : EvArg) : (s.due i o).trained = s.trained := rfl
@[simp] theorem State.due_parts (s : State) (i : Instr) (o : EvArg) : (s.due i o).parts = s.parts := rfl
@[simp] theorem State.due_assigns (s : State) (i : Instr) (o : EvArg) : (s.due i o).assigns = s.assigns := rfl
@[simp] theorem State.due_vfs (s : State) (i : Instr) (o : EvArg) : (s.due i o).vfs = s.vfs := rfl
@[simp] theorem State.due_hostMem (s : State) (i : Instr) (o : EvArg) : (s.due i o).hostMem = s.hostMem := rfl
@[simp] theorem State.due_pod (s : State) (i : Instr) (o : EvArg) : (s.due i o).pod = s.pod := rfl
@[simp] theorem State.due_early (s : State) (i : Instr) (o : EvArg) : (s.due i o).early = s.early := rfl
@[simp] theorem State.due_hostHeld (s : State) (i : Instr) (o : EvArg) : (s.due i o).hostHeld = s.hostHeld := rfl
@[simp] theorem State.due_barriers (s : State) (i : Instr) (o : EvArg) : (s.due i o).barriers = s.barriers := rfl
@[simp] theorem State.due_features (s : State) (i : Instr) (o : EvArg) : (s.due i o).features = s.features := rfl
@[simp] theorem State.due_requests (s : State) (i : Instr) (o : EvArg) : (s.due i o).requests = s.requests := rfl
@[simp] theorem State.due_lateOps (s : State) (i : Instr) (o : EvArg) : (s.due i o).lateOps = s.lateOps := rfl
@[simp] theorem State.due_reports (s : State) (i : Instr) (o : EvArg) : (s.due i o).reports = s.reports := rfl
@[simp] theorem State.due_trace (s : State) (i : Instr) (o : EvArg) : (s.due i o).trace = s.trace := rfl
@[simp] theorem State.due_iss (s : State) (i : Instr) (o : EvArg) : (s.due i o).iss = s.iss := rfl

/-! Where an event of one unit becomes due (`State.dueN`). -/

@[simp] theorem State.dueN_now (s : State) (i : Instr) (a : Nat) : (s.dueN i a).now = s.now := rfl
@[simp] theorem State.dueN_seq (s : State) (i : Instr) (a : Nat) : (s.dueN i a).seq = s.seq := rfl
@[simp] theorem State.dueN_free (s : State) (i : Instr) (a : Nat) : (s.dueN i a).free = s.free := rfl
@[simp] theorem State.dueN_timers (s : State) (i : Instr) (a : Nat) : (s.dueN i a).timers = s.timers := rfl
@[simp] theorem State.dueN_ev (s : State) (i : Instr) (a : Nat) : (s.dueN i a).ev = s.ev := rfl
@[simp] theorem State.dueN_mem (s : State) (i : Instr) (a : Nat) : (s.dueN i a).mem = s.mem := rfl
@[simp] theorem State.dueN_pkids (s : State) (i : Instr) (a : Nat) : (s.dueN i a).pkids = s.pkids := rfl
@[simp] theorem State.dueN_poison (s : State) (i : Instr) (a : Nat) : (s.dueN i a).poison = s.poison := rfl
@[simp] theorem State.dueN_loc (s : State) (i : Instr) (a : Nat) : (s.dueN i a).loc = s.loc := rfl
@[simp] theorem State.dueN_rgs (s : State) (i : Instr) (a : Nat) : (s.dueN i a).rgs = s.rgs := rfl
@[simp] theorem State.dueN_ctxs (s : State) (i : Instr) (a : Nat) : (s.dueN i a).ctxs = s.ctxs := rfl
@[simp] theorem State.dueN_cores (s : State) (i : Instr) (a : Nat) : (s.dueN i a).cores = s.cores := rfl
@[simp] theorem State.dueN_dies (s : State) (i : Instr) (a : Nat) : (s.dueN i a).dies = s.dies := rfl
@[simp] theorem State.dueN_mctl (s : State) (i : Instr) (a : Nat) : (s.dueN i a).mctl = s.mctl := rfl
@[simp] theorem State.dueN_trained (s : State) (i : Instr) (a : Nat) : (s.dueN i a).trained = s.trained := rfl
@[simp] theorem State.dueN_parts (s : State) (i : Instr) (a : Nat) : (s.dueN i a).parts = s.parts := rfl
@[simp] theorem State.dueN_assigns (s : State) (i : Instr) (a : Nat) : (s.dueN i a).assigns = s.assigns := rfl
@[simp] theorem State.dueN_vfs (s : State) (i : Instr) (a : Nat) : (s.dueN i a).vfs = s.vfs := rfl
@[simp] theorem State.dueN_hostMem (s : State) (i : Instr) (a : Nat) : (s.dueN i a).hostMem = s.hostMem := rfl
@[simp] theorem State.dueN_pod (s : State) (i : Instr) (a : Nat) : (s.dueN i a).pod = s.pod := rfl
@[simp] theorem State.dueN_early (s : State) (i : Instr) (a : Nat) : (s.dueN i a).early = s.early := rfl
@[simp] theorem State.dueN_hostHeld (s : State) (i : Instr) (a : Nat) : (s.dueN i a).hostHeld = s.hostHeld := rfl
@[simp] theorem State.dueN_barriers (s : State) (i : Instr) (a : Nat) : (s.dueN i a).barriers = s.barriers := rfl
@[simp] theorem State.dueN_features (s : State) (i : Instr) (a : Nat) : (s.dueN i a).features = s.features := rfl
@[simp] theorem State.dueN_requests (s : State) (i : Instr) (a : Nat) : (s.dueN i a).requests = s.requests := rfl
@[simp] theorem State.dueN_lateOps (s : State) (i : Instr) (a : Nat) : (s.dueN i a).lateOps = s.lateOps := rfl
@[simp] theorem State.dueN_reports (s : State) (i : Instr) (a : Nat) : (s.dueN i a).reports = s.reports := rfl
@[simp] theorem State.dueN_trace (s : State) (i : Instr) (a : Nat) : (s.dueN i a).trace = s.trace := rfl
@[simp] theorem State.dueN_iss (s : State) (i : Instr) (a : Nat) : (s.dueN i a).iss = s.iss := rfl

/-! Where an event becomes due once (`State.dueOnce`). -/

@[simp] theorem State.dueOnce_now (s : State) (i : Instr) (o : EvArg) : (s.dueOnce i o).now = s.now := by
  unfold State.dueOnce; split <;> rfl
@[simp] theorem State.dueOnce_seq (s : State) (i : Instr) (o : EvArg) : (s.dueOnce i o).seq = s.seq := by
  unfold State.dueOnce; split <;> rfl
@[simp] theorem State.dueOnce_free (s : State) (i : Instr) (o : EvArg) : (s.dueOnce i o).free = s.free := by
  unfold State.dueOnce; split <;> rfl
@[simp] theorem State.dueOnce_timers (s : State) (i : Instr) (o : EvArg) : (s.dueOnce i o).timers = s.timers := by
  unfold State.dueOnce; split <;> rfl
@[simp] theorem State.dueOnce_ev (s : State) (i : Instr) (o : EvArg) : (s.dueOnce i o).ev = s.ev := by
  unfold State.dueOnce; split <;> rfl
@[simp] theorem State.dueOnce_mem (s : State) (i : Instr) (o : EvArg) : (s.dueOnce i o).mem = s.mem := by
  unfold State.dueOnce; split <;> rfl
@[simp] theorem State.dueOnce_pkids (s : State) (i : Instr) (o : EvArg) : (s.dueOnce i o).pkids = s.pkids := by
  unfold State.dueOnce; split <;> rfl
@[simp] theorem State.dueOnce_poison (s : State) (i : Instr) (o : EvArg) : (s.dueOnce i o).poison = s.poison := by
  unfold State.dueOnce; split <;> rfl
@[simp] theorem State.dueOnce_loc (s : State) (i : Instr) (o : EvArg) : (s.dueOnce i o).loc = s.loc := by
  unfold State.dueOnce; split <;> rfl
@[simp] theorem State.dueOnce_rgs (s : State) (i : Instr) (o : EvArg) : (s.dueOnce i o).rgs = s.rgs := by
  unfold State.dueOnce; split <;> rfl
@[simp] theorem State.dueOnce_ctxs (s : State) (i : Instr) (o : EvArg) : (s.dueOnce i o).ctxs = s.ctxs := by
  unfold State.dueOnce; split <;> rfl
@[simp] theorem State.dueOnce_cores (s : State) (i : Instr) (o : EvArg) : (s.dueOnce i o).cores = s.cores := by
  unfold State.dueOnce; split <;> rfl
@[simp] theorem State.dueOnce_dies (s : State) (i : Instr) (o : EvArg) : (s.dueOnce i o).dies = s.dies := by
  unfold State.dueOnce; split <;> rfl
@[simp] theorem State.dueOnce_mctl (s : State) (i : Instr) (o : EvArg) : (s.dueOnce i o).mctl = s.mctl := by
  unfold State.dueOnce; split <;> rfl
@[simp] theorem State.dueOnce_trained (s : State) (i : Instr) (o : EvArg) : (s.dueOnce i o).trained = s.trained := by
  unfold State.dueOnce; split <;> rfl
@[simp] theorem State.dueOnce_parts (s : State) (i : Instr) (o : EvArg) : (s.dueOnce i o).parts = s.parts := by
  unfold State.dueOnce; split <;> rfl
@[simp] theorem State.dueOnce_assigns (s : State) (i : Instr) (o : EvArg) : (s.dueOnce i o).assigns = s.assigns := by
  unfold State.dueOnce; split <;> rfl
@[simp] theorem State.dueOnce_vfs (s : State) (i : Instr) (o : EvArg) : (s.dueOnce i o).vfs = s.vfs := by
  unfold State.dueOnce; split <;> rfl
@[simp] theorem State.dueOnce_hostMem (s : State) (i : Instr) (o : EvArg) : (s.dueOnce i o).hostMem = s.hostMem := by
  unfold State.dueOnce; split <;> rfl
@[simp] theorem State.dueOnce_pod (s : State) (i : Instr) (o : EvArg) : (s.dueOnce i o).pod = s.pod := by
  unfold State.dueOnce; split <;> rfl
@[simp] theorem State.dueOnce_early (s : State) (i : Instr) (o : EvArg) : (s.dueOnce i o).early = s.early := by
  unfold State.dueOnce; split <;> rfl
@[simp] theorem State.dueOnce_hostHeld (s : State) (i : Instr) (o : EvArg) : (s.dueOnce i o).hostHeld = s.hostHeld := by
  unfold State.dueOnce; split <;> rfl
@[simp] theorem State.dueOnce_barriers (s : State) (i : Instr) (o : EvArg) : (s.dueOnce i o).barriers = s.barriers := by
  unfold State.dueOnce; split <;> rfl
@[simp] theorem State.dueOnce_features (s : State) (i : Instr) (o : EvArg) : (s.dueOnce i o).features = s.features := by
  unfold State.dueOnce; split <;> rfl
@[simp] theorem State.dueOnce_requests (s : State) (i : Instr) (o : EvArg) : (s.dueOnce i o).requests = s.requests := by
  unfold State.dueOnce; split <;> rfl
@[simp] theorem State.dueOnce_lateOps (s : State) (i : Instr) (o : EvArg) : (s.dueOnce i o).lateOps = s.lateOps := by
  unfold State.dueOnce; split <;> rfl
@[simp] theorem State.dueOnce_reports (s : State) (i : Instr) (o : EvArg) : (s.dueOnce i o).reports = s.reports := by
  unfold State.dueOnce; split <;> rfl
@[simp] theorem State.dueOnce_trace (s : State) (i : Instr) (o : EvArg) : (s.dueOnce i o).trace = s.trace := by
  unfold State.dueOnce; split <;> rfl
@[simp] theorem State.dueOnce_iss (s : State) (i : Instr) (o : EvArg) : (s.dueOnce i o).iss = s.iss := by
  unfold State.dueOnce; split <;> rfl

/-! Where an event is set for a time (`State.at_`). -/

@[simp] theorem State.at__now (s : State) (t : Nat) (i : Instr) (o : EvArg) : (s.at_ t i o).now = s.now := rfl
@[simp] theorem State.at__seq (s : State) (t : Nat) (i : Instr) (o : EvArg) : (s.at_ t i o).seq = s.seq := rfl
@[simp] theorem State.at__free (s : State) (t : Nat) (i : Instr) (o : EvArg) : (s.at_ t i o).free = s.free := rfl
@[simp] theorem State.at__agenda (s : State) (t : Nat) (i : Instr) (o : EvArg) : (s.at_ t i o).agenda = s.agenda := rfl
@[simp] theorem State.at__ev (s : State) (t : Nat) (i : Instr) (o : EvArg) : (s.at_ t i o).ev = s.ev := rfl
@[simp] theorem State.at__mem (s : State) (t : Nat) (i : Instr) (o : EvArg) : (s.at_ t i o).mem = s.mem := rfl
@[simp] theorem State.at__pkids (s : State) (t : Nat) (i : Instr) (o : EvArg) : (s.at_ t i o).pkids = s.pkids := rfl
@[simp] theorem State.at__poison (s : State) (t : Nat) (i : Instr) (o : EvArg) : (s.at_ t i o).poison = s.poison := rfl
@[simp] theorem State.at__loc (s : State) (t : Nat) (i : Instr) (o : EvArg) : (s.at_ t i o).loc = s.loc := rfl
@[simp] theorem State.at__rgs (s : State) (t : Nat) (i : Instr) (o : EvArg) : (s.at_ t i o).rgs = s.rgs := rfl
@[simp] theorem State.at__ctxs (s : State) (t : Nat) (i : Instr) (o : EvArg) : (s.at_ t i o).ctxs = s.ctxs := rfl
@[simp] theorem State.at__cores (s : State) (t : Nat) (i : Instr) (o : EvArg) : (s.at_ t i o).cores = s.cores := rfl
@[simp] theorem State.at__dies (s : State) (t : Nat) (i : Instr) (o : EvArg) : (s.at_ t i o).dies = s.dies := rfl
@[simp] theorem State.at__mctl (s : State) (t : Nat) (i : Instr) (o : EvArg) : (s.at_ t i o).mctl = s.mctl := rfl
@[simp] theorem State.at__trained (s : State) (t : Nat) (i : Instr) (o : EvArg) : (s.at_ t i o).trained = s.trained := rfl
@[simp] theorem State.at__parts (s : State) (t : Nat) (i : Instr) (o : EvArg) : (s.at_ t i o).parts = s.parts := rfl
@[simp] theorem State.at__assigns (s : State) (t : Nat) (i : Instr) (o : EvArg) : (s.at_ t i o).assigns = s.assigns := rfl
@[simp] theorem State.at__vfs (s : State) (t : Nat) (i : Instr) (o : EvArg) : (s.at_ t i o).vfs = s.vfs := rfl
@[simp] theorem State.at__hostMem (s : State) (t : Nat) (i : Instr) (o : EvArg) : (s.at_ t i o).hostMem = s.hostMem := rfl
@[simp] theorem State.at__pod (s : State) (t : Nat) (i : Instr) (o : EvArg) : (s.at_ t i o).pod = s.pod := rfl
@[simp] theorem State.at__early (s : State) (t : Nat) (i : Instr) (o : EvArg) : (s.at_ t i o).early = s.early := rfl
@[simp] theorem State.at__hostHeld (s : State) (t : Nat) (i : Instr) (o : EvArg) : (s.at_ t i o).hostHeld = s.hostHeld := rfl
@[simp] theorem State.at__barriers (s : State) (t : Nat) (i : Instr) (o : EvArg) : (s.at_ t i o).barriers = s.barriers := rfl
@[simp] theorem State.at__features (s : State) (t : Nat) (i : Instr) (o : EvArg) : (s.at_ t i o).features = s.features := rfl
@[simp] theorem State.at__requests (s : State) (t : Nat) (i : Instr) (o : EvArg) : (s.at_ t i o).requests = s.requests := rfl
@[simp] theorem State.at__lateOps (s : State) (t : Nat) (i : Instr) (o : EvArg) : (s.at_ t i o).lateOps = s.lateOps := rfl
@[simp] theorem State.at__reports (s : State) (t : Nat) (i : Instr) (o : EvArg) : (s.at_ t i o).reports = s.reports := rfl
@[simp] theorem State.at__trace (s : State) (t : Nat) (i : Instr) (o : EvArg) : (s.at_ t i o).trace = s.trace := rfl
@[simp] theorem State.at__iss (s : State) (t : Nat) (i : Instr) (o : EvArg) : (s.at_ t i o).iss = s.iss := rfl

/-! Where an event is set for later (`State.after`). -/

@[simp] theorem State.after_now (s : State) (dt : Nat) (i : Instr) (o : EvArg) : (s.after dt i o).now = s.now := rfl
@[simp] theorem State.after_seq (s : State) (dt : Nat) (i : Instr) (o : EvArg) : (s.after dt i o).seq = s.seq := rfl
@[simp] theorem State.after_free (s : State) (dt : Nat) (i : Instr) (o : EvArg) : (s.after dt i o).free = s.free := rfl
@[simp] theorem State.after_agenda (s : State) (dt : Nat) (i : Instr) (o : EvArg) : (s.after dt i o).agenda = s.agenda := rfl
@[simp] theorem State.after_ev (s : State) (dt : Nat) (i : Instr) (o : EvArg) : (s.after dt i o).ev = s.ev := rfl
@[simp] theorem State.after_mem (s : State) (dt : Nat) (i : Instr) (o : EvArg) : (s.after dt i o).mem = s.mem := rfl
@[simp] theorem State.after_pkids (s : State) (dt : Nat) (i : Instr) (o : EvArg) : (s.after dt i o).pkids = s.pkids := rfl
@[simp] theorem State.after_poison (s : State) (dt : Nat) (i : Instr) (o : EvArg) : (s.after dt i o).poison = s.poison := rfl
@[simp] theorem State.after_loc (s : State) (dt : Nat) (i : Instr) (o : EvArg) : (s.after dt i o).loc = s.loc := rfl
@[simp] theorem State.after_rgs (s : State) (dt : Nat) (i : Instr) (o : EvArg) : (s.after dt i o).rgs = s.rgs := rfl
@[simp] theorem State.after_ctxs (s : State) (dt : Nat) (i : Instr) (o : EvArg) : (s.after dt i o).ctxs = s.ctxs := rfl
@[simp] theorem State.after_cores (s : State) (dt : Nat) (i : Instr) (o : EvArg) : (s.after dt i o).cores = s.cores := rfl
@[simp] theorem State.after_dies (s : State) (dt : Nat) (i : Instr) (o : EvArg) : (s.after dt i o).dies = s.dies := rfl
@[simp] theorem State.after_mctl (s : State) (dt : Nat) (i : Instr) (o : EvArg) : (s.after dt i o).mctl = s.mctl := rfl
@[simp] theorem State.after_trained (s : State) (dt : Nat) (i : Instr) (o : EvArg) : (s.after dt i o).trained = s.trained := rfl
@[simp] theorem State.after_parts (s : State) (dt : Nat) (i : Instr) (o : EvArg) : (s.after dt i o).parts = s.parts := rfl
@[simp] theorem State.after_assigns (s : State) (dt : Nat) (i : Instr) (o : EvArg) : (s.after dt i o).assigns = s.assigns := rfl
@[simp] theorem State.after_vfs (s : State) (dt : Nat) (i : Instr) (o : EvArg) : (s.after dt i o).vfs = s.vfs := rfl
@[simp] theorem State.after_hostMem (s : State) (dt : Nat) (i : Instr) (o : EvArg) : (s.after dt i o).hostMem = s.hostMem := rfl
@[simp] theorem State.after_pod (s : State) (dt : Nat) (i : Instr) (o : EvArg) : (s.after dt i o).pod = s.pod := rfl
@[simp] theorem State.after_early (s : State) (dt : Nat) (i : Instr) (o : EvArg) : (s.after dt i o).early = s.early := rfl
@[simp] theorem State.after_hostHeld (s : State) (dt : Nat) (i : Instr) (o : EvArg) : (s.after dt i o).hostHeld = s.hostHeld := rfl
@[simp] theorem State.after_barriers (s : State) (dt : Nat) (i : Instr) (o : EvArg) : (s.after dt i o).barriers = s.barriers := rfl
@[simp] theorem State.after_features (s : State) (dt : Nat) (i : Instr) (o : EvArg) : (s.after dt i o).features = s.features := rfl
@[simp] theorem State.after_requests (s : State) (dt : Nat) (i : Instr) (o : EvArg) : (s.after dt i o).requests = s.requests := rfl
@[simp] theorem State.after_lateOps (s : State) (dt : Nat) (i : Instr) (o : EvArg) : (s.after dt i o).lateOps = s.lateOps := rfl
@[simp] theorem State.after_reports (s : State) (dt : Nat) (i : Instr) (o : EvArg) : (s.after dt i o).reports = s.reports := rfl
@[simp] theorem State.after_trace (s : State) (dt : Nat) (i : Instr) (o : EvArg) : (s.after dt i o).trace = s.trace := rfl
@[simp] theorem State.after_iss (s : State) (dt : Nat) (i : Instr) (o : EvArg) : (s.after dt i o).iss = s.iss := rfl

/-! Where an event is set for cycles later (`State.afterCycles`). -/

@[simp] theorem State.afterCycles_now (s : State) (d v n : Nat) (i : Instr) (o : EvArg) : (s.afterCycles d v n i o).now = s.now := rfl
@[simp] theorem State.afterCycles_seq (s : State) (d v n : Nat) (i : Instr) (o : EvArg) : (s.afterCycles d v n i o).seq = s.seq := rfl
@[simp] theorem State.afterCycles_free (s : State) (d v n : Nat) (i : Instr) (o : EvArg) : (s.afterCycles d v n i o).free = s.free := rfl
@[simp] theorem State.afterCycles_agenda (s : State) (d v n : Nat) (i : Instr) (o : EvArg) : (s.afterCycles d v n i o).agenda = s.agenda := rfl
@[simp] theorem State.afterCycles_ev (s : State) (d v n : Nat) (i : Instr) (o : EvArg) : (s.afterCycles d v n i o).ev = s.ev := rfl
@[simp] theorem State.afterCycles_mem (s : State) (d v n : Nat) (i : Instr) (o : EvArg) : (s.afterCycles d v n i o).mem = s.mem := rfl
@[simp] theorem State.afterCycles_pkids (s : State) (d v n : Nat) (i : Instr) (o : EvArg) : (s.afterCycles d v n i o).pkids = s.pkids := rfl
@[simp] theorem State.afterCycles_poison (s : State) (d v n : Nat) (i : Instr) (o : EvArg) : (s.afterCycles d v n i o).poison = s.poison := rfl
@[simp] theorem State.afterCycles_loc (s : State) (d v n : Nat) (i : Instr) (o : EvArg) : (s.afterCycles d v n i o).loc = s.loc := rfl
@[simp] theorem State.afterCycles_rgs (s : State) (d v n : Nat) (i : Instr) (o : EvArg) : (s.afterCycles d v n i o).rgs = s.rgs := rfl
@[simp] theorem State.afterCycles_ctxs (s : State) (d v n : Nat) (i : Instr) (o : EvArg) : (s.afterCycles d v n i o).ctxs = s.ctxs := rfl
@[simp] theorem State.afterCycles_cores (s : State) (d v n : Nat) (i : Instr) (o : EvArg) : (s.afterCycles d v n i o).cores = s.cores := rfl
@[simp] theorem State.afterCycles_dies (s : State) (d v n : Nat) (i : Instr) (o : EvArg) : (s.afterCycles d v n i o).dies = s.dies := rfl
@[simp] theorem State.afterCycles_mctl (s : State) (d v n : Nat) (i : Instr) (o : EvArg) : (s.afterCycles d v n i o).mctl = s.mctl := rfl
@[simp] theorem State.afterCycles_trained (s : State) (d v n : Nat) (i : Instr) (o : EvArg) : (s.afterCycles d v n i o).trained = s.trained := rfl
@[simp] theorem State.afterCycles_parts (s : State) (d v n : Nat) (i : Instr) (o : EvArg) : (s.afterCycles d v n i o).parts = s.parts := rfl
@[simp] theorem State.afterCycles_assigns (s : State) (d v n : Nat) (i : Instr) (o : EvArg) : (s.afterCycles d v n i o).assigns = s.assigns := rfl
@[simp] theorem State.afterCycles_vfs (s : State) (d v n : Nat) (i : Instr) (o : EvArg) : (s.afterCycles d v n i o).vfs = s.vfs := rfl
@[simp] theorem State.afterCycles_hostMem (s : State) (d v n : Nat) (i : Instr) (o : EvArg) : (s.afterCycles d v n i o).hostMem = s.hostMem := rfl
@[simp] theorem State.afterCycles_pod (s : State) (d v n : Nat) (i : Instr) (o : EvArg) : (s.afterCycles d v n i o).pod = s.pod := rfl
@[simp] theorem State.afterCycles_early (s : State) (d v n : Nat) (i : Instr) (o : EvArg) : (s.afterCycles d v n i o).early = s.early := rfl
@[simp] theorem State.afterCycles_hostHeld (s : State) (d v n : Nat) (i : Instr) (o : EvArg) : (s.afterCycles d v n i o).hostHeld = s.hostHeld := rfl
@[simp] theorem State.afterCycles_barriers (s : State) (d v n : Nat) (i : Instr) (o : EvArg) : (s.afterCycles d v n i o).barriers = s.barriers := rfl
@[simp] theorem State.afterCycles_features (s : State) (d v n : Nat) (i : Instr) (o : EvArg) : (s.afterCycles d v n i o).features = s.features := rfl
@[simp] theorem State.afterCycles_requests (s : State) (d v n : Nat) (i : Instr) (o : EvArg) : (s.afterCycles d v n i o).requests = s.requests := rfl
@[simp] theorem State.afterCycles_lateOps (s : State) (d v n : Nat) (i : Instr) (o : EvArg) : (s.afterCycles d v n i o).lateOps = s.lateOps := rfl
@[simp] theorem State.afterCycles_reports (s : State) (d v n : Nat) (i : Instr) (o : EvArg) : (s.afterCycles d v n i o).reports = s.reports := rfl
@[simp] theorem State.afterCycles_trace (s : State) (d v n : Nat) (i : Instr) (o : EvArg) : (s.afterCycles d v n i o).trace = s.trace := rfl
@[simp] theorem State.afterCycles_iss (s : State) (d v n : Nat) (i : Instr) (o : EvArg) : (s.afterCycles d v n i o).iss = s.iss := rfl

/-! Where a function's record changes (`State.modVf`). -/

@[simp] theorem State.modVf_now (s : State) (n : Nat) (f : Vf → Vf) : (s.modVf n f).now = s.now := rfl
@[simp] theorem State.modVf_seq (s : State) (n : Nat) (f : Vf → Vf) : (s.modVf n f).seq = s.seq := rfl
@[simp] theorem State.modVf_free (s : State) (n : Nat) (f : Vf → Vf) : (s.modVf n f).free = s.free := rfl
@[simp] theorem State.modVf_agenda (s : State) (n : Nat) (f : Vf → Vf) : (s.modVf n f).agenda = s.agenda := rfl
@[simp] theorem State.modVf_timers (s : State) (n : Nat) (f : Vf → Vf) : (s.modVf n f).timers = s.timers := rfl
@[simp] theorem State.modVf_ev (s : State) (n : Nat) (f : Vf → Vf) : (s.modVf n f).ev = s.ev := rfl
@[simp] theorem State.modVf_mem (s : State) (n : Nat) (f : Vf → Vf) : (s.modVf n f).mem = s.mem := rfl
@[simp] theorem State.modVf_pkids (s : State) (n : Nat) (f : Vf → Vf) : (s.modVf n f).pkids = s.pkids := rfl
@[simp] theorem State.modVf_poison (s : State) (n : Nat) (f : Vf → Vf) : (s.modVf n f).poison = s.poison := rfl
@[simp] theorem State.modVf_loc (s : State) (n : Nat) (f : Vf → Vf) : (s.modVf n f).loc = s.loc := rfl
@[simp] theorem State.modVf_rgs (s : State) (n : Nat) (f : Vf → Vf) : (s.modVf n f).rgs = s.rgs := rfl
@[simp] theorem State.modVf_ctxs (s : State) (n : Nat) (f : Vf → Vf) : (s.modVf n f).ctxs = s.ctxs := rfl
@[simp] theorem State.modVf_cores (s : State) (n : Nat) (f : Vf → Vf) : (s.modVf n f).cores = s.cores := rfl
@[simp] theorem State.modVf_dies (s : State) (n : Nat) (f : Vf → Vf) : (s.modVf n f).dies = s.dies := rfl
@[simp] theorem State.modVf_mctl (s : State) (n : Nat) (f : Vf → Vf) : (s.modVf n f).mctl = s.mctl := rfl
@[simp] theorem State.modVf_trained (s : State) (n : Nat) (f : Vf → Vf) : (s.modVf n f).trained = s.trained := rfl
@[simp] theorem State.modVf_parts (s : State) (n : Nat) (f : Vf → Vf) : (s.modVf n f).parts = s.parts := rfl
@[simp] theorem State.modVf_assigns (s : State) (n : Nat) (f : Vf → Vf) : (s.modVf n f).assigns = s.assigns := rfl
@[simp] theorem State.modVf_hostMem (s : State) (n : Nat) (f : Vf → Vf) : (s.modVf n f).hostMem = s.hostMem := rfl
@[simp] theorem State.modVf_pod (s : State) (n : Nat) (f : Vf → Vf) : (s.modVf n f).pod = s.pod := rfl
@[simp] theorem State.modVf_early (s : State) (n : Nat) (f : Vf → Vf) : (s.modVf n f).early = s.early := rfl
@[simp] theorem State.modVf_hostHeld (s : State) (n : Nat) (f : Vf → Vf) : (s.modVf n f).hostHeld = s.hostHeld := rfl
@[simp] theorem State.modVf_barriers (s : State) (n : Nat) (f : Vf → Vf) : (s.modVf n f).barriers = s.barriers := rfl
@[simp] theorem State.modVf_features (s : State) (n : Nat) (f : Vf → Vf) : (s.modVf n f).features = s.features := rfl
@[simp] theorem State.modVf_requests (s : State) (n : Nat) (f : Vf → Vf) : (s.modVf n f).requests = s.requests := rfl
@[simp] theorem State.modVf_lateOps (s : State) (n : Nat) (f : Vf → Vf) : (s.modVf n f).lateOps = s.lateOps := rfl
@[simp] theorem State.modVf_reports (s : State) (n : Nat) (f : Vf → Vf) : (s.modVf n f).reports = s.reports := rfl
@[simp] theorem State.modVf_trace (s : State) (n : Nat) (f : Vf → Vf) : (s.modVf n f).trace = s.trace := rfl
@[simp] theorem State.modVf_iss (s : State) (n : Nat) (f : Vf → Vf) : (s.modVf n f).iss = s.iss := rfl

/-! Where an issue number is used (`State.fresh`). -/

@[simp] theorem State.fresh_now (s : State) : (s.fresh).now = s.now := rfl
@[simp] theorem State.fresh_free (s : State) : (s.fresh).free = s.free := rfl
@[simp] theorem State.fresh_agenda (s : State) : (s.fresh).agenda = s.agenda := rfl
@[simp] theorem State.fresh_timers (s : State) : (s.fresh).timers = s.timers := rfl
@[simp] theorem State.fresh_ev (s : State) : (s.fresh).ev = s.ev := rfl
@[simp] theorem State.fresh_mem (s : State) : (s.fresh).mem = s.mem := rfl
@[simp] theorem State.fresh_pkids (s : State) : (s.fresh).pkids = s.pkids := rfl
@[simp] theorem State.fresh_poison (s : State) : (s.fresh).poison = s.poison := rfl
@[simp] theorem State.fresh_loc (s : State) : (s.fresh).loc = s.loc := rfl
@[simp] theorem State.fresh_rgs (s : State) : (s.fresh).rgs = s.rgs := rfl
@[simp] theorem State.fresh_ctxs (s : State) : (s.fresh).ctxs = s.ctxs := rfl
@[simp] theorem State.fresh_cores (s : State) : (s.fresh).cores = s.cores := rfl
@[simp] theorem State.fresh_dies (s : State) : (s.fresh).dies = s.dies := rfl
@[simp] theorem State.fresh_mctl (s : State) : (s.fresh).mctl = s.mctl := rfl
@[simp] theorem State.fresh_trained (s : State) : (s.fresh).trained = s.trained := rfl
@[simp] theorem State.fresh_parts (s : State) : (s.fresh).parts = s.parts := rfl
@[simp] theorem State.fresh_assigns (s : State) : (s.fresh).assigns = s.assigns := rfl
@[simp] theorem State.fresh_vfs (s : State) : (s.fresh).vfs = s.vfs := rfl
@[simp] theorem State.fresh_hostMem (s : State) : (s.fresh).hostMem = s.hostMem := rfl
@[simp] theorem State.fresh_pod (s : State) : (s.fresh).pod = s.pod := rfl
@[simp] theorem State.fresh_early (s : State) : (s.fresh).early = s.early := rfl
@[simp] theorem State.fresh_hostHeld (s : State) : (s.fresh).hostHeld = s.hostHeld := rfl
@[simp] theorem State.fresh_barriers (s : State) : (s.fresh).barriers = s.barriers := rfl
@[simp] theorem State.fresh_features (s : State) : (s.fresh).features = s.features := rfl
@[simp] theorem State.fresh_requests (s : State) : (s.fresh).requests = s.requests := rfl
@[simp] theorem State.fresh_lateOps (s : State) : (s.fresh).lateOps = s.lateOps := rfl
@[simp] theorem State.fresh_reports (s : State) : (s.fresh).reports = s.reports := rfl
@[simp] theorem State.fresh_trace (s : State) : (s.fresh).trace = s.trace := rfl
@[simp] theorem State.fresh_iss (s : State) : (s.fresh).iss = s.iss := rfl

/-! Where a free value is used (`State.spend`). -/

@[simp] theorem State.spend_now (s : State) : (s.spend).now = s.now := rfl
@[simp] theorem State.spend_seq (s : State) : (s.spend).seq = s.seq := rfl
@[simp] theorem State.spend_agenda (s : State) : (s.spend).agenda = s.agenda := rfl
@[simp] theorem State.spend_timers (s : State) : (s.spend).timers = s.timers := rfl
@[simp] theorem State.spend_ev (s : State) : (s.spend).ev = s.ev := rfl
@[simp] theorem State.spend_mem (s : State) : (s.spend).mem = s.mem := rfl
@[simp] theorem State.spend_pkids (s : State) : (s.spend).pkids = s.pkids := rfl
@[simp] theorem State.spend_poison (s : State) : (s.spend).poison = s.poison := rfl
@[simp] theorem State.spend_loc (s : State) : (s.spend).loc = s.loc := rfl
@[simp] theorem State.spend_rgs (s : State) : (s.spend).rgs = s.rgs := rfl
@[simp] theorem State.spend_ctxs (s : State) : (s.spend).ctxs = s.ctxs := rfl
@[simp] theorem State.spend_cores (s : State) : (s.spend).cores = s.cores := rfl
@[simp] theorem State.spend_dies (s : State) : (s.spend).dies = s.dies := rfl
@[simp] theorem State.spend_mctl (s : State) : (s.spend).mctl = s.mctl := rfl
@[simp] theorem State.spend_trained (s : State) : (s.spend).trained = s.trained := rfl
@[simp] theorem State.spend_parts (s : State) : (s.spend).parts = s.parts := rfl
@[simp] theorem State.spend_assigns (s : State) : (s.spend).assigns = s.assigns := rfl
@[simp] theorem State.spend_vfs (s : State) : (s.spend).vfs = s.vfs := rfl
@[simp] theorem State.spend_hostMem (s : State) : (s.spend).hostMem = s.hostMem := rfl
@[simp] theorem State.spend_pod (s : State) : (s.spend).pod = s.pod := rfl
@[simp] theorem State.spend_early (s : State) : (s.spend).early = s.early := rfl
@[simp] theorem State.spend_hostHeld (s : State) : (s.spend).hostHeld = s.hostHeld := rfl
@[simp] theorem State.spend_barriers (s : State) : (s.spend).barriers = s.barriers := rfl
@[simp] theorem State.spend_features (s : State) : (s.spend).features = s.features := rfl
@[simp] theorem State.spend_requests (s : State) : (s.spend).requests = s.requests := rfl
@[simp] theorem State.spend_lateOps (s : State) : (s.spend).lateOps = s.lateOps := rfl
@[simp] theorem State.spend_reports (s : State) : (s.spend).reports = s.reports := rfl
@[simp] theorem State.spend_trace (s : State) : (s.spend).trace = s.trace := rfl
@[simp] theorem State.spend_iss (s : State) : (s.spend).iss = s.iss := rfl

/-! Where an event is reported (`State.report`). -/

@[simp] theorem State.report_now (s : State) (kind die : Nat) (info : List Nat) : (s.report kind die info).now = s.now := rfl
@[simp] theorem State.report_seq (s : State) (kind die : Nat) (info : List Nat) : (s.report kind die info).seq = s.seq := rfl
@[simp] theorem State.report_free (s : State) (kind die : Nat) (info : List Nat) : (s.report kind die info).free = s.free := rfl
@[simp] theorem State.report_agenda (s : State) (kind die : Nat) (info : List Nat) : (s.report kind die info).agenda = s.agenda := rfl
@[simp] theorem State.report_timers (s : State) (kind die : Nat) (info : List Nat) : (s.report kind die info).timers = s.timers := rfl
@[simp] theorem State.report_ev (s : State) (kind die : Nat) (info : List Nat) : (s.report kind die info).ev = s.ev := rfl
@[simp] theorem State.report_mem (s : State) (kind die : Nat) (info : List Nat) : (s.report kind die info).mem = s.mem := rfl
@[simp] theorem State.report_pkids (s : State) (kind die : Nat) (info : List Nat) : (s.report kind die info).pkids = s.pkids := rfl
@[simp] theorem State.report_poison (s : State) (kind die : Nat) (info : List Nat) : (s.report kind die info).poison = s.poison := rfl
@[simp] theorem State.report_loc (s : State) (kind die : Nat) (info : List Nat) : (s.report kind die info).loc = s.loc := rfl
@[simp] theorem State.report_rgs (s : State) (kind die : Nat) (info : List Nat) : (s.report kind die info).rgs = s.rgs := rfl
@[simp] theorem State.report_ctxs (s : State) (kind die : Nat) (info : List Nat) : (s.report kind die info).ctxs = s.ctxs := rfl
@[simp] theorem State.report_cores (s : State) (kind die : Nat) (info : List Nat) : (s.report kind die info).cores = s.cores := rfl
@[simp] theorem State.report_dies (s : State) (kind die : Nat) (info : List Nat) : (s.report kind die info).dies = s.dies := rfl
@[simp] theorem State.report_mctl (s : State) (kind die : Nat) (info : List Nat) : (s.report kind die info).mctl = s.mctl := rfl
@[simp] theorem State.report_trained (s : State) (kind die : Nat) (info : List Nat) : (s.report kind die info).trained = s.trained := rfl
@[simp] theorem State.report_parts (s : State) (kind die : Nat) (info : List Nat) : (s.report kind die info).parts = s.parts := rfl
@[simp] theorem State.report_assigns (s : State) (kind die : Nat) (info : List Nat) : (s.report kind die info).assigns = s.assigns := rfl
@[simp] theorem State.report_vfs (s : State) (kind die : Nat) (info : List Nat) : (s.report kind die info).vfs = s.vfs := rfl
@[simp] theorem State.report_hostMem (s : State) (kind die : Nat) (info : List Nat) : (s.report kind die info).hostMem = s.hostMem := rfl
@[simp] theorem State.report_pod (s : State) (kind die : Nat) (info : List Nat) : (s.report kind die info).pod = s.pod := rfl
@[simp] theorem State.report_early (s : State) (kind die : Nat) (info : List Nat) : (s.report kind die info).early = s.early := rfl
@[simp] theorem State.report_hostHeld (s : State) (kind die : Nat) (info : List Nat) : (s.report kind die info).hostHeld = s.hostHeld := rfl
@[simp] theorem State.report_barriers (s : State) (kind die : Nat) (info : List Nat) : (s.report kind die info).barriers = s.barriers := rfl
@[simp] theorem State.report_features (s : State) (kind die : Nat) (info : List Nat) : (s.report kind die info).features = s.features := rfl
@[simp] theorem State.report_requests (s : State) (kind die : Nat) (info : List Nat) : (s.report kind die info).requests = s.requests := rfl
@[simp] theorem State.report_lateOps (s : State) (kind die : Nat) (info : List Nat) : (s.report kind die info).lateOps = s.lateOps := rfl
@[simp] theorem State.report_trace (s : State) (kind die : Nat) (info : List Nat) : (s.report kind die info).trace = s.trace := rfl
@[simp] theorem State.report_iss (s : State) (kind die : Nat) (info : List Nat) : (s.report kind die info).iss = s.iss := rfl

/-! Where a control of a die is set (`State.setDieCtl`). -/

@[simp] theorem State.setDieCtl_now (s : State) (d n : Nat) (v : W64) : (s.setDieCtl d n v).now = s.now := rfl
@[simp] theorem State.setDieCtl_seq (s : State) (d n : Nat) (v : W64) : (s.setDieCtl d n v).seq = s.seq := rfl
@[simp] theorem State.setDieCtl_free (s : State) (d n : Nat) (v : W64) : (s.setDieCtl d n v).free = s.free := rfl
@[simp] theorem State.setDieCtl_agenda (s : State) (d n : Nat) (v : W64) : (s.setDieCtl d n v).agenda = s.agenda := rfl
@[simp] theorem State.setDieCtl_timers (s : State) (d n : Nat) (v : W64) : (s.setDieCtl d n v).timers = s.timers := rfl
@[simp] theorem State.setDieCtl_ev (s : State) (d n : Nat) (v : W64) : (s.setDieCtl d n v).ev = s.ev := rfl
@[simp] theorem State.setDieCtl_mem (s : State) (d n : Nat) (v : W64) : (s.setDieCtl d n v).mem = s.mem := rfl
@[simp] theorem State.setDieCtl_pkids (s : State) (d n : Nat) (v : W64) : (s.setDieCtl d n v).pkids = s.pkids := rfl
@[simp] theorem State.setDieCtl_poison (s : State) (d n : Nat) (v : W64) : (s.setDieCtl d n v).poison = s.poison := rfl
@[simp] theorem State.setDieCtl_loc (s : State) (d n : Nat) (v : W64) : (s.setDieCtl d n v).loc = s.loc := rfl
@[simp] theorem State.setDieCtl_rgs (s : State) (d n : Nat) (v : W64) : (s.setDieCtl d n v).rgs = s.rgs := rfl
@[simp] theorem State.setDieCtl_ctxs (s : State) (d n : Nat) (v : W64) : (s.setDieCtl d n v).ctxs = s.ctxs := rfl
@[simp] theorem State.setDieCtl_cores (s : State) (d n : Nat) (v : W64) : (s.setDieCtl d n v).cores = s.cores := rfl
@[simp] theorem State.setDieCtl_mctl (s : State) (d n : Nat) (v : W64) : (s.setDieCtl d n v).mctl = s.mctl := rfl
@[simp] theorem State.setDieCtl_trained (s : State) (d n : Nat) (v : W64) : (s.setDieCtl d n v).trained = s.trained := rfl
@[simp] theorem State.setDieCtl_parts (s : State) (d n : Nat) (v : W64) : (s.setDieCtl d n v).parts = s.parts := rfl
@[simp] theorem State.setDieCtl_assigns (s : State) (d n : Nat) (v : W64) : (s.setDieCtl d n v).assigns = s.assigns := rfl
@[simp] theorem State.setDieCtl_vfs (s : State) (d n : Nat) (v : W64) : (s.setDieCtl d n v).vfs = s.vfs := rfl
@[simp] theorem State.setDieCtl_hostMem (s : State) (d n : Nat) (v : W64) : (s.setDieCtl d n v).hostMem = s.hostMem := rfl
@[simp] theorem State.setDieCtl_pod (s : State) (d n : Nat) (v : W64) : (s.setDieCtl d n v).pod = s.pod := rfl
@[simp] theorem State.setDieCtl_early (s : State) (d n : Nat) (v : W64) : (s.setDieCtl d n v).early = s.early := rfl
@[simp] theorem State.setDieCtl_hostHeld (s : State) (d n : Nat) (v : W64) : (s.setDieCtl d n v).hostHeld = s.hostHeld := rfl
@[simp] theorem State.setDieCtl_barriers (s : State) (d n : Nat) (v : W64) : (s.setDieCtl d n v).barriers = s.barriers := rfl
@[simp] theorem State.setDieCtl_features (s : State) (d n : Nat) (v : W64) : (s.setDieCtl d n v).features = s.features := rfl
@[simp] theorem State.setDieCtl_requests (s : State) (d n : Nat) (v : W64) : (s.setDieCtl d n v).requests = s.requests := rfl
@[simp] theorem State.setDieCtl_lateOps (s : State) (d n : Nat) (v : W64) : (s.setDieCtl d n v).lateOps = s.lateOps := rfl
@[simp] theorem State.setDieCtl_reports (s : State) (d n : Nat) (v : W64) : (s.setDieCtl d n v).reports = s.reports := rfl
@[simp] theorem State.setDieCtl_trace (s : State) (d n : Nat) (v : W64) : (s.setDieCtl d n v).trace = s.trace := rfl
@[simp] theorem State.setDieCtl_iss (s : State) (d n : Nat) (v : W64) : (s.setDieCtl d n v).iss = s.iss := rfl

/-! Where a control of a core is set (`State.setCoreCtl`). -/

@[simp] theorem State.setCoreCtl_now (s : State) (k n : Nat) (v : W64) : (s.setCoreCtl k n v).now = s.now := rfl
@[simp] theorem State.setCoreCtl_seq (s : State) (k n : Nat) (v : W64) : (s.setCoreCtl k n v).seq = s.seq := rfl
@[simp] theorem State.setCoreCtl_free (s : State) (k n : Nat) (v : W64) : (s.setCoreCtl k n v).free = s.free := rfl
@[simp] theorem State.setCoreCtl_agenda (s : State) (k n : Nat) (v : W64) : (s.setCoreCtl k n v).agenda = s.agenda := rfl
@[simp] theorem State.setCoreCtl_timers (s : State) (k n : Nat) (v : W64) : (s.setCoreCtl k n v).timers = s.timers := rfl
@[simp] theorem State.setCoreCtl_ev (s : State) (k n : Nat) (v : W64) : (s.setCoreCtl k n v).ev = s.ev := rfl
@[simp] theorem State.setCoreCtl_mem (s : State) (k n : Nat) (v : W64) : (s.setCoreCtl k n v).mem = s.mem := rfl
@[simp] theorem State.setCoreCtl_pkids (s : State) (k n : Nat) (v : W64) : (s.setCoreCtl k n v).pkids = s.pkids := rfl
@[simp] theorem State.setCoreCtl_poison (s : State) (k n : Nat) (v : W64) : (s.setCoreCtl k n v).poison = s.poison := rfl
@[simp] theorem State.setCoreCtl_loc (s : State) (k n : Nat) (v : W64) : (s.setCoreCtl k n v).loc = s.loc := rfl
@[simp] theorem State.setCoreCtl_rgs (s : State) (k n : Nat) (v : W64) : (s.setCoreCtl k n v).rgs = s.rgs := rfl
@[simp] theorem State.setCoreCtl_ctxs (s : State) (k n : Nat) (v : W64) : (s.setCoreCtl k n v).ctxs = s.ctxs := rfl
@[simp] theorem State.setCoreCtl_dies (s : State) (k n : Nat) (v : W64) : (s.setCoreCtl k n v).dies = s.dies := rfl
@[simp] theorem State.setCoreCtl_mctl (s : State) (k n : Nat) (v : W64) : (s.setCoreCtl k n v).mctl = s.mctl := rfl
@[simp] theorem State.setCoreCtl_trained (s : State) (k n : Nat) (v : W64) : (s.setCoreCtl k n v).trained = s.trained := rfl
@[simp] theorem State.setCoreCtl_parts (s : State) (k n : Nat) (v : W64) : (s.setCoreCtl k n v).parts = s.parts := rfl
@[simp] theorem State.setCoreCtl_assigns (s : State) (k n : Nat) (v : W64) : (s.setCoreCtl k n v).assigns = s.assigns := rfl
@[simp] theorem State.setCoreCtl_vfs (s : State) (k n : Nat) (v : W64) : (s.setCoreCtl k n v).vfs = s.vfs := rfl
@[simp] theorem State.setCoreCtl_hostMem (s : State) (k n : Nat) (v : W64) : (s.setCoreCtl k n v).hostMem = s.hostMem := rfl
@[simp] theorem State.setCoreCtl_pod (s : State) (k n : Nat) (v : W64) : (s.setCoreCtl k n v).pod = s.pod := rfl
@[simp] theorem State.setCoreCtl_early (s : State) (k n : Nat) (v : W64) : (s.setCoreCtl k n v).early = s.early := rfl
@[simp] theorem State.setCoreCtl_hostHeld (s : State) (k n : Nat) (v : W64) : (s.setCoreCtl k n v).hostHeld = s.hostHeld := rfl
@[simp] theorem State.setCoreCtl_barriers (s : State) (k n : Nat) (v : W64) : (s.setCoreCtl k n v).barriers = s.barriers := rfl
@[simp] theorem State.setCoreCtl_features (s : State) (k n : Nat) (v : W64) : (s.setCoreCtl k n v).features = s.features := rfl
@[simp] theorem State.setCoreCtl_requests (s : State) (k n : Nat) (v : W64) : (s.setCoreCtl k n v).requests = s.requests := rfl
@[simp] theorem State.setCoreCtl_lateOps (s : State) (k n : Nat) (v : W64) : (s.setCoreCtl k n v).lateOps = s.lateOps := rfl
@[simp] theorem State.setCoreCtl_reports (s : State) (k n : Nat) (v : W64) : (s.setCoreCtl k n v).reports = s.reports := rfl
@[simp] theorem State.setCoreCtl_trace (s : State) (k n : Nat) (v : W64) : (s.setCoreCtl k n v).trace = s.trace := rfl
@[simp] theorem State.setCoreCtl_iss (s : State) (k n : Nat) (v : W64) : (s.setCoreCtl k n v).iss = s.iss := rfl

/-! Where a control of a context is set (`State.setCtxCtl`). -/

@[simp] theorem State.setCtxCtl_now (s : State) (c n : Nat) (v : W64) : (s.setCtxCtl c n v).now = s.now := rfl
@[simp] theorem State.setCtxCtl_seq (s : State) (c n : Nat) (v : W64) : (s.setCtxCtl c n v).seq = s.seq := rfl
@[simp] theorem State.setCtxCtl_free (s : State) (c n : Nat) (v : W64) : (s.setCtxCtl c n v).free = s.free := rfl
@[simp] theorem State.setCtxCtl_agenda (s : State) (c n : Nat) (v : W64) : (s.setCtxCtl c n v).agenda = s.agenda := rfl
@[simp] theorem State.setCtxCtl_timers (s : State) (c n : Nat) (v : W64) : (s.setCtxCtl c n v).timers = s.timers := rfl
@[simp] theorem State.setCtxCtl_ev (s : State) (c n : Nat) (v : W64) : (s.setCtxCtl c n v).ev = s.ev := rfl
@[simp] theorem State.setCtxCtl_mem (s : State) (c n : Nat) (v : W64) : (s.setCtxCtl c n v).mem = s.mem := rfl
@[simp] theorem State.setCtxCtl_pkids (s : State) (c n : Nat) (v : W64) : (s.setCtxCtl c n v).pkids = s.pkids := rfl
@[simp] theorem State.setCtxCtl_poison (s : State) (c n : Nat) (v : W64) : (s.setCtxCtl c n v).poison = s.poison := rfl
@[simp] theorem State.setCtxCtl_loc (s : State) (c n : Nat) (v : W64) : (s.setCtxCtl c n v).loc = s.loc := rfl
@[simp] theorem State.setCtxCtl_rgs (s : State) (c n : Nat) (v : W64) : (s.setCtxCtl c n v).rgs = s.rgs := rfl
@[simp] theorem State.setCtxCtl_cores (s : State) (c n : Nat) (v : W64) : (s.setCtxCtl c n v).cores = s.cores := rfl
@[simp] theorem State.setCtxCtl_dies (s : State) (c n : Nat) (v : W64) : (s.setCtxCtl c n v).dies = s.dies := rfl
@[simp] theorem State.setCtxCtl_mctl (s : State) (c n : Nat) (v : W64) : (s.setCtxCtl c n v).mctl = s.mctl := rfl
@[simp] theorem State.setCtxCtl_trained (s : State) (c n : Nat) (v : W64) : (s.setCtxCtl c n v).trained = s.trained := rfl
@[simp] theorem State.setCtxCtl_parts (s : State) (c n : Nat) (v : W64) : (s.setCtxCtl c n v).parts = s.parts := rfl
@[simp] theorem State.setCtxCtl_assigns (s : State) (c n : Nat) (v : W64) : (s.setCtxCtl c n v).assigns = s.assigns := rfl
@[simp] theorem State.setCtxCtl_vfs (s : State) (c n : Nat) (v : W64) : (s.setCtxCtl c n v).vfs = s.vfs := rfl
@[simp] theorem State.setCtxCtl_hostMem (s : State) (c n : Nat) (v : W64) : (s.setCtxCtl c n v).hostMem = s.hostMem := rfl
@[simp] theorem State.setCtxCtl_pod (s : State) (c n : Nat) (v : W64) : (s.setCtxCtl c n v).pod = s.pod := rfl
@[simp] theorem State.setCtxCtl_early (s : State) (c n : Nat) (v : W64) : (s.setCtxCtl c n v).early = s.early := rfl
@[simp] theorem State.setCtxCtl_hostHeld (s : State) (c n : Nat) (v : W64) : (s.setCtxCtl c n v).hostHeld = s.hostHeld := rfl
@[simp] theorem State.setCtxCtl_barriers (s : State) (c n : Nat) (v : W64) : (s.setCtxCtl c n v).barriers = s.barriers := rfl
@[simp] theorem State.setCtxCtl_features (s : State) (c n : Nat) (v : W64) : (s.setCtxCtl c n v).features = s.features := rfl
@[simp] theorem State.setCtxCtl_requests (s : State) (c n : Nat) (v : W64) : (s.setCtxCtl c n v).requests = s.requests := rfl
@[simp] theorem State.setCtxCtl_lateOps (s : State) (c n : Nat) (v : W64) : (s.setCtxCtl c n v).lateOps = s.lateOps := rfl
@[simp] theorem State.setCtxCtl_reports (s : State) (c n : Nat) (v : W64) : (s.setCtxCtl c n v).reports = s.reports := rfl
@[simp] theorem State.setCtxCtl_trace (s : State) (c n : Nat) (v : W64) : (s.setCtxCtl c n v).trace = s.trace := rfl
@[simp] theorem State.setCtxCtl_iss (s : State) (c n : Nat) (v : W64) : (s.setCtxCtl c n v).iss = s.iss := rfl

/-! Where a control of the module is set (`State.setModCtl`). -/

@[simp] theorem State.setModCtl_now (s : State) (n : Nat) (v : W64) : (s.setModCtl n v).now = s.now := rfl
@[simp] theorem State.setModCtl_seq (s : State) (n : Nat) (v : W64) : (s.setModCtl n v).seq = s.seq := rfl
@[simp] theorem State.setModCtl_free (s : State) (n : Nat) (v : W64) : (s.setModCtl n v).free = s.free := rfl
@[simp] theorem State.setModCtl_agenda (s : State) (n : Nat) (v : W64) : (s.setModCtl n v).agenda = s.agenda := rfl
@[simp] theorem State.setModCtl_timers (s : State) (n : Nat) (v : W64) : (s.setModCtl n v).timers = s.timers := rfl
@[simp] theorem State.setModCtl_ev (s : State) (n : Nat) (v : W64) : (s.setModCtl n v).ev = s.ev := rfl
@[simp] theorem State.setModCtl_mem (s : State) (n : Nat) (v : W64) : (s.setModCtl n v).mem = s.mem := rfl
@[simp] theorem State.setModCtl_pkids (s : State) (n : Nat) (v : W64) : (s.setModCtl n v).pkids = s.pkids := rfl
@[simp] theorem State.setModCtl_poison (s : State) (n : Nat) (v : W64) : (s.setModCtl n v).poison = s.poison := rfl
@[simp] theorem State.setModCtl_loc (s : State) (n : Nat) (v : W64) : (s.setModCtl n v).loc = s.loc := rfl
@[simp] theorem State.setModCtl_rgs (s : State) (n : Nat) (v : W64) : (s.setModCtl n v).rgs = s.rgs := rfl
@[simp] theorem State.setModCtl_ctxs (s : State) (n : Nat) (v : W64) : (s.setModCtl n v).ctxs = s.ctxs := rfl
@[simp] theorem State.setModCtl_cores (s : State) (n : Nat) (v : W64) : (s.setModCtl n v).cores = s.cores := rfl
@[simp] theorem State.setModCtl_dies (s : State) (n : Nat) (v : W64) : (s.setModCtl n v).dies = s.dies := rfl
@[simp] theorem State.setModCtl_trained (s : State) (n : Nat) (v : W64) : (s.setModCtl n v).trained = s.trained := rfl
@[simp] theorem State.setModCtl_parts (s : State) (n : Nat) (v : W64) : (s.setModCtl n v).parts = s.parts := rfl
@[simp] theorem State.setModCtl_assigns (s : State) (n : Nat) (v : W64) : (s.setModCtl n v).assigns = s.assigns := rfl
@[simp] theorem State.setModCtl_vfs (s : State) (n : Nat) (v : W64) : (s.setModCtl n v).vfs = s.vfs := rfl
@[simp] theorem State.setModCtl_hostMem (s : State) (n : Nat) (v : W64) : (s.setModCtl n v).hostMem = s.hostMem := rfl
@[simp] theorem State.setModCtl_pod (s : State) (n : Nat) (v : W64) : (s.setModCtl n v).pod = s.pod := rfl
@[simp] theorem State.setModCtl_early (s : State) (n : Nat) (v : W64) : (s.setModCtl n v).early = s.early := rfl
@[simp] theorem State.setModCtl_hostHeld (s : State) (n : Nat) (v : W64) : (s.setModCtl n v).hostHeld = s.hostHeld := rfl
@[simp] theorem State.setModCtl_barriers (s : State) (n : Nat) (v : W64) : (s.setModCtl n v).barriers = s.barriers := rfl
@[simp] theorem State.setModCtl_features (s : State) (n : Nat) (v : W64) : (s.setModCtl n v).features = s.features := rfl
@[simp] theorem State.setModCtl_requests (s : State) (n : Nat) (v : W64) : (s.setModCtl n v).requests = s.requests := rfl
@[simp] theorem State.setModCtl_lateOps (s : State) (n : Nat) (v : W64) : (s.setModCtl n v).lateOps = s.lateOps := rfl
@[simp] theorem State.setModCtl_reports (s : State) (n : Nat) (v : W64) : (s.setModCtl n v).reports = s.reports := rfl
@[simp] theorem State.setModCtl_trace (s : State) (n : Nat) (v : W64) : (s.setModCtl n v).trace = s.trace := rfl
@[simp] theorem State.setModCtl_iss (s : State) (n : Nat) (v : W64) : (s.setModCtl n v).iss = s.iss := rfl

/-! Where a control of a partition is set (`State.setPartCtl`). -/

@[simp] theorem State.setPartCtl_now (s : State) (p n : Nat) (v : W64) : (s.setPartCtl p n v).now = s.now := rfl
@[simp] theorem State.setPartCtl_seq (s : State) (p n : Nat) (v : W64) : (s.setPartCtl p n v).seq = s.seq := rfl
@[simp] theorem State.setPartCtl_free (s : State) (p n : Nat) (v : W64) : (s.setPartCtl p n v).free = s.free := rfl
@[simp] theorem State.setPartCtl_agenda (s : State) (p n : Nat) (v : W64) : (s.setPartCtl p n v).agenda = s.agenda := rfl
@[simp] theorem State.setPartCtl_timers (s : State) (p n : Nat) (v : W64) : (s.setPartCtl p n v).timers = s.timers := rfl
@[simp] theorem State.setPartCtl_ev (s : State) (p n : Nat) (v : W64) : (s.setPartCtl p n v).ev = s.ev := rfl
@[simp] theorem State.setPartCtl_mem (s : State) (p n : Nat) (v : W64) : (s.setPartCtl p n v).mem = s.mem := rfl
@[simp] theorem State.setPartCtl_pkids (s : State) (p n : Nat) (v : W64) : (s.setPartCtl p n v).pkids = s.pkids := rfl
@[simp] theorem State.setPartCtl_poison (s : State) (p n : Nat) (v : W64) : (s.setPartCtl p n v).poison = s.poison := rfl
@[simp] theorem State.setPartCtl_loc (s : State) (p n : Nat) (v : W64) : (s.setPartCtl p n v).loc = s.loc := rfl
@[simp] theorem State.setPartCtl_rgs (s : State) (p n : Nat) (v : W64) : (s.setPartCtl p n v).rgs = s.rgs := rfl
@[simp] theorem State.setPartCtl_ctxs (s : State) (p n : Nat) (v : W64) : (s.setPartCtl p n v).ctxs = s.ctxs := rfl
@[simp] theorem State.setPartCtl_cores (s : State) (p n : Nat) (v : W64) : (s.setPartCtl p n v).cores = s.cores := rfl
@[simp] theorem State.setPartCtl_dies (s : State) (p n : Nat) (v : W64) : (s.setPartCtl p n v).dies = s.dies := rfl
@[simp] theorem State.setPartCtl_mctl (s : State) (p n : Nat) (v : W64) : (s.setPartCtl p n v).mctl = s.mctl := rfl
@[simp] theorem State.setPartCtl_trained (s : State) (p n : Nat) (v : W64) : (s.setPartCtl p n v).trained = s.trained := rfl
@[simp] theorem State.setPartCtl_assigns (s : State) (p n : Nat) (v : W64) : (s.setPartCtl p n v).assigns = s.assigns := rfl
@[simp] theorem State.setPartCtl_vfs (s : State) (p n : Nat) (v : W64) : (s.setPartCtl p n v).vfs = s.vfs := rfl
@[simp] theorem State.setPartCtl_hostMem (s : State) (p n : Nat) (v : W64) : (s.setPartCtl p n v).hostMem = s.hostMem := rfl
@[simp] theorem State.setPartCtl_pod (s : State) (p n : Nat) (v : W64) : (s.setPartCtl p n v).pod = s.pod := rfl
@[simp] theorem State.setPartCtl_early (s : State) (p n : Nat) (v : W64) : (s.setPartCtl p n v).early = s.early := rfl
@[simp] theorem State.setPartCtl_hostHeld (s : State) (p n : Nat) (v : W64) : (s.setPartCtl p n v).hostHeld = s.hostHeld := rfl
@[simp] theorem State.setPartCtl_barriers (s : State) (p n : Nat) (v : W64) : (s.setPartCtl p n v).barriers = s.barriers := rfl
@[simp] theorem State.setPartCtl_features (s : State) (p n : Nat) (v : W64) : (s.setPartCtl p n v).features = s.features := rfl
@[simp] theorem State.setPartCtl_requests (s : State) (p n : Nat) (v : W64) : (s.setPartCtl p n v).requests = s.requests := rfl
@[simp] theorem State.setPartCtl_lateOps (s : State) (p n : Nat) (v : W64) : (s.setPartCtl p n v).lateOps = s.lateOps := rfl
@[simp] theorem State.setPartCtl_reports (s : State) (p n : Nat) (v : W64) : (s.setPartCtl p n v).reports = s.reports := rfl
@[simp] theorem State.setPartCtl_trace (s : State) (p n : Nat) (v : W64) : (s.setPartCtl p n v).trace = s.trace := rfl
@[simp] theorem State.setPartCtl_iss (s : State) (p n : Nat) (v : W64) : (s.setPartCtl p n v).iss = s.iss := rfl

/-! Where CTXSTAT bits are set (`State.setStat`). -/

@[simp] theorem State.setStat_now (s : State) (c m : Nat) : (s.setStat c m).now = s.now := by
  unfold State.setStat; split <;> rfl
@[simp] theorem State.setStat_seq (s : State) (c m : Nat) : (s.setStat c m).seq = s.seq := by
  unfold State.setStat; split <;> rfl
@[simp] theorem State.setStat_free (s : State) (c m : Nat) : (s.setStat c m).free = s.free := by
  unfold State.setStat; split <;> rfl
@[simp] theorem State.setStat_agenda (s : State) (c m : Nat) : (s.setStat c m).agenda = s.agenda := by
  unfold State.setStat; split <;> rfl
@[simp] theorem State.setStat_timers (s : State) (c m : Nat) : (s.setStat c m).timers = s.timers := by
  unfold State.setStat; split <;> rfl
@[simp] theorem State.setStat_ev (s : State) (c m : Nat) : (s.setStat c m).ev = s.ev := by
  unfold State.setStat; split <;> rfl
@[simp] theorem State.setStat_mem (s : State) (c m : Nat) : (s.setStat c m).mem = s.mem := by
  unfold State.setStat; split <;> rfl
@[simp] theorem State.setStat_pkids (s : State) (c m : Nat) : (s.setStat c m).pkids = s.pkids := by
  unfold State.setStat; split <;> rfl
@[simp] theorem State.setStat_poison (s : State) (c m : Nat) : (s.setStat c m).poison = s.poison := by
  unfold State.setStat; split <;> rfl
@[simp] theorem State.setStat_loc (s : State) (c m : Nat) : (s.setStat c m).loc = s.loc := by
  unfold State.setStat; split <;> rfl
@[simp] theorem State.setStat_rgs (s : State) (c m : Nat) : (s.setStat c m).rgs = s.rgs := by
  unfold State.setStat; split <;> rfl
@[simp] theorem State.setStat_cores (s : State) (c m : Nat) : (s.setStat c m).cores = s.cores := by
  unfold State.setStat; split <;> rfl
@[simp] theorem State.setStat_dies (s : State) (c m : Nat) : (s.setStat c m).dies = s.dies := by
  unfold State.setStat; split <;> rfl
@[simp] theorem State.setStat_mctl (s : State) (c m : Nat) : (s.setStat c m).mctl = s.mctl := by
  unfold State.setStat; split <;> rfl
@[simp] theorem State.setStat_trained (s : State) (c m : Nat) : (s.setStat c m).trained = s.trained := by
  unfold State.setStat; split <;> rfl
@[simp] theorem State.setStat_parts (s : State) (c m : Nat) : (s.setStat c m).parts = s.parts := by
  unfold State.setStat; split <;> rfl
@[simp] theorem State.setStat_assigns (s : State) (c m : Nat) : (s.setStat c m).assigns = s.assigns := by
  unfold State.setStat; split <;> rfl
@[simp] theorem State.setStat_vfs (s : State) (c m : Nat) : (s.setStat c m).vfs = s.vfs := by
  unfold State.setStat; split <;> rfl
@[simp] theorem State.setStat_hostMem (s : State) (c m : Nat) : (s.setStat c m).hostMem = s.hostMem := by
  unfold State.setStat; split <;> rfl
@[simp] theorem State.setStat_pod (s : State) (c m : Nat) : (s.setStat c m).pod = s.pod := by
  unfold State.setStat; split <;> rfl
@[simp] theorem State.setStat_early (s : State) (c m : Nat) : (s.setStat c m).early = s.early := by
  unfold State.setStat; split <;> rfl
@[simp] theorem State.setStat_hostHeld (s : State) (c m : Nat) : (s.setStat c m).hostHeld = s.hostHeld := by
  unfold State.setStat; split <;> rfl
@[simp] theorem State.setStat_barriers (s : State) (c m : Nat) : (s.setStat c m).barriers = s.barriers := by
  unfold State.setStat; split <;> rfl
@[simp] theorem State.setStat_features (s : State) (c m : Nat) : (s.setStat c m).features = s.features := by
  unfold State.setStat; split <;> rfl
@[simp] theorem State.setStat_requests (s : State) (c m : Nat) : (s.setStat c m).requests = s.requests := by
  unfold State.setStat; split <;> rfl
@[simp] theorem State.setStat_lateOps (s : State) (c m : Nat) : (s.setStat c m).lateOps = s.lateOps := by
  unfold State.setStat; split <;> rfl
@[simp] theorem State.setStat_reports (s : State) (c m : Nat) : (s.setStat c m).reports = s.reports := by
  unfold State.setStat; split <;> rfl
@[simp] theorem State.setStat_trace (s : State) (c m : Nat) : (s.setStat c m).trace = s.trace := by
  unfold State.setStat; split <;> rfl
@[simp] theorem State.setStat_iss (s : State) (c m : Nat) : (s.setStat c m).iss = s.iss := by
  unfold State.setStat; split <;> rfl

/-! Where a byte of local memory is written (`State.setLb`). -/

@[simp] theorem State.setLb_now (s : State) (d a : Nat) (b : Byte) : (s.setLb d a b).now = s.now := rfl
@[simp] theorem State.setLb_seq (s : State) (d a : Nat) (b : Byte) : (s.setLb d a b).seq = s.seq := rfl
@[simp] theorem State.setLb_free (s : State) (d a : Nat) (b : Byte) : (s.setLb d a b).free = s.free := rfl
@[simp] theorem State.setLb_agenda (s : State) (d a : Nat) (b : Byte) : (s.setLb d a b).agenda = s.agenda := rfl
@[simp] theorem State.setLb_timers (s : State) (d a : Nat) (b : Byte) : (s.setLb d a b).timers = s.timers := rfl
@[simp] theorem State.setLb_ev (s : State) (d a : Nat) (b : Byte) : (s.setLb d a b).ev = s.ev := rfl
@[simp] theorem State.setLb_mem (s : State) (d a : Nat) (b : Byte) : (s.setLb d a b).mem = s.mem := rfl
@[simp] theorem State.setLb_pkids (s : State) (d a : Nat) (b : Byte) : (s.setLb d a b).pkids = s.pkids := rfl
@[simp] theorem State.setLb_poison (s : State) (d a : Nat) (b : Byte) : (s.setLb d a b).poison = s.poison := rfl
@[simp] theorem State.setLb_rgs (s : State) (d a : Nat) (b : Byte) : (s.setLb d a b).rgs = s.rgs := rfl
@[simp] theorem State.setLb_ctxs (s : State) (d a : Nat) (b : Byte) : (s.setLb d a b).ctxs = s.ctxs := rfl
@[simp] theorem State.setLb_cores (s : State) (d a : Nat) (b : Byte) : (s.setLb d a b).cores = s.cores := rfl
@[simp] theorem State.setLb_dies (s : State) (d a : Nat) (b : Byte) : (s.setLb d a b).dies = s.dies := rfl
@[simp] theorem State.setLb_mctl (s : State) (d a : Nat) (b : Byte) : (s.setLb d a b).mctl = s.mctl := rfl
@[simp] theorem State.setLb_trained (s : State) (d a : Nat) (b : Byte) : (s.setLb d a b).trained = s.trained := rfl
@[simp] theorem State.setLb_parts (s : State) (d a : Nat) (b : Byte) : (s.setLb d a b).parts = s.parts := rfl
@[simp] theorem State.setLb_assigns (s : State) (d a : Nat) (b : Byte) : (s.setLb d a b).assigns = s.assigns := rfl
@[simp] theorem State.setLb_vfs (s : State) (d a : Nat) (b : Byte) : (s.setLb d a b).vfs = s.vfs := rfl
@[simp] theorem State.setLb_hostMem (s : State) (d a : Nat) (b : Byte) : (s.setLb d a b).hostMem = s.hostMem := rfl
@[simp] theorem State.setLb_pod (s : State) (d a : Nat) (b : Byte) : (s.setLb d a b).pod = s.pod := rfl
@[simp] theorem State.setLb_early (s : State) (d a : Nat) (b : Byte) : (s.setLb d a b).early = s.early := rfl
@[simp] theorem State.setLb_hostHeld (s : State) (d a : Nat) (b : Byte) : (s.setLb d a b).hostHeld = s.hostHeld := rfl
@[simp] theorem State.setLb_barriers (s : State) (d a : Nat) (b : Byte) : (s.setLb d a b).barriers = s.barriers := rfl
@[simp] theorem State.setLb_features (s : State) (d a : Nat) (b : Byte) : (s.setLb d a b).features = s.features := rfl
@[simp] theorem State.setLb_requests (s : State) (d a : Nat) (b : Byte) : (s.setLb d a b).requests = s.requests := rfl
@[simp] theorem State.setLb_lateOps (s : State) (d a : Nat) (b : Byte) : (s.setLb d a b).lateOps = s.lateOps := rfl
@[simp] theorem State.setLb_reports (s : State) (d a : Nat) (b : Byte) : (s.setLb d a b).reports = s.reports := rfl
@[simp] theorem State.setLb_trace (s : State) (d a : Nat) (b : Byte) : (s.setLb d a b).trace = s.trace := rfl
@[simp] theorem State.setLb_iss (s : State) (d a : Nat) (b : Byte) : (s.setLb d a b).iss = s.iss := rfl

/-! Where a row group's state is replaced (`State.setRg`). -/

@[simp] theorem State.setRg_now (s : State) (d g : Nat) (x : RowGroup) : (s.setRg d g x).now = s.now := rfl
@[simp] theorem State.setRg_seq (s : State) (d g : Nat) (x : RowGroup) : (s.setRg d g x).seq = s.seq := rfl
@[simp] theorem State.setRg_free (s : State) (d g : Nat) (x : RowGroup) : (s.setRg d g x).free = s.free := rfl
@[simp] theorem State.setRg_agenda (s : State) (d g : Nat) (x : RowGroup) : (s.setRg d g x).agenda = s.agenda := rfl
@[simp] theorem State.setRg_timers (s : State) (d g : Nat) (x : RowGroup) : (s.setRg d g x).timers = s.timers := rfl
@[simp] theorem State.setRg_ev (s : State) (d g : Nat) (x : RowGroup) : (s.setRg d g x).ev = s.ev := rfl
@[simp] theorem State.setRg_mem (s : State) (d g : Nat) (x : RowGroup) : (s.setRg d g x).mem = s.mem := rfl
@[simp] theorem State.setRg_pkids (s : State) (d g : Nat) (x : RowGroup) : (s.setRg d g x).pkids = s.pkids := rfl
@[simp] theorem State.setRg_poison (s : State) (d g : Nat) (x : RowGroup) : (s.setRg d g x).poison = s.poison := rfl
@[simp] theorem State.setRg_loc (s : State) (d g : Nat) (x : RowGroup) : (s.setRg d g x).loc = s.loc := rfl
@[simp] theorem State.setRg_ctxs (s : State) (d g : Nat) (x : RowGroup) : (s.setRg d g x).ctxs = s.ctxs := rfl
@[simp] theorem State.setRg_cores (s : State) (d g : Nat) (x : RowGroup) : (s.setRg d g x).cores = s.cores := rfl
@[simp] theorem State.setRg_dies (s : State) (d g : Nat) (x : RowGroup) : (s.setRg d g x).dies = s.dies := rfl
@[simp] theorem State.setRg_mctl (s : State) (d g : Nat) (x : RowGroup) : (s.setRg d g x).mctl = s.mctl := rfl
@[simp] theorem State.setRg_trained (s : State) (d g : Nat) (x : RowGroup) : (s.setRg d g x).trained = s.trained := rfl
@[simp] theorem State.setRg_parts (s : State) (d g : Nat) (x : RowGroup) : (s.setRg d g x).parts = s.parts := rfl
@[simp] theorem State.setRg_assigns (s : State) (d g : Nat) (x : RowGroup) : (s.setRg d g x).assigns = s.assigns := rfl
@[simp] theorem State.setRg_vfs (s : State) (d g : Nat) (x : RowGroup) : (s.setRg d g x).vfs = s.vfs := rfl
@[simp] theorem State.setRg_hostMem (s : State) (d g : Nat) (x : RowGroup) : (s.setRg d g x).hostMem = s.hostMem := rfl
@[simp] theorem State.setRg_pod (s : State) (d g : Nat) (x : RowGroup) : (s.setRg d g x).pod = s.pod := rfl
@[simp] theorem State.setRg_early (s : State) (d g : Nat) (x : RowGroup) : (s.setRg d g x).early = s.early := rfl
@[simp] theorem State.setRg_hostHeld (s : State) (d g : Nat) (x : RowGroup) : (s.setRg d g x).hostHeld = s.hostHeld := rfl
@[simp] theorem State.setRg_barriers (s : State) (d g : Nat) (x : RowGroup) : (s.setRg d g x).barriers = s.barriers := rfl
@[simp] theorem State.setRg_features (s : State) (d g : Nat) (x : RowGroup) : (s.setRg d g x).features = s.features := rfl
@[simp] theorem State.setRg_requests (s : State) (d g : Nat) (x : RowGroup) : (s.setRg d g x).requests = s.requests := rfl
@[simp] theorem State.setRg_lateOps (s : State) (d g : Nat) (x : RowGroup) : (s.setRg d g x).lateOps = s.lateOps := rfl
@[simp] theorem State.setRg_reports (s : State) (d g : Nat) (x : RowGroup) : (s.setRg d g x).reports = s.reports := rfl
@[simp] theorem State.setRg_trace (s : State) (d g : Nat) (x : RowGroup) : (s.setRg d g x).trace = s.trace := rfl
@[simp] theorem State.setRg_iss (s : State) (d g : Nat) (x : RowGroup) : (s.setRg d g x).iss = s.iss := rfl

/-! Where a byte of device or host memory is written (`State.setMb`). -/

@[simp] theorem State.setMb_now (s : State) (key : Nat) (b : Byte) : (s.setMb key b).now = s.now := by
  unfold State.setMb; split <;> rfl
@[simp] theorem State.setMb_seq (s : State) (key : Nat) (b : Byte) : (s.setMb key b).seq = s.seq := by
  unfold State.setMb; split <;> rfl
@[simp] theorem State.setMb_free (s : State) (key : Nat) (b : Byte) : (s.setMb key b).free = s.free := by
  unfold State.setMb; split <;> rfl
@[simp] theorem State.setMb_agenda (s : State) (key : Nat) (b : Byte) : (s.setMb key b).agenda = s.agenda := by
  unfold State.setMb; split <;> rfl
@[simp] theorem State.setMb_timers (s : State) (key : Nat) (b : Byte) : (s.setMb key b).timers = s.timers := by
  unfold State.setMb; split <;> rfl
@[simp] theorem State.setMb_ev (s : State) (key : Nat) (b : Byte) : (s.setMb key b).ev = s.ev := by
  unfold State.setMb; split <;> rfl
@[simp] theorem State.setMb_poison (s : State) (key : Nat) (b : Byte) : (s.setMb key b).poison = s.poison := by
  unfold State.setMb; split <;> rfl
@[simp] theorem State.setMb_loc (s : State) (key : Nat) (b : Byte) : (s.setMb key b).loc = s.loc := by
  unfold State.setMb; split <;> rfl
@[simp] theorem State.setMb_rgs (s : State) (key : Nat) (b : Byte) : (s.setMb key b).rgs = s.rgs := by
  unfold State.setMb; split <;> rfl
@[simp] theorem State.setMb_ctxs (s : State) (key : Nat) (b : Byte) : (s.setMb key b).ctxs = s.ctxs := by
  unfold State.setMb; split <;> rfl
@[simp] theorem State.setMb_cores (s : State) (key : Nat) (b : Byte) : (s.setMb key b).cores = s.cores := by
  unfold State.setMb; split <;> rfl
@[simp] theorem State.setMb_dies (s : State) (key : Nat) (b : Byte) : (s.setMb key b).dies = s.dies := by
  unfold State.setMb; split <;> rfl
@[simp] theorem State.setMb_mctl (s : State) (key : Nat) (b : Byte) : (s.setMb key b).mctl = s.mctl := by
  unfold State.setMb; split <;> rfl
@[simp] theorem State.setMb_trained (s : State) (key : Nat) (b : Byte) : (s.setMb key b).trained = s.trained := by
  unfold State.setMb; split <;> rfl
@[simp] theorem State.setMb_parts (s : State) (key : Nat) (b : Byte) : (s.setMb key b).parts = s.parts := by
  unfold State.setMb; split <;> rfl
@[simp] theorem State.setMb_assigns (s : State) (key : Nat) (b : Byte) : (s.setMb key b).assigns = s.assigns := by
  unfold State.setMb; split <;> rfl
@[simp] theorem State.setMb_vfs (s : State) (key : Nat) (b : Byte) : (s.setMb key b).vfs = s.vfs := by
  unfold State.setMb; split <;> rfl
@[simp] theorem State.setMb_pod (s : State) (key : Nat) (b : Byte) : (s.setMb key b).pod = s.pod := by
  unfold State.setMb; split <;> rfl
@[simp] theorem State.setMb_early (s : State) (key : Nat) (b : Byte) : (s.setMb key b).early = s.early := by
  unfold State.setMb; split <;> rfl
@[simp] theorem State.setMb_hostHeld (s : State) (key : Nat) (b : Byte) : (s.setMb key b).hostHeld = s.hostHeld := by
  unfold State.setMb; split <;> rfl
@[simp] theorem State.setMb_barriers (s : State) (key : Nat) (b : Byte) : (s.setMb key b).barriers = s.barriers := by
  unfold State.setMb; split <;> rfl
@[simp] theorem State.setMb_features (s : State) (key : Nat) (b : Byte) : (s.setMb key b).features = s.features := by
  unfold State.setMb; split <;> rfl
@[simp] theorem State.setMb_requests (s : State) (key : Nat) (b : Byte) : (s.setMb key b).requests = s.requests := by
  unfold State.setMb; split <;> rfl
@[simp] theorem State.setMb_lateOps (s : State) (key : Nat) (b : Byte) : (s.setMb key b).lateOps = s.lateOps := by
  unfold State.setMb; split <;> rfl
@[simp] theorem State.setMb_reports (s : State) (key : Nat) (b : Byte) : (s.setMb key b).reports = s.reports := by
  unfold State.setMb; split <;> rfl
@[simp] theorem State.setMb_trace (s : State) (key : Nat) (b : Byte) : (s.setMb key b).trace = s.trace := by
  unfold State.setMb; split <;> rfl
@[simp] theorem State.setMb_iss (s : State) (key : Nat) (b : Byte) : (s.setMb key b).iss = s.iss := by
  unfold State.setMb; split <;> rfl

/-! Where a pending write is added (`State.pendRaw`). -/

@[simp] theorem State.pendRaw_now (s : State) (reg lat : Nat) (p : Payload) (arr : Bool) : (s.pendRaw reg lat p arr).now = s.now := rfl
@[simp] theorem State.pendRaw_free (s : State) (reg lat : Nat) (p : Payload) (arr : Bool) : (s.pendRaw reg lat p arr).free = s.free := rfl
@[simp] theorem State.pendRaw_agenda (s : State) (reg lat : Nat) (p : Payload) (arr : Bool) : (s.pendRaw reg lat p arr).agenda = s.agenda := rfl
@[simp] theorem State.pendRaw_timers (s : State) (reg lat : Nat) (p : Payload) (arr : Bool) : (s.pendRaw reg lat p arr).timers = s.timers := rfl
@[simp] theorem State.pendRaw_ev (s : State) (reg lat : Nat) (p : Payload) (arr : Bool) : (s.pendRaw reg lat p arr).ev = s.ev := rfl
@[simp] theorem State.pendRaw_mem (s : State) (reg lat : Nat) (p : Payload) (arr : Bool) : (s.pendRaw reg lat p arr).mem = s.mem := rfl
@[simp] theorem State.pendRaw_pkids (s : State) (reg lat : Nat) (p : Payload) (arr : Bool) : (s.pendRaw reg lat p arr).pkids = s.pkids := rfl
@[simp] theorem State.pendRaw_poison (s : State) (reg lat : Nat) (p : Payload) (arr : Bool) : (s.pendRaw reg lat p arr).poison = s.poison := rfl
@[simp] theorem State.pendRaw_loc (s : State) (reg lat : Nat) (p : Payload) (arr : Bool) : (s.pendRaw reg lat p arr).loc = s.loc := rfl
@[simp] theorem State.pendRaw_rgs (s : State) (reg lat : Nat) (p : Payload) (arr : Bool) : (s.pendRaw reg lat p arr).rgs = s.rgs := rfl
@[simp] theorem State.pendRaw_cores (s : State) (reg lat : Nat) (p : Payload) (arr : Bool) : (s.pendRaw reg lat p arr).cores = s.cores := rfl
@[simp] theorem State.pendRaw_dies (s : State) (reg lat : Nat) (p : Payload) (arr : Bool) : (s.pendRaw reg lat p arr).dies = s.dies := rfl
@[simp] theorem State.pendRaw_mctl (s : State) (reg lat : Nat) (p : Payload) (arr : Bool) : (s.pendRaw reg lat p arr).mctl = s.mctl := rfl
@[simp] theorem State.pendRaw_trained (s : State) (reg lat : Nat) (p : Payload) (arr : Bool) : (s.pendRaw reg lat p arr).trained = s.trained := rfl
@[simp] theorem State.pendRaw_parts (s : State) (reg lat : Nat) (p : Payload) (arr : Bool) : (s.pendRaw reg lat p arr).parts = s.parts := rfl
@[simp] theorem State.pendRaw_assigns (s : State) (reg lat : Nat) (p : Payload) (arr : Bool) : (s.pendRaw reg lat p arr).assigns = s.assigns := rfl
@[simp] theorem State.pendRaw_vfs (s : State) (reg lat : Nat) (p : Payload) (arr : Bool) : (s.pendRaw reg lat p arr).vfs = s.vfs := rfl
@[simp] theorem State.pendRaw_hostMem (s : State) (reg lat : Nat) (p : Payload) (arr : Bool) : (s.pendRaw reg lat p arr).hostMem = s.hostMem := rfl
@[simp] theorem State.pendRaw_pod (s : State) (reg lat : Nat) (p : Payload) (arr : Bool) : (s.pendRaw reg lat p arr).pod = s.pod := rfl
@[simp] theorem State.pendRaw_early (s : State) (reg lat : Nat) (p : Payload) (arr : Bool) : (s.pendRaw reg lat p arr).early = s.early := rfl
@[simp] theorem State.pendRaw_hostHeld (s : State) (reg lat : Nat) (p : Payload) (arr : Bool) : (s.pendRaw reg lat p arr).hostHeld = s.hostHeld := rfl
@[simp] theorem State.pendRaw_barriers (s : State) (reg lat : Nat) (p : Payload) (arr : Bool) : (s.pendRaw reg lat p arr).barriers = s.barriers := rfl
@[simp] theorem State.pendRaw_features (s : State) (reg lat : Nat) (p : Payload) (arr : Bool) : (s.pendRaw reg lat p arr).features = s.features := rfl
@[simp] theorem State.pendRaw_requests (s : State) (reg lat : Nat) (p : Payload) (arr : Bool) : (s.pendRaw reg lat p arr).requests = s.requests := rfl
@[simp] theorem State.pendRaw_lateOps (s : State) (reg lat : Nat) (p : Payload) (arr : Bool) : (s.pendRaw reg lat p arr).lateOps = s.lateOps := rfl
@[simp] theorem State.pendRaw_reports (s : State) (reg lat : Nat) (p : Payload) (arr : Bool) : (s.pendRaw reg lat p arr).reports = s.reports := rfl
@[simp] theorem State.pendRaw_trace (s : State) (reg lat : Nat) (p : Payload) (arr : Bool) : (s.pendRaw reg lat p arr).trace = s.trace := rfl
@[simp] theorem State.pendRaw_iss (s : State) (reg lat : Nat) (p : Payload) (arr : Bool) : (s.pendRaw reg lat p arr).iss = s.iss := rfl

/-! Where a scalar result is pending (`State.pendG`). -/

@[simp] theorem State.pendG_now (s : State) (d : Reg) (lat : Nat) (v : W64) : (s.pendG d lat v).now = s.now := by
  unfold State.pendG; split <;> rfl
@[simp] theorem State.pendG_free (s : State) (d : Reg) (lat : Nat) (v : W64) : (s.pendG d lat v).free = s.free := by
  unfold State.pendG; split <;> rfl
@[simp] theorem State.pendG_agenda (s : State) (d : Reg) (lat : Nat) (v : W64) : (s.pendG d lat v).agenda = s.agenda := by
  unfold State.pendG; split <;> rfl
@[simp] theorem State.pendG_timers (s : State) (d : Reg) (lat : Nat) (v : W64) : (s.pendG d lat v).timers = s.timers := by
  unfold State.pendG; split <;> rfl
@[simp] theorem State.pendG_ev (s : State) (d : Reg) (lat : Nat) (v : W64) : (s.pendG d lat v).ev = s.ev := by
  unfold State.pendG; split <;> rfl
@[simp] theorem State.pendG_mem (s : State) (d : Reg) (lat : Nat) (v : W64) : (s.pendG d lat v).mem = s.mem := by
  unfold State.pendG; split <;> rfl
@[simp] theorem State.pendG_pkids (s : State) (d : Reg) (lat : Nat) (v : W64) : (s.pendG d lat v).pkids = s.pkids := by
  unfold State.pendG; split <;> rfl
@[simp] theorem State.pendG_poison (s : State) (d : Reg) (lat : Nat) (v : W64) : (s.pendG d lat v).poison = s.poison := by
  unfold State.pendG; split <;> rfl
@[simp] theorem State.pendG_loc (s : State) (d : Reg) (lat : Nat) (v : W64) : (s.pendG d lat v).loc = s.loc := by
  unfold State.pendG; split <;> rfl
@[simp] theorem State.pendG_rgs (s : State) (d : Reg) (lat : Nat) (v : W64) : (s.pendG d lat v).rgs = s.rgs := by
  unfold State.pendG; split <;> rfl
@[simp] theorem State.pendG_cores (s : State) (d : Reg) (lat : Nat) (v : W64) : (s.pendG d lat v).cores = s.cores := by
  unfold State.pendG; split <;> rfl
@[simp] theorem State.pendG_dies (s : State) (d : Reg) (lat : Nat) (v : W64) : (s.pendG d lat v).dies = s.dies := by
  unfold State.pendG; split <;> rfl
@[simp] theorem State.pendG_mctl (s : State) (d : Reg) (lat : Nat) (v : W64) : (s.pendG d lat v).mctl = s.mctl := by
  unfold State.pendG; split <;> rfl
@[simp] theorem State.pendG_trained (s : State) (d : Reg) (lat : Nat) (v : W64) : (s.pendG d lat v).trained = s.trained := by
  unfold State.pendG; split <;> rfl
@[simp] theorem State.pendG_parts (s : State) (d : Reg) (lat : Nat) (v : W64) : (s.pendG d lat v).parts = s.parts := by
  unfold State.pendG; split <;> rfl
@[simp] theorem State.pendG_assigns (s : State) (d : Reg) (lat : Nat) (v : W64) : (s.pendG d lat v).assigns = s.assigns := by
  unfold State.pendG; split <;> rfl
@[simp] theorem State.pendG_vfs (s : State) (d : Reg) (lat : Nat) (v : W64) : (s.pendG d lat v).vfs = s.vfs := by
  unfold State.pendG; split <;> rfl
@[simp] theorem State.pendG_hostMem (s : State) (d : Reg) (lat : Nat) (v : W64) : (s.pendG d lat v).hostMem = s.hostMem := by
  unfold State.pendG; split <;> rfl
@[simp] theorem State.pendG_pod (s : State) (d : Reg) (lat : Nat) (v : W64) : (s.pendG d lat v).pod = s.pod := by
  unfold State.pendG; split <;> rfl
@[simp] theorem State.pendG_early (s : State) (d : Reg) (lat : Nat) (v : W64) : (s.pendG d lat v).early = s.early := by
  unfold State.pendG; split <;> rfl
@[simp] theorem State.pendG_hostHeld (s : State) (d : Reg) (lat : Nat) (v : W64) : (s.pendG d lat v).hostHeld = s.hostHeld := by
  unfold State.pendG; split <;> rfl
@[simp] theorem State.pendG_barriers (s : State) (d : Reg) (lat : Nat) (v : W64) : (s.pendG d lat v).barriers = s.barriers := by
  unfold State.pendG; split <;> rfl
@[simp] theorem State.pendG_features (s : State) (d : Reg) (lat : Nat) (v : W64) : (s.pendG d lat v).features = s.features := by
  unfold State.pendG; split <;> rfl
@[simp] theorem State.pendG_requests (s : State) (d : Reg) (lat : Nat) (v : W64) : (s.pendG d lat v).requests = s.requests := by
  unfold State.pendG; split <;> rfl
@[simp] theorem State.pendG_lateOps (s : State) (d : Reg) (lat : Nat) (v : W64) : (s.pendG d lat v).lateOps = s.lateOps := by
  unfold State.pendG; split <;> rfl
@[simp] theorem State.pendG_reports (s : State) (d : Reg) (lat : Nat) (v : W64) : (s.pendG d lat v).reports = s.reports := by
  unfold State.pendG; split <;> rfl
@[simp] theorem State.pendG_trace (s : State) (d : Reg) (lat : Nat) (v : W64) : (s.pendG d lat v).trace = s.trace := by
  unfold State.pendG; split <;> rfl
@[simp] theorem State.pendG_iss (s : State) (d : Reg) (lat : Nat) (v : W64) : (s.pendG d lat v).iss = s.iss := by
  unfold State.pendG; split <;> rfl

/-! Where a vector result is pending (`State.pendV`). -/

@[simp] theorem State.pendV_now (s : State) (d : Reg) (lat : Nat) (m : BitVec 3) (f : Nat → Elem) : (s.pendV d lat m f).now = s.now := rfl
@[simp] theorem State.pendV_free (s : State) (d : Reg) (lat : Nat) (m : BitVec 3) (f : Nat → Elem) : (s.pendV d lat m f).free = s.free := rfl
@[simp] theorem State.pendV_agenda (s : State) (d : Reg) (lat : Nat) (m : BitVec 3) (f : Nat → Elem) : (s.pendV d lat m f).agenda = s.agenda := rfl
@[simp] theorem State.pendV_timers (s : State) (d : Reg) (lat : Nat) (m : BitVec 3) (f : Nat → Elem) : (s.pendV d lat m f).timers = s.timers := rfl
@[simp] theorem State.pendV_ev (s : State) (d : Reg) (lat : Nat) (m : BitVec 3) (f : Nat → Elem) : (s.pendV d lat m f).ev = s.ev := rfl
@[simp] theorem State.pendV_mem (s : State) (d : Reg) (lat : Nat) (m : BitVec 3) (f : Nat → Elem) : (s.pendV d lat m f).mem = s.mem := rfl
@[simp] theorem State.pendV_pkids (s : State) (d : Reg) (lat : Nat) (m : BitVec 3) (f : Nat → Elem) : (s.pendV d lat m f).pkids = s.pkids := rfl
@[simp] theorem State.pendV_poison (s : State) (d : Reg) (lat : Nat) (m : BitVec 3) (f : Nat → Elem) : (s.pendV d lat m f).poison = s.poison := rfl
@[simp] theorem State.pendV_loc (s : State) (d : Reg) (lat : Nat) (m : BitVec 3) (f : Nat → Elem) : (s.pendV d lat m f).loc = s.loc := rfl
@[simp] theorem State.pendV_rgs (s : State) (d : Reg) (lat : Nat) (m : BitVec 3) (f : Nat → Elem) : (s.pendV d lat m f).rgs = s.rgs := rfl
@[simp] theorem State.pendV_cores (s : State) (d : Reg) (lat : Nat) (m : BitVec 3) (f : Nat → Elem) : (s.pendV d lat m f).cores = s.cores := rfl
@[simp] theorem State.pendV_dies (s : State) (d : Reg) (lat : Nat) (m : BitVec 3) (f : Nat → Elem) : (s.pendV d lat m f).dies = s.dies := rfl
@[simp] theorem State.pendV_mctl (s : State) (d : Reg) (lat : Nat) (m : BitVec 3) (f : Nat → Elem) : (s.pendV d lat m f).mctl = s.mctl := rfl
@[simp] theorem State.pendV_trained (s : State) (d : Reg) (lat : Nat) (m : BitVec 3) (f : Nat → Elem) : (s.pendV d lat m f).trained = s.trained := rfl
@[simp] theorem State.pendV_parts (s : State) (d : Reg) (lat : Nat) (m : BitVec 3) (f : Nat → Elem) : (s.pendV d lat m f).parts = s.parts := rfl
@[simp] theorem State.pendV_assigns (s : State) (d : Reg) (lat : Nat) (m : BitVec 3) (f : Nat → Elem) : (s.pendV d lat m f).assigns = s.assigns := rfl
@[simp] theorem State.pendV_vfs (s : State) (d : Reg) (lat : Nat) (m : BitVec 3) (f : Nat → Elem) : (s.pendV d lat m f).vfs = s.vfs := rfl
@[simp] theorem State.pendV_hostMem (s : State) (d : Reg) (lat : Nat) (m : BitVec 3) (f : Nat → Elem) : (s.pendV d lat m f).hostMem = s.hostMem := rfl
@[simp] theorem State.pendV_pod (s : State) (d : Reg) (lat : Nat) (m : BitVec 3) (f : Nat → Elem) : (s.pendV d lat m f).pod = s.pod := rfl
@[simp] theorem State.pendV_early (s : State) (d : Reg) (lat : Nat) (m : BitVec 3) (f : Nat → Elem) : (s.pendV d lat m f).early = s.early := rfl
@[simp] theorem State.pendV_hostHeld (s : State) (d : Reg) (lat : Nat) (m : BitVec 3) (f : Nat → Elem) : (s.pendV d lat m f).hostHeld = s.hostHeld := rfl
@[simp] theorem State.pendV_barriers (s : State) (d : Reg) (lat : Nat) (m : BitVec 3) (f : Nat → Elem) : (s.pendV d lat m f).barriers = s.barriers := rfl
@[simp] theorem State.pendV_features (s : State) (d : Reg) (lat : Nat) (m : BitVec 3) (f : Nat → Elem) : (s.pendV d lat m f).features = s.features := rfl
@[simp] theorem State.pendV_requests (s : State) (d : Reg) (lat : Nat) (m : BitVec 3) (f : Nat → Elem) : (s.pendV d lat m f).requests = s.requests := rfl
@[simp] theorem State.pendV_lateOps (s : State) (d : Reg) (lat : Nat) (m : BitVec 3) (f : Nat → Elem) : (s.pendV d lat m f).lateOps = s.lateOps := rfl
@[simp] theorem State.pendV_reports (s : State) (d : Reg) (lat : Nat) (m : BitVec 3) (f : Nat → Elem) : (s.pendV d lat m f).reports = s.reports := rfl
@[simp] theorem State.pendV_trace (s : State) (d : Reg) (lat : Nat) (m : BitVec 3) (f : Nat → Elem) : (s.pendV d lat m f).trace = s.trace := rfl
@[simp] theorem State.pendV_iss (s : State) (d : Reg) (lat : Nat) (m : BitVec 3) (f : Nat → Elem) : (s.pendV d lat m f).iss = s.iss := rfl

/-! Where a predicate result is pending (`State.pendK`). -/

@[simp] theorem State.pendK_now (s : State) (d : Reg) (lat : Nat) (f : Nat → PBit) : (s.pendK d lat f).now = s.now := rfl
@[simp] theorem State.pendK_free (s : State) (d : Reg) (lat : Nat) (f : Nat → PBit) : (s.pendK d lat f).free = s.free := rfl
@[simp] theorem State.pendK_agenda (s : State) (d : Reg) (lat : Nat) (f : Nat → PBit) : (s.pendK d lat f).agenda = s.agenda := rfl
@[simp] theorem State.pendK_timers (s : State) (d : Reg) (lat : Nat) (f : Nat → PBit) : (s.pendK d lat f).timers = s.timers := rfl
@[simp] theorem State.pendK_ev (s : State) (d : Reg) (lat : Nat) (f : Nat → PBit) : (s.pendK d lat f).ev = s.ev := rfl
@[simp] theorem State.pendK_mem (s : State) (d : Reg) (lat : Nat) (f : Nat → PBit) : (s.pendK d lat f).mem = s.mem := rfl
@[simp] theorem State.pendK_pkids (s : State) (d : Reg) (lat : Nat) (f : Nat → PBit) : (s.pendK d lat f).pkids = s.pkids := rfl
@[simp] theorem State.pendK_poison (s : State) (d : Reg) (lat : Nat) (f : Nat → PBit) : (s.pendK d lat f).poison = s.poison := rfl
@[simp] theorem State.pendK_loc (s : State) (d : Reg) (lat : Nat) (f : Nat → PBit) : (s.pendK d lat f).loc = s.loc := rfl
@[simp] theorem State.pendK_rgs (s : State) (d : Reg) (lat : Nat) (f : Nat → PBit) : (s.pendK d lat f).rgs = s.rgs := rfl
@[simp] theorem State.pendK_cores (s : State) (d : Reg) (lat : Nat) (f : Nat → PBit) : (s.pendK d lat f).cores = s.cores := rfl
@[simp] theorem State.pendK_dies (s : State) (d : Reg) (lat : Nat) (f : Nat → PBit) : (s.pendK d lat f).dies = s.dies := rfl
@[simp] theorem State.pendK_mctl (s : State) (d : Reg) (lat : Nat) (f : Nat → PBit) : (s.pendK d lat f).mctl = s.mctl := rfl
@[simp] theorem State.pendK_trained (s : State) (d : Reg) (lat : Nat) (f : Nat → PBit) : (s.pendK d lat f).trained = s.trained := rfl
@[simp] theorem State.pendK_parts (s : State) (d : Reg) (lat : Nat) (f : Nat → PBit) : (s.pendK d lat f).parts = s.parts := rfl
@[simp] theorem State.pendK_assigns (s : State) (d : Reg) (lat : Nat) (f : Nat → PBit) : (s.pendK d lat f).assigns = s.assigns := rfl
@[simp] theorem State.pendK_vfs (s : State) (d : Reg) (lat : Nat) (f : Nat → PBit) : (s.pendK d lat f).vfs = s.vfs := rfl
@[simp] theorem State.pendK_hostMem (s : State) (d : Reg) (lat : Nat) (f : Nat → PBit) : (s.pendK d lat f).hostMem = s.hostMem := rfl
@[simp] theorem State.pendK_pod (s : State) (d : Reg) (lat : Nat) (f : Nat → PBit) : (s.pendK d lat f).pod = s.pod := rfl
@[simp] theorem State.pendK_early (s : State) (d : Reg) (lat : Nat) (f : Nat → PBit) : (s.pendK d lat f).early = s.early := rfl
@[simp] theorem State.pendK_hostHeld (s : State) (d : Reg) (lat : Nat) (f : Nat → PBit) : (s.pendK d lat f).hostHeld = s.hostHeld := rfl
@[simp] theorem State.pendK_barriers (s : State) (d : Reg) (lat : Nat) (f : Nat → PBit) : (s.pendK d lat f).barriers = s.barriers := rfl
@[simp] theorem State.pendK_features (s : State) (d : Reg) (lat : Nat) (f : Nat → PBit) : (s.pendK d lat f).features = s.features := rfl
@[simp] theorem State.pendK_requests (s : State) (d : Reg) (lat : Nat) (f : Nat → PBit) : (s.pendK d lat f).requests = s.requests := rfl
@[simp] theorem State.pendK_lateOps (s : State) (d : Reg) (lat : Nat) (f : Nat → PBit) : (s.pendK d lat f).lateOps = s.lateOps := rfl
@[simp] theorem State.pendK_reports (s : State) (d : Reg) (lat : Nat) (f : Nat → PBit) : (s.pendK d lat f).reports = s.reports := rfl
@[simp] theorem State.pendK_trace (s : State) (d : Reg) (lat : Nat) (f : Nat → PBit) : (s.pendK d lat f).trace = s.trace := rfl
@[simp] theorem State.pendK_iss (s : State) (d : Reg) (lat : Nat) (f : Nat → PBit) : (s.pendK d lat f).iss = s.iss := rfl

/-! Where frozen cycles are added (`State.freeze`). -/

@[simp] theorem State.freeze_now (s : State) (n : Nat) : (s.freeze n).now = s.now := rfl
@[simp] theorem State.freeze_seq (s : State) (n : Nat) : (s.freeze n).seq = s.seq := rfl
@[simp] theorem State.freeze_free (s : State) (n : Nat) : (s.freeze n).free = s.free := rfl
@[simp] theorem State.freeze_agenda (s : State) (n : Nat) : (s.freeze n).agenda = s.agenda := rfl
@[simp] theorem State.freeze_timers (s : State) (n : Nat) : (s.freeze n).timers = s.timers := rfl
@[simp] theorem State.freeze_ev (s : State) (n : Nat) : (s.freeze n).ev = s.ev := rfl
@[simp] theorem State.freeze_mem (s : State) (n : Nat) : (s.freeze n).mem = s.mem := rfl
@[simp] theorem State.freeze_pkids (s : State) (n : Nat) : (s.freeze n).pkids = s.pkids := rfl
@[simp] theorem State.freeze_poison (s : State) (n : Nat) : (s.freeze n).poison = s.poison := rfl
@[simp] theorem State.freeze_loc (s : State) (n : Nat) : (s.freeze n).loc = s.loc := rfl
@[simp] theorem State.freeze_rgs (s : State) (n : Nat) : (s.freeze n).rgs = s.rgs := rfl
@[simp] theorem State.freeze_ctxs (s : State) (n : Nat) : (s.freeze n).ctxs = s.ctxs := rfl
@[simp] theorem State.freeze_dies (s : State) (n : Nat) : (s.freeze n).dies = s.dies := rfl
@[simp] theorem State.freeze_mctl (s : State) (n : Nat) : (s.freeze n).mctl = s.mctl := rfl
@[simp] theorem State.freeze_trained (s : State) (n : Nat) : (s.freeze n).trained = s.trained := rfl
@[simp] theorem State.freeze_parts (s : State) (n : Nat) : (s.freeze n).parts = s.parts := rfl
@[simp] theorem State.freeze_assigns (s : State) (n : Nat) : (s.freeze n).assigns = s.assigns := rfl
@[simp] theorem State.freeze_vfs (s : State) (n : Nat) : (s.freeze n).vfs = s.vfs := rfl
@[simp] theorem State.freeze_hostMem (s : State) (n : Nat) : (s.freeze n).hostMem = s.hostMem := rfl
@[simp] theorem State.freeze_pod (s : State) (n : Nat) : (s.freeze n).pod = s.pod := rfl
@[simp] theorem State.freeze_early (s : State) (n : Nat) : (s.freeze n).early = s.early := rfl
@[simp] theorem State.freeze_hostHeld (s : State) (n : Nat) : (s.freeze n).hostHeld = s.hostHeld := rfl
@[simp] theorem State.freeze_barriers (s : State) (n : Nat) : (s.freeze n).barriers = s.barriers := rfl
@[simp] theorem State.freeze_features (s : State) (n : Nat) : (s.freeze n).features = s.features := rfl
@[simp] theorem State.freeze_requests (s : State) (n : Nat) : (s.freeze n).requests = s.requests := rfl
@[simp] theorem State.freeze_lateOps (s : State) (n : Nat) : (s.freeze n).lateOps = s.lateOps := rfl
@[simp] theorem State.freeze_reports (s : State) (n : Nat) : (s.freeze n).reports = s.reports := rfl
@[simp] theorem State.freeze_trace (s : State) (n : Nat) : (s.freeze n).trace = s.trace := rfl
@[simp] theorem State.freeze_iss (s : State) (n : Nat) : (s.freeze n).iss = s.iss := rfl

/-! What a unit's record reads after an update. -/

@[simp] theorem State.ctx_setCtx_same (s : State) (c : Nat) (x : Ctx) : (s.setCtx c x).ctx c = x :=
  mapGet_mapPut_same _ _ _ _
theorem State.ctx_setCtx_ne (s : State) (c j : Nat) (x : Ctx) (h : j ≠ c) : (s.setCtx c x).ctx j = s.ctx j :=
  mapGet_mapPut_ne _ _ _ _ _ h
@[simp] theorem State.ctx_modCtx_same (s : State) (c : Nat) (f : Ctx → Ctx) : (s.modCtx c f).ctx c = f (s.ctx c) :=
  mapGet_mapPut_same _ _ _ _
theorem State.ctx_modCtx_ne (s : State) (c j : Nat) (f : Ctx → Ctx) (h : j ≠ c) : (s.modCtx c f).ctx j = s.ctx j :=
  mapGet_mapPut_ne _ _ _ _ _ h

@[simp] theorem State.core_setCore_same (s : State) (c : Nat) (x : Core) : (s.setCore c x).core c = x :=
  mapGet_mapPut_same _ _ _ _
theorem State.core_setCore_ne (s : State) (c j : Nat) (x : Core) (h : j ≠ c) : (s.setCore c x).core j = s.core j :=
  mapGet_mapPut_ne _ _ _ _ _ h
@[simp] theorem State.core_modCore_same (s : State) (c : Nat) (f : Core → Core) : (s.modCore c f).core c = f (s.core c) :=
  mapGet_mapPut_same _ _ _ _
theorem State.core_modCore_ne (s : State) (c j : Nat) (f : Core → Core) (h : j ≠ c) : (s.modCore c f).core j = s.core j :=
  mapGet_mapPut_ne _ _ _ _ _ h

@[simp] theorem State.die_setDie_same (s : State) (c : Nat) (x : Die) : (s.setDie c x).die c = x :=
  mapGet_mapPut_same _ _ _ _
theorem State.die_setDie_ne (s : State) (c j : Nat) (x : Die) (h : j ≠ c) : (s.setDie c x).die j = s.die j :=
  mapGet_mapPut_ne _ _ _ _ _ h
@[simp] theorem State.die_modDie_same (s : State) (c : Nat) (f : Die → Die) : (s.modDie c f).die c = f (s.die c) :=
  mapGet_mapPut_same _ _ _ _
theorem State.die_modDie_ne (s : State) (c j : Nat) (f : Die → Die) (h : j ≠ c) : (s.modDie c f).die j = s.die j :=
  mapGet_mapPut_ne _ _ _ _ _ h

@[simp] theorem State.part_modPart_same (s : State) (p : Nat) (f : Partition → Partition) :
    (s.modPart p f).part p = f (s.part p) := mapGet_mapPut_same _ _ _ _
theorem State.part_modPart_ne (s : State) (p j : Nat) (f : Partition → Partition) (h : j ≠ p) :
    (s.modPart p f).part j = s.part j := mapGet_mapPut_ne _ _ _ _ _ h

@[simp] theorem State.core_setCtx (s : State) (c : Nat) (x : Ctx) (j : Nat) : (s.setCtx c x).core j = s.core j := by
  simp [State.core]
@[simp] theorem State.die_setCtx (s : State) (c : Nat) (x : Ctx) (j : Nat) : (s.setCtx c x).die j = s.die j := by
  simp [State.die]
@[simp] theorem State.part_setCtx (s : State) (c : Nat) (x : Ctx) (j : Nat) : (s.setCtx c x).part j = s.part j := by
  simp [State.part]
@[simp] theorem State.core_modCtx (s : State) (c : Nat) (f : Ctx → Ctx) (j : Nat) : (s.modCtx c f).core j = s.core j := by
  simp [State.core]
@[simp] theorem State.die_modCtx (s : State) (c : Nat) (f : Ctx → Ctx) (j : Nat) : (s.modCtx c f).die j = s.die j := by
  simp [State.die]
@[simp] theorem State.part_modCtx (s : State) (c : Nat) (f : Ctx → Ctx) (j : Nat) : (s.modCtx c f).part j = s.part j := by
  simp [State.part]
@[simp] theorem State.ctx_setCore (s : State) (k : Nat) (x : Core) (j : Nat) : (s.setCore k x).ctx j = s.ctx j := by
  simp [State.ctx]
@[simp] theorem State.die_setCore (s : State) (k : Nat) (x : Core) (j : Nat) : (s.setCore k x).die j = s.die j := by
  simp [State.die]
@[simp] theorem State.part_setCore (s : State) (k : Nat) (x : Core) (j : Nat) : (s.setCore k x).part j = s.part j := by
  simp [State.part]
@[simp] theorem State.ctx_modCore (s : State) (k : Nat) (f : Core → Core) (j : Nat) : (s.modCore k f).ctx j = s.ctx j := by
  simp [State.ctx]
@[simp] theorem State.die_modCore (s : State) (k : Nat) (f : Core → Core) (j : Nat) : (s.modCore k f).die j = s.die j := by
  simp [State.die]
@[simp] theorem State.part_modCore (s : State) (k : Nat) (f : Core → Core) (j : Nat) : (s.modCore k f).part j = s.part j := by
  simp [State.part]
@[simp] theorem State.ctx_setDie (s : State) (d : Nat) (x : Die) (j : Nat) : (s.setDie d x).ctx j = s.ctx j := by
  simp [State.ctx]
@[simp] theorem State.core_setDie (s : State) (d : Nat) (x : Die) (j : Nat) : (s.setDie d x).core j = s.core j := by
  simp [State.core]
@[simp] theorem State.part_setDie (s : State) (d : Nat) (x : Die) (j : Nat) : (s.setDie d x).part j = s.part j := by
  simp [State.part]
@[simp] theorem State.ctx_modDie (s : State) (d : Nat) (f : Die → Die) (j : Nat) : (s.modDie d f).ctx j = s.ctx j := by
  simp [State.ctx]
@[simp] theorem State.core_modDie (s : State) (d : Nat) (f : Die → Die) (j : Nat) : (s.modDie d f).core j = s.core j := by
  simp [State.core]
@[simp] theorem State.part_modDie (s : State) (d : Nat) (f : Die → Die) (j : Nat) : (s.modDie d f).part j = s.part j := by
  simp [State.part]
@[simp] theorem State.ctx_modPart (s : State) (p : Nat) (f : Partition → Partition) (j : Nat) : (s.modPart p f).ctx j = s.ctx j := by
  simp [State.ctx]
@[simp] theorem State.core_modPart (s : State) (p : Nat) (f : Partition → Partition) (j : Nat) : (s.modPart p f).core j = s.core j := by
  simp [State.core]
@[simp] theorem State.die_modPart (s : State) (p : Nat) (f : Partition → Partition) (j : Nat) : (s.modPart p f).die j = s.die j := by
  simp [State.die]
@[simp] theorem State.ctx_due (s : State) (i : Instr) (o : EvArg) (j : Nat) : (s.due i o).ctx j = s.ctx j := by
  simp [State.ctx]
@[simp] theorem State.core_due (s : State) (i : Instr) (o : EvArg) (j : Nat) : (s.due i o).core j = s.core j := by
  simp [State.core]
@[simp] theorem State.die_due (s : State) (i : Instr) (o : EvArg) (j : Nat) : (s.due i o).die j = s.die j := by
  simp [State.die]
@[simp] theorem State.part_due (s : State) (i : Instr) (o : EvArg) (j : Nat) : (s.due i o).part j = s.part j := by
  simp [State.part]
@[simp] theorem State.ctx_dueN (s : State) (i : Instr) (a : Nat) (j : Nat) : (s.dueN i a).ctx j = s.ctx j := by
  simp [State.ctx]
@[simp] theorem State.core_dueN (s : State) (i : Instr) (a : Nat) (j : Nat) : (s.dueN i a).core j = s.core j := by
  simp [State.core]
@[simp] theorem State.die_dueN (s : State) (i : Instr) (a : Nat) (j : Nat) : (s.dueN i a).die j = s.die j := by
  simp [State.die]
@[simp] theorem State.part_dueN (s : State) (i : Instr) (a : Nat) (j : Nat) : (s.dueN i a).part j = s.part j := by
  simp [State.part]
@[simp] theorem State.ctx_dueOnce (s : State) (i : Instr) (o : EvArg) (j : Nat) : (s.dueOnce i o).ctx j = s.ctx j := by
  simp [State.ctx]
@[simp] theorem State.core_dueOnce (s : State) (i : Instr) (o : EvArg) (j : Nat) : (s.dueOnce i o).core j = s.core j := by
  simp [State.core]
@[simp] theorem State.die_dueOnce (s : State) (i : Instr) (o : EvArg) (j : Nat) : (s.dueOnce i o).die j = s.die j := by
  simp [State.die]
@[simp] theorem State.part_dueOnce (s : State) (i : Instr) (o : EvArg) (j : Nat) : (s.dueOnce i o).part j = s.part j := by
  simp [State.part]
@[simp] theorem State.ctx_at_ (s : State) (t : Nat) (i : Instr) (o : EvArg) (j : Nat) : (s.at_ t i o).ctx j = s.ctx j := by
  simp [State.ctx]
@[simp] theorem State.core_at_ (s : State) (t : Nat) (i : Instr) (o : EvArg) (j : Nat) : (s.at_ t i o).core j = s.core j := by
  simp [State.core]
@[simp] theorem State.die_at_ (s : State) (t : Nat) (i : Instr) (o : EvArg) (j : Nat) : (s.at_ t i o).die j = s.die j := by
  simp [State.die]
@[simp] theorem State.part_at_ (s : State) (t : Nat) (i : Instr) (o : EvArg) (j : Nat) : (s.at_ t i o).part j = s.part j := by
  simp [State.part]
@[simp] theorem State.ctx_after (s : State) (dt : Nat) (i : Instr) (o : EvArg) (j : Nat) : (s.after dt i o).ctx j = s.ctx j := by
  simp [State.ctx]
@[simp] theorem State.core_after (s : State) (dt : Nat) (i : Instr) (o : EvArg) (j : Nat) : (s.after dt i o).core j = s.core j := by
  simp [State.core]
@[simp] theorem State.die_after (s : State) (dt : Nat) (i : Instr) (o : EvArg) (j : Nat) : (s.after dt i o).die j = s.die j := by
  simp [State.die]
@[simp] theorem State.part_after (s : State) (dt : Nat) (i : Instr) (o : EvArg) (j : Nat) : (s.after dt i o).part j = s.part j := by
  simp [State.part]
@[simp] theorem State.ctx_afterCycles (s : State) (d v n : Nat) (i : Instr) (o : EvArg) (j : Nat) : (s.afterCycles d v n i o).ctx j = s.ctx j := by
  simp [State.ctx]
@[simp] theorem State.core_afterCycles (s : State) (d v n : Nat) (i : Instr) (o : EvArg) (j : Nat) : (s.afterCycles d v n i o).core j = s.core j := by
  simp [State.core]
@[simp] theorem State.die_afterCycles (s : State) (d v n : Nat) (i : Instr) (o : EvArg) (j : Nat) : (s.afterCycles d v n i o).die j = s.die j := by
  simp [State.die]
@[simp] theorem State.part_afterCycles (s : State) (d v n : Nat) (i : Instr) (o : EvArg) (j : Nat) : (s.afterCycles d v n i o).part j = s.part j := by
  simp [State.part]
@[simp] theorem State.ctx_modVf (s : State) (n : Nat) (f : Vf → Vf) (j : Nat) : (s.modVf n f).ctx j = s.ctx j := by
  simp [State.ctx]
@[simp] theorem State.core_modVf (s : State) (n : Nat) (f : Vf → Vf) (j : Nat) : (s.modVf n f).core j = s.core j := by
  simp [State.core]
@[simp] theorem State.die_modVf (s : State) (n : Nat) (f : Vf → Vf) (j : Nat) : (s.modVf n f).die j = s.die j := by
  simp [State.die]
@[simp] theorem State.part_modVf (s : State) (n : Nat) (f : Vf → Vf) (j : Nat) : (s.modVf n f).part j = s.part j := by
  simp [State.part]
@[simp] theorem State.ctx_fresh (s : State) (j : Nat) : (s.fresh).ctx j = s.ctx j := by
  simp [State.ctx]
@[simp] theorem State.core_fresh (s : State) (j : Nat) : (s.fresh).core j = s.core j := by
  simp [State.core]
@[simp] theorem State.die_fresh (s : State) (j : Nat) : (s.fresh).die j = s.die j := by
  simp [State.die]
@[simp] theorem State.part_fresh (s : State) (j : Nat) : (s.fresh).part j = s.part j := by
  simp [State.part]
@[simp] theorem State.ctx_spend (s : State) (j : Nat) : (s.spend).ctx j = s.ctx j := by
  simp [State.ctx]
@[simp] theorem State.core_spend (s : State) (j : Nat) : (s.spend).core j = s.core j := by
  simp [State.core]
@[simp] theorem State.die_spend (s : State) (j : Nat) : (s.spend).die j = s.die j := by
  simp [State.die]
@[simp] theorem State.part_spend (s : State) (j : Nat) : (s.spend).part j = s.part j := by
  simp [State.part]
@[simp] theorem State.ctx_report (s : State) (kind die : Nat) (info : List Nat) (j : Nat) : (s.report kind die info).ctx j = s.ctx j := by
  simp [State.ctx]
@[simp] theorem State.core_report (s : State) (kind die : Nat) (info : List Nat) (j : Nat) : (s.report kind die info).core j = s.core j := by
  simp [State.core]
@[simp] theorem State.die_report (s : State) (kind die : Nat) (info : List Nat) (j : Nat) : (s.report kind die info).die j = s.die j := by
  simp [State.die]
@[simp] theorem State.part_report (s : State) (kind die : Nat) (info : List Nat) (j : Nat) : (s.report kind die info).part j = s.part j := by
  simp [State.part]
@[simp] theorem State.ctx_setDieCtl (s : State) (d n : Nat) (v : W64) (j : Nat) : (s.setDieCtl d n v).ctx j = s.ctx j := by
  simp [State.ctx]
@[simp] theorem State.core_setDieCtl (s : State) (d n : Nat) (v : W64) (j : Nat) : (s.setDieCtl d n v).core j = s.core j := by
  simp [State.core]
@[simp] theorem State.part_setDieCtl (s : State) (d n : Nat) (v : W64) (j : Nat) : (s.setDieCtl d n v).part j = s.part j := by
  simp [State.part]
@[simp] theorem State.ctx_setCoreCtl (s : State) (k n : Nat) (v : W64) (j : Nat) : (s.setCoreCtl k n v).ctx j = s.ctx j := by
  simp [State.ctx]
@[simp] theorem State.die_setCoreCtl (s : State) (k n : Nat) (v : W64) (j : Nat) : (s.setCoreCtl k n v).die j = s.die j := by
  simp [State.die]
@[simp] theorem State.part_setCoreCtl (s : State) (k n : Nat) (v : W64) (j : Nat) : (s.setCoreCtl k n v).part j = s.part j := by
  simp [State.part]
@[simp] theorem State.core_setCtxCtl (s : State) (c n : Nat) (v : W64) (j : Nat) : (s.setCtxCtl c n v).core j = s.core j := by
  simp [State.core]
@[simp] theorem State.die_setCtxCtl (s : State) (c n : Nat) (v : W64) (j : Nat) : (s.setCtxCtl c n v).die j = s.die j := by
  simp [State.die]
@[simp] theorem State.part_setCtxCtl (s : State) (c n : Nat) (v : W64) (j : Nat) : (s.setCtxCtl c n v).part j = s.part j := by
  simp [State.part]
@[simp] theorem State.ctx_setModCtl (s : State) (n : Nat) (v : W64) (j : Nat) : (s.setModCtl n v).ctx j = s.ctx j := by
  simp [State.ctx]
@[simp] theorem State.core_setModCtl (s : State) (n : Nat) (v : W64) (j : Nat) : (s.setModCtl n v).core j = s.core j := by
  simp [State.core]
@[simp] theorem State.die_setModCtl (s : State) (n : Nat) (v : W64) (j : Nat) : (s.setModCtl n v).die j = s.die j := by
  simp [State.die]
@[simp] theorem State.part_setModCtl (s : State) (n : Nat) (v : W64) (j : Nat) : (s.setModCtl n v).part j = s.part j := by
  simp [State.part]
@[simp] theorem State.ctx_setPartCtl (s : State) (p n : Nat) (v : W64) (j : Nat) : (s.setPartCtl p n v).ctx j = s.ctx j := by
  simp [State.ctx]
@[simp] theorem State.core_setPartCtl (s : State) (p n : Nat) (v : W64) (j : Nat) : (s.setPartCtl p n v).core j = s.core j := by
  simp [State.core]
@[simp] theorem State.die_setPartCtl (s : State) (p n : Nat) (v : W64) (j : Nat) : (s.setPartCtl p n v).die j = s.die j := by
  simp [State.die]
@[simp] theorem State.core_setStat (s : State) (c m : Nat) (j : Nat) : (s.setStat c m).core j = s.core j := by
  simp [State.core]
@[simp] theorem State.die_setStat (s : State) (c m : Nat) (j : Nat) : (s.setStat c m).die j = s.die j := by
  simp [State.die]
@[simp] theorem State.part_setStat (s : State) (c m : Nat) (j : Nat) : (s.setStat c m).part j = s.part j := by
  simp [State.part]
@[simp] theorem State.ctx_setLb (s : State) (d a : Nat) (b : Byte) (j : Nat) : (s.setLb d a b).ctx j = s.ctx j := by
  simp [State.ctx]
@[simp] theorem State.core_setLb (s : State) (d a : Nat) (b : Byte) (j : Nat) : (s.setLb d a b).core j = s.core j := by
  simp [State.core]
@[simp] theorem State.die_setLb (s : State) (d a : Nat) (b : Byte) (j : Nat) : (s.setLb d a b).die j = s.die j := by
  simp [State.die]
@[simp] theorem State.part_setLb (s : State) (d a : Nat) (b : Byte) (j : Nat) : (s.setLb d a b).part j = s.part j := by
  simp [State.part]
@[simp] theorem State.ctx_setRg (s : State) (d g : Nat) (x : RowGroup) (j : Nat) : (s.setRg d g x).ctx j = s.ctx j := by
  simp [State.ctx]
@[simp] theorem State.core_setRg (s : State) (d g : Nat) (x : RowGroup) (j : Nat) : (s.setRg d g x).core j = s.core j := by
  simp [State.core]
@[simp] theorem State.die_setRg (s : State) (d g : Nat) (x : RowGroup) (j : Nat) : (s.setRg d g x).die j = s.die j := by
  simp [State.die]
@[simp] theorem State.part_setRg (s : State) (d g : Nat) (x : RowGroup) (j : Nat) : (s.setRg d g x).part j = s.part j := by
  simp [State.part]
@[simp] theorem State.ctx_setMb (s : State) (key : Nat) (b : Byte) (j : Nat) : (s.setMb key b).ctx j = s.ctx j := by
  simp [State.ctx]
@[simp] theorem State.core_setMb (s : State) (key : Nat) (b : Byte) (j : Nat) : (s.setMb key b).core j = s.core j := by
  simp [State.core]
@[simp] theorem State.die_setMb (s : State) (key : Nat) (b : Byte) (j : Nat) : (s.setMb key b).die j = s.die j := by
  simp [State.die]
@[simp] theorem State.part_setMb (s : State) (key : Nat) (b : Byte) (j : Nat) : (s.setMb key b).part j = s.part j := by
  simp [State.part]
@[simp] theorem State.core_pendRaw (s : State) (reg lat : Nat) (p : Payload) (arr : Bool) (j : Nat) : (s.pendRaw reg lat p arr).core j = s.core j := by
  simp [State.core]
@[simp] theorem State.die_pendRaw (s : State) (reg lat : Nat) (p : Payload) (arr : Bool) (j : Nat) : (s.pendRaw reg lat p arr).die j = s.die j := by
  simp [State.die]
@[simp] theorem State.part_pendRaw (s : State) (reg lat : Nat) (p : Payload) (arr : Bool) (j : Nat) : (s.pendRaw reg lat p arr).part j = s.part j := by
  simp [State.part]
@[simp] theorem State.core_pendG (s : State) (d : Reg) (lat : Nat) (v : W64) (j : Nat) : (s.pendG d lat v).core j = s.core j := by
  simp [State.core]
@[simp] theorem State.die_pendG (s : State) (d : Reg) (lat : Nat) (v : W64) (j : Nat) : (s.pendG d lat v).die j = s.die j := by
  simp [State.die]
@[simp] theorem State.part_pendG (s : State) (d : Reg) (lat : Nat) (v : W64) (j : Nat) : (s.pendG d lat v).part j = s.part j := by
  simp [State.part]
@[simp] theorem State.core_pendV (s : State) (d : Reg) (lat : Nat) (m : BitVec 3) (f : Nat → Elem) (j : Nat) : (s.pendV d lat m f).core j = s.core j := by
  simp [State.core]
@[simp] theorem State.die_pendV (s : State) (d : Reg) (lat : Nat) (m : BitVec 3) (f : Nat → Elem) (j : Nat) : (s.pendV d lat m f).die j = s.die j := by
  simp [State.die]
@[simp] theorem State.part_pendV (s : State) (d : Reg) (lat : Nat) (m : BitVec 3) (f : Nat → Elem) (j : Nat) : (s.pendV d lat m f).part j = s.part j := by
  simp [State.part]
@[simp] theorem State.core_pendK (s : State) (d : Reg) (lat : Nat) (f : Nat → PBit) (j : Nat) : (s.pendK d lat f).core j = s.core j := by
  simp [State.core]
@[simp] theorem State.die_pendK (s : State) (d : Reg) (lat : Nat) (f : Nat → PBit) (j : Nat) : (s.pendK d lat f).die j = s.die j := by
  simp [State.die]
@[simp] theorem State.part_pendK (s : State) (d : Reg) (lat : Nat) (f : Nat → PBit) (j : Nat) : (s.pendK d lat f).part j = s.part j := by
  simp [State.part]
@[simp] theorem State.ctx_freeze (s : State) (n : Nat) (j : Nat) : (s.freeze n).ctx j = s.ctx j := by
  simp [State.ctx]
@[simp] theorem State.die_freeze (s : State) (n : Nat) (j : Nat) : (s.freeze n).die j = s.die j := by
  simp [State.die]
@[simp] theorem State.part_freeze (s : State) (n : Nat) (j : Nat) : (s.freeze n).part j = s.part j := by
  simp [State.part]

end Sys2Proof.Machine
end

