-- ==== Sys2Proof/Laws/Memory.lean ====
section
/-! SUPPORT. Laws of memory: what keeps its canonical form. -/

namespace Sys2Proof.Machine

/-- No cell of a list equals what its unlisted byte reads as. -/
def Listed (s : State) (m : List Host.Cell) : Prop :=
  ∀ e ∈ m, e.2 ≠ unlistedByte (s.die (e.1 / 2 ^ 35)).keyGen e.1

/-- The canonical form, part by part. -/
theorem Memory.wf_iff (s : State) : Memory.wf s = true ↔
    mapSorted s.mem = true ∧ Listed s s.mem ∧ mapWf 0 s.hostMem = true ∧ mapWf unlistedLocal s.loc = true ∧
      mapWf RowGroup.reset s.rgs = true ∧ mapWf 0 s.pkids = true := by
  simp only [Memory.wf, Listed, Bool.and_eq_true, List.all_eq_true, decide_eq_true_eq, and_assoc]

/-- The canonical form is of the memories and the dies' memory keys alone. -/
theorem Memory.wf_congr {s t : State} (hm : t.mem = s.mem) (hh : t.hostMem = s.hostMem) (hl : t.loc = s.loc)
    (hr : t.rgs = s.rgs) (hp : t.pkids = s.pkids) (hk : ∀ d, (t.die d).keyGen = (s.die d).keyGen)
    (h : Memory.wf s = true) : Memory.wf t = true := by
  rw [Memory.wf_iff] at h ⊢
  simpa only [Listed, hm, hh, hl, hr, hp, hk] using h

/-- The same where the dies' records stay as well. -/
theorem Memory.wf_same {s t : State} (hm : t.mem = s.mem) (hh : t.hostMem = s.hostMem) (hl : t.loc = s.loc)
    (hr : t.rgs = s.rgs) (hp : t.pkids = s.pkids) (hd : t.dies = s.dies) (h : Memory.wf s = true) : Memory.wf t = true :=
  Memory.wf_congr hm hh hl hr hp (fun d => by simp only [State.die, hd]) h

/-- A change of a die's record that leaves its memory key keeps the canonical form. -/
theorem Memory.wf_modDie (s : State) (d : Nat) (f : Die → Die) (hf : (f (s.die d)).keyGen = (s.die d).keyGen)
    (h : Memory.wf s = true) : Memory.wf (s.modDie d f) = true := by
  refine Memory.wf_congr (s := s) rfl rfl rfl rfl rfl (fun e => ?_) h
  by_cases he : e = d
  · subst he
    simpa [State.modDie, State.setDie, State.die, mapGet_mapPut_same] using hf
  · simp [State.modDie, State.setDie, State.die, mapGet_mapPut_ne _ _ _ _ _ he]

/-- A change of a context's record keeps the canonical form. -/
theorem Memory.wf_modCtx (s : State) (c : Nat) (f : Ctx → Ctx) (h : Memory.wf s = true) : Memory.wf (s.modCtx c f) = true :=
  Memory.wf_same (s := s) rfl rfl rfl rfl rfl rfl h

/-- A change of a core's record keeps the canonical form. -/
theorem Memory.wf_modCore (s : State) (k : Nat) (f : Core → Core) (h : Memory.wf s = true) :
    Memory.wf (s.modCore k f) = true :=
  Memory.wf_same (s := s) rfl rfl rfl rfl rfl rfl h

/-- A change of a row group keeps the canonical form. -/
theorem Memory.wf_setRg (s : State) (d g : Nat) (x : RowGroup) (h : Memory.wf s = true) : Memory.wf (s.setRg d g x) = true := by
  rw [Memory.wf_iff] at h ⊢
  obtain ⟨h1, h2, h3, h4, h5, h6⟩ := h
  exact ⟨h1, h2, h3, h4, mapWf_mapSet _ _ _ _ h5, h6⟩

/-- A byte written to local memory keeps the canonical form. -/
theorem Memory.wf_setLb (s : State) (d a : Nat) (b : Byte) (h : Memory.wf s = true) : Memory.wf (s.setLb d a b) = true := by
  rw [Memory.wf_iff] at h ⊢
  obtain ⟨h1, h2, h3, h4, h5, h6⟩ := h
  exact ⟨h1, h2, h3, mapWf_mapSet _ _ _ _ h4, h5, h6⟩

/-- One cell stored in device memory keeps it in the canonical form. -/
theorem cellPut_listed (s : State) (m : List Host.Cell) (p : Nat) (b : Byte) (h : mapSorted m = true ∧ Listed s m) :
    mapSorted (s.cellPut m p b) = true ∧ Listed s (s.cellPut m p b) := by
  refine ⟨mapSorted_mapSet _ _ _ _ h.1, ?_⟩
  let q : Nat × Byte → Bool := fun e => decide (e.2 ≠ unlistedByte (s.die (e.1 / 2 ^ 35)).keyGen e.1)
  have hq : m.all q = true := List.all_eq_true.mpr (fun e he => decide_eq_true (h.2 e he))
  have ha : (s.cellPut m p b).all q = true := by
    unfold State.cellPut mapSet
    split
    · exact mapDel_all q m p hq
    · rename_i hb
      exact mapPut_all q m p b (decide_eq_true hb) hq
  exact fun e he => of_decide_eq_true (List.all_eq_true.mp ha e he)

/-- A granule encrypted again under another key keeps the canonical form (R439). -/
theorem reencrypt_listed (s : State) (g base : Nat) (m : List Host.Cell) (h : mapSorted m = true ∧ Listed s m) :
    ∀ n, mapSorted ((List.range n).foldl (fun m i => s.cellPut m (g + i) (s.mb (base + i))) m) = true ∧
      Listed s ((List.range n).foldl (fun m i => s.cellPut m (g + i) (s.mb (base + i))) m)
  | 0 => h
  | n + 1 => by
    rw [List.range_succ, List.foldl_append]
    exact cellPut_listed s _ _ _ (reencrypt_listed s g base m h n)

/-- A byte written behind a port or to the host keeps the canonical form. -/
theorem Memory.wf_setMb (s : State) (k : Nat) (b : Byte) (h : Memory.wf s = true) : Memory.wf (s.setMb k b) = true := by
  rw [Memory.wf_iff] at h ⊢
  obtain ⟨h1, h2, h3, h4, h5, h6⟩ := h
  unfold State.setMb
  split
  · exact ⟨h1, h2, mapWf_mapSet _ _ _ _ h3, h4, h5, h6⟩
  · have hm : mapSorted (s.memPut k b) = true ∧ Listed s (s.memPut k b) := by
      refine cellPut_listed s _ _ _ ?_
      split
      · exact ⟨h1, h2⟩
      · exact reencrypt_listed s _ _ _ ⟨h1, h2⟩ 32
    exact ⟨hm.1, hm.2, h3, h4, h5, mapWf_mapSet _ _ _ _ h6⟩

/-- A pending write changes the issuing context and the issue order alone. -/
theorem pendRaw_wf (s : State) (reg lat : Nat) (p : Payload) (arrived : Bool) (h : Memory.wf s = true) :
    Memory.wf (s.pendRaw reg lat p arrived) = true :=
  Memory.wf_same (s := s) rfl rfl rfl rfl rfl rfl h

/-- A scalar result keeps the canonical form. -/
theorem pendG_wf (s : State) (d : Reg) (lat : Nat) (v : W64) (h : Memory.wf s = true) : Memory.wf (s.pendG d lat v) = true := by
  unfold State.pendG
  split
  · exact h
  · exact pendRaw_wf s _ _ _ _ h

/-- A scalar result is pending in its context, at its latency, or is discarded where it names g0 (R181). -/
theorem pendG_pend (s : State) (d : Reg) (lat : Nat) (v : W64) (hd : d ≠ 0) :
    ((s.pendG d lat v).ctx s.iss.ctx).pend = s.cx.pend ++
      [⟨s.iss.cycle + lat, s.seq, s.iss.slot, d.toNat, s.iss.pc, .scalar v, true⟩] := by
  rw [State.pendG, if_neg hd]
  simp [State.pendRaw, State.fresh, State.modCtx, State.setCtx, State.ctx, State.cx, mapGet_mapPut_same]

/-- A result to g0 changes nothing. -/
@[simp] theorem pendG_g0 (s : State) (lat : Nat) (v : W64) : s.pendG 0 lat v = s := by simp [State.pendG]

end Sys2Proof.Machine
end

