-- ==== Sys2Proof/Tests/Slice0.lean ====
section
/-! SUPPORT. Tests: words written out from the encodings of the manual, ill-formed terms that the checks refuse, a state for
the hypotheses of each statement of Certificates, and small tests of the meanings. -/

namespace Sys2Proof.Tests

open Sys2Proof Sys2Proof.Machine

/-! Helpers. -/

/-- Core 0 of die 0 runs context 0, whose registers g1, g2, … hold some values. -/
def run (g : List W64) : State :=
  { State.reset with
    ctxs := [(0, { Ctx.reset with phase := .ready, tid := 7, g := g.zipIdx.map (fun p => (p.2 + 1, p.1)) })]
    cores := [(0, { Core.reset with running := some 0 })] }

/-- The same with another record of the context. -/
def runWith (g : List W64) (f : Ctx → Ctx) : State := (run g).modCtx 0 f

/-- The same, at a bundle of an address. -/
def runAt (pc : Nat) (g : List W64) : State := { run g with iss := { Issue.reset with pc := pc } }

/-- The same with some row groups of die 0 valid. -/
def runRg (g : List W64) (gs : List Nat) : State :=
  { run g with rgs := gs.map (fun x => (x, ⟨true, 0, 0, false, false⟩)) }

/-- A state in which an event is in hand. -/
def evState (e : EvArg) (s : State) : State := { s with ev := e }

/-- A slot decodes to an instruction. -/
def okIs (r : Except Reject Instr) (i : Instr) : Bool :=
  match r with
  | .ok j => decide (j = i)
  | .error _ => false

/-- An instruction answers no next state other than one that meets a test. -/
def nextIs (r : Result) (p : State → Bool) : Bool :=
  match r with
  | .next t => p t
  | _ => false

/-- A table with records at 0 to n − 1. -/
def fullRecords (n : Nat) : Table ContRec := (List.range n).foldl (fun t i => mapPut t i ⟨1, 1, none, 0, 0, 0, 0, 0, 0⟩) []

theorem fullRecords_find (n i : Nat) (h : i < n) : (mapFind (fullRecords n) i).isSome = true := by
  induction n with
  | zero => omega
  | succ n ih =>
    have hs : fullRecords (n + 1) = mapPut (fullRecords n) n ⟨1, 1, none, 0, 0, 0, 0, 0, 0⟩ := by
      simp [fullRecords, List.range_succ, List.foldl_append]
    rw [hs]
    by_cases hi : i = n
    · subst hi; rw [mapFind_mapPut_same]; rfl
    · rw [mapFind_mapPut_ne _ _ _ _ hi]; exact ih (by omega)

/-- A state in which n continuation records of die 0 are in use. -/
def withRecords (n : Nat) : State := { run [] with dies := [(0, { Die.reset with records := fullRecords n })] }

theorem freeRecord_full (n : Nat) (hn : 16384 ≤ n) : (withRecords n).freeRecord 0 = none := by
  refine List.find?_eq_none.mpr (fun i hi => ?_)
  have := fullRecords_find n i (Nat.lt_of_lt_of_le (List.mem_range.mp hi) hn)
  rw [show ((withRecords n).die 0).records = fullRecords n from rfl]
  cases hx : mapFind (fullRecords n) i with
  | none => simp [hx] at this
  | some x => simp

set_option maxRecDepth 8000
set_option Elab.async false

/-! Words written out from the encodings of the manual (R18, R19, R27 to R44; Tables 2-2 to 2-9). -/

theorem test_decode_add : decodeSlot 0 0b0000_000101_000100_000011_00000001#30 none = .ok (.add 3 4 5) := rfl
theorem test_decode_addi_minus_one :
    decodeSlot 1 0b1111111111_000111_000111_00000011#30 none = .ok (.addi 7 7 ⟨0x3FF, none⟩) := rfl
theorem test_decode_sel : decodeSlot 0 0b0110_000101_000100_000011_00100000#30 none = .ok (.sel 3 4 5 6) := rfl
theorem test_decode_ldi : decodeSlot 0 0b0000000000000101_000011_00100001#30 none = .ok (.ldi 3 ⟨5, none⟩) := rfl
theorem test_decode_mfc : decodeSlot 0 0b0001000000_000000_000101_01100011#30 none = .ok (.mfc 5 ⟨0x40, none⟩) := rfl
theorem test_decode_lbrk : decodeSlot 0 0b0000_000000_000100_000000_01001000#30 none = .ok (.lbrk 4) := rfl
theorem test_decode_vfma : decodeSlot 2 0b1_010_000101_000100_000011_00000100#30 none = .ok (.vfma 3 4 5 true 2) := rfl
theorem test_decode_vcmp : decodeSlot 3 0b0_010_000101_000100_000011_00001011#30 none = .ok (.vcmpF 3 4 5 2) := rfl
theorem test_decode_vmovi_literal :
    okIs (decodeSlot 4 0b0000000000000010_000010_10000010#30 (some 0x00003F80#30)) (.vmoviW 2 2 0x00003F80#30) = true := by
  decide +kernel
theorem test_decode_mma : decodeSlot 5 0b0000_000110_000101_000000_01000010#30 none = .ok (.mma 0 5 6) := rfl
theorem test_decode_aadd :
    decodeSlot 6 0b011_01_00110_000101_000100_00110000#30 none = .ok (.aaddW 4 5 6 1 3) := rfl
theorem test_decode_fence : decodeSlot 7 0b011_10_00000_000000_000000_01010000#30 none = .ok (.fence 2 3) := rfl
theorem test_decode_priv_mtc :
    decodeSlot 6 0b0100000000_000100_000000_10110001#30 none = .ok (.privMtc ⟨0x100, none⟩ 4) := rfl
theorem test_decode_unassigned : decodeSlot 0 0b0000_000000_000000_000000_11111111#30 none = .error .unassigned := rfl
theorem test_decode_unused_field : decodeSlot 0 0b0001_000101_000100_000011_00000001#30 none = .error .unusedField := rfl

/-! Ill-formed terms, one for each check (R24, R27, R29, R31 to R41, R172, R193, R205, R227, R228, R230, R237, R276, R316). -/

theorem test_wf_pred : (Instr.kand 16 0 0).wf = false := by decide
theorem test_wf_tile : (Instr.mzero 8).wf = false := by decide
theorem test_wf_queue : (Instr.subClose 55).wf = false := by decide
theorem test_wf_even : (Instr.fshr 1 3 0).wf = false := by decide
theorem test_wf_packet : (Instr.cpy 1 0).wf = false ∧ (Instr.cpy 1 12).wf = false := by decide
theorem test_wf_mask_queue : (Instr.vmov 56 1 1).wf = false := by decide
theorem test_wf_range : (Instr.sari 1 1 ⟨64, none⟩).wf = false ∧ (Instr.sari 1 1 ⟨0x3FF, none⟩).wf = false := by decide +kernel
theorem test_wf_scope : (Instr.aaddW 1 1 1 0 6).wf = false := by decide
theorem test_wf_order : (Instr.fence 0 1).wf = false ∧ (Instr.cntAdd 1 1 1 1).wf = false ∧ (Instr.cntWait 1 2 1).wf = false := by
  decide
theorem test_wf_branch : (Instr.bCond 7 0 ⟨0, none⟩).wf = false ∧ (Instr.bCond 6 1 ⟨0, none⟩).wf = false := by decide
theorem test_wf_loop_end : (Instr.loop 1 0).wf = false := by decide
theorem test_wf_loop_level : (Instr.lidx 1 ⟨6, none⟩).wf = false := by decide +kernel
theorem test_wf_control : (Instr.mfc 1 ⟨0, some 1⟩).wf = false := by decide +kernel
theorem test_wf_detail : (Instr.trap ⟨0, some 1⟩).wf = false := by decide +kernel
theorem test_wf_conversion : (Instr.vcvt 1 1 ⟨8, none⟩).wf = false ∧ (Instr.vcvt 1 1 ⟨16, none⟩).wf = false := by decide +kernel
theorem test_wf_exit : (Instr.vro 1 1 ⟨0, none⟩).wf = false ∧ (Instr.vfin 1 1 ⟨11, none⟩).wf = false ∧
    (Instr.vfin 1 1 ⟨80, none⟩).wf = false := by decide +kernel
theorem test_wf_group_move : (Instr.xgMov 1 1 ⟨768, none⟩).wf = false ∧ (Instr.xgMov 1 1 ⟨8, none⟩).wf = false := by
  decide +kernel
theorem test_wf_shape : (Instr.mshape 0 ⟨0x800, none⟩).wf = false ∧ (Instr.mshape 0 ⟨0x8001, none⟩).wf = false := by
  decide +kernel
theorem test_wf_vmovi : (Instr.vmoviW 1 0 0x10000#30).wf = false ∧ (Instr.vmoviW 1 0xFFFF 0xFFFF#30).wf = true := by decide +kernel
theorem test_wf_base_pair : (Instr.vldStr 1 63 ⟨0, none⟩).wf = false := by decide
theorem test_wf_vset_queue : (Instr.vset 56 1 ⟨0, none⟩).wf = false := by decide +kernel
theorem test_wf_vfshr_pair : (Instr.vfshr 1 55 ⟨0, none⟩).wf = false := by decide +kernel
theorem test_wf_reduction : (Instr.vred 1 1 ⟨16, none⟩).wf = false ∧ (Instr.vscan 1 1 ⟨32, none⟩).wf = false := by decide +kernel
theorem test_wf_class : (Instr.ltClass 8 1 1).wf = false := by decide
theorem test_slot_four : (Instr.vmulF 1 1 1 false 0).slotOk 4 = false ∧ (Instr.vaddF 1 1 1 false 0).slotOk 4 = true := by decide

/-! States for the hypotheses of the statements, clause by clause. -/

theorem wit_DecodeOfEncode :
    encode (.addi 3 4 ⟨5, some 1⟩) = some ⟨.s, 0b0000000101_000100_000011_00000011#30, some 1⟩ ∧
      (Instr.addi 3 4 ⟨5, some 1⟩).wf = true ∧ slotClass 1 = .s ∧ (Instr.addi 3 4 ⟨5, some 1⟩).slotOk 1 = true := by
  refine ⟨rfl, by decide, rfl, by decide⟩

/-- A bundle whose slot `i` holds a word alone. -/
def bundleWith (i : Nat) (w : BitVec 30) : BitVec 256 := oneSlotBundle i ⟨slotClass i, w, none⟩

theorem wit_PrivilegedOpcodes :
    isOp (bundleWith 6 0x100100B1#30) 6 = true ∧ slotFault (bundleWith 6 0x100100B1#30) false 6 = some 0x03 ∧
    isOp (bundleWith 0 0x00510301#30) 0 = true ∧ slotFault (bundleWith 0 0x00510301#30) false 0 = none ∧
    slotFault (bundleWith 6 0x100101B1#30) true 6 = some 0x02 ∧ slotFault (bundleWith 6 0x100101B1#30) false 6 = some 0x03 := by
  decide +kernel

/-- The state a gate goes on with. -/
def goState {α : Type} : Gate α → State
  | .go s _ => s
  | .wait s => s

/-- The operations a gate goes on with. -/
def goRuns : Gate (BitVec 256 × List SlotRun) → List (Nat × Instr)
  | .go _ p => p.2.map (fun r => (r.slot, r.instr))
  | .wait _ => []

/-- A gate that goes on with one operation. -/
theorem one_of (g : Gate (BitVec 256 × List SlotRun)) {n : Nat} {i : Instr} (h : goRuns g = [(n, i)]) :
    ∃ x r, g = .go (goState g) (x, [r]) ∧ r.slot = n ∧ r.instr = i := by
  cases g with
  | wait t => cases h
  | go s1 p =>
    have hm : p.2.map (fun r => (r.slot, r.instr)) = [(n, i)] := h
    obtain ⟨r, hr, e⟩ := List.map_eq_singleton_iff.mp hm
    refine ⟨p.1, r, ?_, congrArg Prod.fst e, congrArg Prod.snd e⟩
    rw [← hr]
    rfl

/-- The gates before an issue that go on with one operation. -/
theorem go_one {s : State} {k c n : Nat} {i : Instr} (h : goRuns (s.gates k c) = [(n, i)]) :
    ∃ x o, s.gates k c = .go (goState (s.gates k c)) (x, [⟨n, i, o⟩]) ∧ slotOp i = some o := by
  obtain ⟨x, r, hg, hs, hi⟩ := one_of _ h
  have ho := gates_op hg r (List.mem_singleton.mpr rfl)
  refine ⟨x, r.op, ?_, hi ▸ ho⟩
  rw [← hs, ← hi]
  exact hg

/-- Reset with a bundle that holds a word in slot 0. -/
def put (w : BitVec 30) : State := State.reset.withFetchWord 256 (bundleWith 0 w).toNat

/-- What an ADD asks of a state: nothing. -/
theorem add_ready (d a b : Reg) (s : State) : (opAdd d a b).before s = none ∧ (opAdd d a b).hold s = false ∧
    (opAdd d a b).empty s = false ∧ Served s (opAdd d a b).pops s ∧ (opAdd d a b).check s = (s, none) ∧
    (opAdd d a b).phase ≤ 3 := ⟨rfl, rfl, rfl, ⟨rfl, rfl⟩, rfl, Nat.zero_le 3⟩

/-- Reset with an ADD, as core 0 is about to issue it. -/
def adding : State := (put 0x00510301#30).pick.1
/-- The same once the gates before an issue have let it pass. -/
def added : State := goState ((adding.modCore 0 (fun z => { z with next := adding.now })).gates 0 0)

theorem wit_StepRunsDecodedInstruction :
    ∃ (x : BitVec 256) (o : SlotOp),
      (put 0x00510301#30).pick = (adding, .issueBundle) ∧ adding.ev = .n 0 0 0 ∧ (adding.core 0).running = some 0 ∧
      (adding.ctx (0 * 4 + 0)).phase = .ready ∧ (adding.core 0).retention = false ∧ (adding.core 0).next ≤ adding.now ∧
      adding.dieRuns (0 / 64) = true ∧ (adding.modCore 0 (fun z => { z with next := adding.now })).touchWait 0 = none ∧
      (adding.modCore 0 (fun z => { z with next := adding.now })).gates 0 (0 * 4 + 0) = .go added (x, [⟨0, .add 3 4 5, o⟩]) ∧
      slotOp (.add 3 4 5) = some o ∧ o.before (added.atSlot 0) = none ∧ o.hold (added.atSlot 0) = false ∧
      o.empty (added.atSlot 0) = false ∧ Popped (added.atSlot 0) o.pops (added.atSlot 0) ∧ (added.atSlot 0).iss.slot = 0 ∧
      o.check (added.atSlot 0) = (added.atSlot 0, none) ∧ added.refreshWait (0 * 4 + 0) [⟨0, .add 3 4 5, o⟩] = none ∧
      added.replayOf (0 * 4 + 0) = none ∧ (added.atSlot 0).replayOf (0 * 4 + 0) = none ∧ o.phase ≤ 3 := by
  obtain ⟨x, o, hg, ho⟩ := go_one (s := adding.modCore 0 (fun z => { z with next := adding.now })) (k := 0) (c := 0) (n := 0)
    (i := .add 3 4 5) (by decide +kernel)
  have h : o = opAdd 3 4 5 := Option.some.inj (ho.symm.trans rfl)
  subst h
  obtain ⟨h1, h2, h3, h4, h5, h6⟩ := add_ready 3 4 5 (added.atSlot 0)
  have hp : (put 0x00510301#30).pick.2 = .issueBundle := by decide +kernel
  exact ⟨x, opAdd 3 4 5, Prod.ext rfl hp, by decide +kernel, by decide +kernel, by decide +kernel, by decide +kernel,
    by decide +kernel, by decide +kernel, by decide +kernel, hg, ho, h1, h2, h3, h4.1, rfl, h5, by decide +kernel, by decide +kernel,
    by decide +kernel, h6⟩

theorem wit_StepRunsDecodedInstruction_last :
    goRuns (((put 0x00000067#30).pick.1.modCore 0 (fun z => { z with next := (put 0x00000067#30).pick.1.now })).gates 0 0) =
      [(0, .yield)] ∧ opYield.phase = 4 := by
  decide +kernel

theorem wit_SlotOperationsCompleteOrStop :
    (slotOp (.add 1 2 3) = some (opAdd 1 2 3) ∧ (opAdd 1 2 3).before (run []) = none ∧ (opAdd 1 2 3).hold (run []) = false ∧
      (opAdd 1 2 3).empty (run []) = false ∧ Served (run []) (opAdd 1 2 3).pops (run []) ∧
      (opAdd 1 2 3).check (run []) = (run [], none)) ∧
    slotOp (.jmpr 1) = some (opJmpr 1) ∧ (opJmpr 1).before (run [4]) = none ∧ (opJmpr 1).hold (run [4]) = false ∧
      (opJmpr 1).empty (run [4]) = false ∧ Served (run [4]) (opJmpr 1).pops (run [4]) ∧
      ((opJmpr 1).check (run [4])).2 = some (Stop.of 0x05) :=
  ⟨⟨rfl, rfl, rfl, rfl, ⟨rfl, rfl⟩, rfl⟩, rfl, rfl, rfl, rfl, ⟨rfl, rfl⟩, by decide +kernel⟩

theorem wit_ScalarImmediateResults : (Instr.shli 1 2 ⟨63, none⟩).wf = true ∧ (Instr.shri 1 2 ⟨0, none⟩).wf = true ∧
    (Instr.sari 1 2 ⟨0, some 0⟩).wf = true := by decide +kernel

theorem wit_ScalarBitResults : (Instr.fshr 1 2 3).wf = true ∧ (Instr.fshri 1 62 ⟨127, none⟩).wf = true := by decide +kernel

theorem wit_FieldExtraction : min (bits ((run [0, 0x4000#64]).g 2) 14 8) 64 = 64 ∧ bits ((run [0, 0x13F#64]).g 2) 5 0 = 63 ∧
    min (bits ((run [0, 0x3F#64]).g 2) 14 8) 64 = 0 ∧ (0x1000327#30).extractLsb' 26 4 = (0#4) ∧
    fOp 0x04510327#30 = 0x27 ∧ (0x04510327#30).extractLsb' 26 4 ≠ 0#4 := by decide +kernel

theorem wit_Transfers : (run [0]).g 1 = 0 ∧ ¬ ((run [1]).g 1 = 0) ∧ ((run [0xFFFFFFFFFFFFE0#64]).g 1).toNat % 32 = 0 ∧
    ((run [0xFFFFFFFFFFFFE0#64]).g 1).toNat < 2 ^ 56 ∧ ((run [31]).g 1).toNat % 32 ≠ 0 ∧
    ((run [0x100000000000000#64]).g 1).toNat % 32 = 0 ∧ 2 ^ 56 ≤ ((run [0x100000000000000#64]).g 1).toNat := by
  decide +kernel

theorem wit_TransfersPointsAndSuspensions : (run []).cx.phase = .ready := by decide +kernel

/-- A loop entry that begins at 32 and whose last bundle is the n-th after. -/
def entry (n count : Nat) : LoopEntry := ⟨n, 32, count, 0⟩

/-- A context with a loop stack, at a bundle of an address. -/
def runLoop (pc : Nat) (g : List W64) (l : List LoopEntry) : State := (runAt pc g).modCtx 0 (fun x => { x with loops := l })

theorem wit_LoopStarts :
    ((run [0]).g 1).toInt ≤ 0 ∧ 0 < ((run [1]).g 1).toInt ∧ 6 ≤ (runLoop 0 [1] (List.replicate 6 (entry 1 2))).cx.loops.length ∧
    (runLoop 32 [1] [entry 1 2]).cx.loops.length < 6 ∧
    (runLoop (entry 1 2).lastAddr [1] [entry 1 2]).iss.pc = (entry 1 2).lastAddr ∧
    (runLoop 32 [1] [entry 4 2]).iss.pc ≠ (entry 4 2).lastAddr ∧
    (entry 4 2).lastAddr < (runLoop 32 [1] [entry 4 2]).iss.pc + 32 * (4 : Nat) + 32 ∧
    (runLoop 32 [1] [entry 4 2]).iss.pc + 32 * 2 ≤ (entry 4 2).lastAddr ∧ (runLoop 32 [1] []).cx.loops = [] := by
  decide +kernel

theorem wit_LoopStarts_crossing :
    (runLoop 32 [1] [entry 2 2]).cx.loops = [entry 2 2] ∧ (runLoop 32 [1] [entry 2 2]).iss.pc ≠ (entry 2 2).lastAddr ∧
    (entry 2 2).lastAddr < (runLoop 32 [1] [entry 2 2]).iss.pc + 32 * (4095 : Nat) := by
  decide +kernel

theorem wit_LoopEnds : (0 : Nat) ≠ (entry 1 2).lastAddr ∧ (entry 1 2).index + 1 < (entry 1 2).count ∧
    (entry 1 1).count ≤ (entry 1 1).index + 1 := by decide +kernel

theorem wit_LoopIndex : Imm10.int ⟨5, none⟩ = 5 ∧ 5 < (runLoop 0 [] (List.replicate 6 (entry 1 2))).cx.loops.length ∧
    (runLoop 0 [] []).cx.loops.length ≤ 0 ∧ fOp 0x00600347#30 = 0x47 ∧ (0x00600347#30).extractLsb' 14 6 = 0#6 ∧
    5 < Imm10.int ⟨(0x00600347#30).extractLsb' 20 10, none⟩ ∧ Imm10.int ⟨(0x3FF00347#30).extractLsb' 20 10, none⟩ < 0 ∧
    (0x00004347#30).extractLsb' 14 6 ≠ 0#6 := by decide +kernel

theorem wit_ContextReads : (ctlScope (Imm10.raw ⟨0x358, none⟩)).isSome = true ∧
    (ctlScope (Imm10.raw ⟨0x3FF, none⟩)).isSome = false := by decide +kernel

theorem wit_ContextWrites :
    fmtOk ((run [0]).g 1) = true ∧ fmtOk ((run [0xFFFFFFFFFFFFFFFF#64]).g 1) = false ∧ clkdivOk ((run [0x606]).g 1) = true ∧
    clkdivOk ((run [0]).g 1) = false ∧ mtcCheck 0x068 1 (run [2]) = none ∧ mtcCheck 0x088 1 (run [4]) = some (Stop.of 0x04) ∧
    (runWith [0, 0x11] (fun x => { x with priv := true })).cx.priv = true ∧ (run []).cx.priv = false ∧
    bits ((run [0, 0x11]).g 2) 3 0 = 1 ∧ bits ((run [0, 0x11]).g 2) 6 4 ∈ [1, 3, 4] ∧ bits ((run [0, 0x11]).g 2) 63 7 = 0 ∧
    bits ((run [0, 0x40]).g 2) 3 0 = 0 ∧ bits ((run [0, 0x40]).g 1) 63 56 = 0 ∧ bits ((run [0, 0x40]).g 2) 6 4 ∈ [1, 3, 4] := by
  decide +kernel

theorem wit_ContextEnds : (run [0, 1]).cx.phase = .ready ∧ ((run [0, 1]).g 1).toNat ≤ (run [0, 1]).tstamp ∧
    (run [0, 1]).tstamp < ((run [0, 1]).g 2).toNat ∧ (∀ w ∈ (run []).cx.pend, w.land ≤ (run []).iss.cycle) ∧
    bit ((run []).ctxCtl 0 0x088) 63 = false ∧
    bit (((run []).setCtxCtl 0 0x088 (0x8000000000000000#64)).ctxCtl 0 0x088) 63 = true := by decide +kernel

theorem wit_LoopBreak : (run [0]).g 1 = 0 ∧ (run [1]).g 1 ≠ 0 ∧ (run [1]).cx.loops = [] ∧
    (runLoop 0 [1] [entry 1 2]).cx.loops = [entry 1 2] := by decide +kernel

/-! Vector sources that are registers serve nothing; one that is a queue takes the head of its ring. -/

theorem wit_Served_registers : Served (run []) [1, 2, 3] (run []) ∧ Served (run []) [1, 2] (run []) ∧ Served (run []) [54, 55] (run []) ∧
    Served (run []) [1] (run []) := ⟨⟨rfl, rfl⟩, ⟨rfl, rfl⟩, ⟨rfl, rfl⟩, rfl, rfl⟩

/-- A context whose q0 is a FIFO of one slot that is full. -/
def runQueue : State := (runRg [] [0]).modCtx 0 (fun x => x.setQueue 0
  ⟨BitVec.ofNat 64 (2 ^ 54 + 2 ^ 32), 0, 1, false, 0, none, 0⟩)

theorem wit_Served_queue : ∃ s1, Served runQueue [56] s1 ∧ (s1.cx.queue 0).count = 0 := by
  refine ⟨(runQueue.popSlot runQueue.iss.slot (queueNums [56])).1, ?_, by decide +kernel⟩
  have h : (runQueue.popSlot runQueue.iss.slot (queueNums [56])).2 = (.go, none) := by decide +kernel
  exact ⟨Prod.ext rfl h, by decide +kernel⟩

/-- The same, its slot uncorrectable. -/
def spoiltQueue : State := runQueue.setRg 0 0 ⟨true, 0, 0, false, true⟩

theorem wit_Popped_spoilt : ∃ s1, Popped spoiltQueue [56] s1 ∧ s1.iss.slot * 8 + 0 ∈ s1.iss.spoilt ∧ queueNums [56] = [0] ∧
    (∃ w ∈ ((opVmov 1 56 0).effect s1).cx.pend, s1.seq ≤ w.seq) ∧ ((opVmov 1 56 0).effect s1).iss.slot = s1.iss.slot := by
  refine ⟨(spoiltQueue.popSlot spoiltQueue.iss.slot (queueNums [56])).1, ?_, by decide +kernel, by decide +kernel,
    by decide +kernel, by decide +kernel⟩
  have h : (spoiltQueue.popSlot spoiltQueue.iss.slot (queueNums [56])).2 = (.go, none) := by decide +kernel
  exact Prod.ext rfl h

/-- A special function of a register, and of a queue with a slot to pop; and a negative operand. -/
theorem wit_SpecialFunctionResults : (5 : Reg).toNat < 56 ∧ runQueue.popMeets ((56 : Reg).toNat - 56) = (.go, none) ∧
    (match fp32.decode 0xBF800000 with
      | .fin x => decide (x.num ≠ 0) && x.neg
      | _ => false) = true := by decide +kernel

theorem wit_ZeroSignsAndRoundings : (Ex.ofInt 0).num = 0 ∧ (Ex.ofInt 1).neg ≠ (Ex.ofInt (-1)).neg ∧
    (sumSigned true (.fin (Ex.ofInt 1)) (.fin (Ex.ofInt (-1)))).isZero = true := by decide +kernel

theorem wit_VectorSelectionResults : isNan ⟨0x7FC00000#32, false⟩ = true ∧ isNan ⟨0x7F800000#32, false⟩ = false ∧
    frank 0x80000000#32 < frank 0x00000000#32 ∧ frank 0xFF800000#32 < frank 0x7F800000#32 := by decide +kernel

theorem wit_ConversionResults : (∃ f, numFmt 1 = .float f) ∧ ∃ f, numFmt 4 = .float f := ⟨⟨_, rfl⟩, _, rfl⟩

theorem wit_ReductionResults : (run []).v 0 127 = Elem.zero ∧ ((run []).v 0 1).val ≠ 0xFFFFFFFF#32 ∧ (0 : Nat) < 128 ∧
    (∃ i, i < 1 ∧ ((run []).v 0 i).val = ((run []).v 0 1).val) := by
  refine ⟨by decide +kernel, by decide +kernel, by decide, 0, by decide, by decide +kernel⟩

/-! Local memory. -/

theorem wit_LocalLoads :
    ((run [1]).g 1).toNat % 2 ≠ 0 ∧ 2 ^ 32 ≤ ((run [0x100000000]).g 1).toNat ∧ ((run [0x100000000]).g 1).toNat % 8 = 0 ∧
    (run []).localOk 0 0x3FFFF8 8 = true ∧ (run []).localOk 0 0x10000000 1 = false ∧ (runRg [] [0]).validRange 0 504 8 = true ∧
    (runRg [] [0]).poisonedRange 0 504 8 = false ∧ (run []).validRange 0 0 1 = false ∧
    ((run []).setRg 0 0 ⟨true, 0, 0, false, true⟩).validRange 0 0 8 = true ∧
    ((run []).setRg 0 0 ⟨true, 0, 0, false, true⟩).poisonedRange 0 0 8 = true := by decide +kernel

theorem wit_LocalStores : (run [5, 0x3FFFF8]).cd = 0 ∧ ((run [5, 0x3FFFF8]).g 2).toNat = 0x3FFFF8 ∧
    (run [5, 0x3FFFF8]).localOk 0 0x3FFFF8 8 = true ∧ Memory.wf (run [5, 0x3FFFF8]) = true := by decide +kernel

theorem wit_VectorLocalLoads_row :
    (∀ j, j < 32 → (runRg [0] [0]).localOk 0 (16 * j) 16 = true ∧ regionOf (16 * j) = regionOf 0 ∧
      (runRg [0] [0]).validRange 0 (16 * j) 16 = true ∧ (runRg [0] [0]).poisonedRange 0 (16 * j) 16 = false) ∧
    (run []).validRange 0 0 16 = false ∧ (run []).localOk 0 528 528 = true := by decide +kernel

theorem wit_VectorLocalLoads_bad : (run [0x3FFFF0]).localOk 0 0x3FFFF0 16 = true ∧ (run []).localOk 0 0x400000 16 = true ∧
    regionOf 0x400000 ≠ regionOf 0x3FFFF0 ∧ ((run [8]).g 1).toNat % 16 ≠ 0 ∧ ((run [0, 24]).g (1 + 1)).toNat % 16 ≠ 0 := by
  decide +kernel

theorem wit_VectorLocalLoads_fill : (runRg [512] [1, 2]).localOk 0 512 528 = true ∧
    (runRg [512] [1, 2]).validRange 0 512 528 = true ∧ (runRg [512] [1, 2]).poisonedRange 0 512 528 = false := by
  decide +kernel

theorem wit_VectorLocalLoads_gather : Served (runRg [0] [0]) [2] (runRg [0] [0]) ∧
    ∀ l, l < 128 ∧ (runRg [0] [0]).sel 0 l = true →
      ((runRg [0] [0]).g 1 + BitVec.ofNat 64 (4 * ((runRg [0] [0]).v 2 l).val.toNat)).toNat = 0 :=
  ⟨⟨rfl, rfl⟩, fun l h => by
    have : ∀ l, l < 128 → ((runRg [0] [0]).g 1 + BitVec.ofNat 64 (4 * ((runRg [0] [0]).v 2 l).val.toNat)).toNat = 0 := by
      decide +kernel
    exact this l h.1⟩

/-- The pieces of a row store at an address. -/
def rowPieces (s : State) (src : Reg) (a : Nat) : List (Nat × List Byte) :=
  lanes.map (fun l => (a + 16 * (l / 4) + 4 * (l % 4), leBytes 4 (s.v src l).val.toNat))

theorem wit_VectorLocalStores : Served (run [512]) [3] (run [512]) ∧ Memory.wf (run [512]) = true ∧
    (∀ p ∈ rowPieces (run [512]) 3 512, p.1 + p.2.length ≤ 2 ^ 32 ∧ (run [512]).localOk 0 p.1 p.2.length = true ∧
      regionOf p.1 = regionOf (((rowPieces (run [512]) 3 512).headD (512, [])).1)) ∧ 512 % 512 = 0 :=
  ⟨⟨rfl, rfl⟩, by decide +kernel, by decide +kernel, rfl⟩

theorem wit_VectorLocalStores_scatter : Served (run [0]) [3, 4] (run [0]) ∧
    (∀ p ∈ (lanes.filter ((run [0]).sel 0)).map (fun l => ((0 : Nat), leBytes 4 ((run [0]).v 3 l).val.toNat)),
      p.1 + p.2.length ≤ 2 ^ 32 ∧ (run [0]).localOk 0 p.1 p.2.length = true) ∧
    (∀ l, l < 128 → ((run [0]).g 1 + BitVec.ofNat 64 (4 * ((run [0]).v 4 l).val.toNat)).toNat = 0) :=
  ⟨⟨rfl, rfl⟩, by decide +kernel, by decide +kernel⟩

theorem wit_VectorLocalStores_spill :
    (∀ p ∈ lanes.map (fun l => (4 * l, leBytes 4 ((run [0]).v 3 l).val.toNat)) ++
      (List.range 8).map (fun g => (512 + 2 * g, leBytes 2 0)),
      p.1 + p.2.length ≤ 2 ^ 32 ∧ (run [0]).localOk 0 p.1 p.2.length = true ∧ regionOf p.1 = regionOf 0) ∧
    ((run [0, 32]).g (1 + 1)).toNat % 16 = 0 := by decide +kernel

/-! Device memory: the first GiB of the device's virtual memory is its first physical GiB, in a page that may be read,
written and executed and whose A and D are set; on the cached path, or, with bit 7 of the leaf, on the direct path. -/

/-- A root, one table and one GiB leaf. -/
def mapped (leaf : Nat) (g : List W64) : State :=
  { run g with
    mem := [(0, 1), (3, 16), (2 ^ 35, 1), (2 ^ 35 + 3, 32), (2 ^ 36, BitVec.ofNat 8 leaf), (2 ^ 36 + 1, 3)]
    dies := [(0, { Die.reset with ctl := [(0x100, 0x10#64)] })] }

/-- The state after a span, and the places it found. -/
def spanned (s : State) (va n : Nat) (a : Acc) : State := (s.span s.cd (some s.ck) va n a).1
/-- The places of a span. -/
def placesOf (s : State) (va n : Nat) (a : Acc) : List Nat :=
  match (s.span s.cd (some s.ck) va n a).2 with
  | .ok ks _ => ks
  | .bad _ _ _ => []

theorem wit_GlobalLoads_cached :
    (mapped 31 [0x3000]).span 0 (some 0) 0x3000 512 .read =
      (spanned (mapped 31 [0x3000]) 0x3000 512 .read, .ok (placesOf (mapped 31 [0x3000]) 0x3000 512 .read) 0x31F) ∧
    (placesOf (mapped 31 [0x3000]) 0x3000 512 .read).length = 512 ∧ leafDirect 0x31F = false ∧
    (let s1 := spanned (mapped 31 [0x3000]) 0x3000 512 .read
     s1.g 1 = 0x3000 ∧ s1.iss = (mapped 31 [0x3000]).iss ∧ s1.span 0 (some 0) 0x3000 512 .read =
      (s1, .ok (placesOf (mapped 31 [0x3000]) 0x3000 512 .read) 0x31F) ∧
     ((s1.pendRaw 2 40 (.await true) false).follows (placesOf (mapped 31 [0x3000]) 0x3000 512 .read) true none
      (s1.isSo 0x3000 512 .read) false).2 = [] ∧
     s1.uncorr (placesOf (mapped 31 [0x3000]) 0x3000 512 .read) = false) := by decide +kernel

/-- A state with accesses of context 0 that are not performed yet: a store of the byte at 0x3000 of the mapped memory as number 3. -/
def late (s : State) : State := { s with lateOps := [⟨3, 0, [], .store [3 * 2 ^ 35] [1]⟩], iss := { s.iss with base := 5 }, seq := 5 }

theorem wit_accesses_follow : (late (mapped 31 [0x3000])).priorOpen = [3] ∧
    ((late (mapped 31 [0x3000])).follows [3 * 2 ^ 35] true none false false).2 = [3] ∧
    ((late (mapped 31 [0x3000])).follows [0x3000] false none false true).2 = [3] ∧
    (late (mapped 31 [0x3000])).anyOpen [3] = true ∧ (late (mapped 31 [0x3000])).anyOpen [2] = false ∧
    (late (mapped 31 [0x3000])).priors [3 * 2 ^ 35] false none true false false = [3] ∧
    (mapped 31 [0x3000]).isSo 0x3000 8 .read = true := by decide +kernel

theorem wit_GlobalLoads_direct :
    (mapped 159 [0x3000]).span 0 (some 0) 0x3000 8 .read =
      (spanned (mapped 159 [0x3000]) 0x3000 8 .read, .ok (placesOf (mapped 159 [0x3000]) 0x3000 8 .read) 0x39F) ∧
    leafDirect 0x39F = true := by decide +kernel

theorem wit_GlobalLoads_fault : ((run [0x3001]).g 1).toNat % 8 ≠ 0 ∧ ((run [0x3000]).g 1).toNat % 8 = 0 ∧
    (run [0x3000]).span 0 (some 0) 0x3000 8 .read = (run [0x3000], .bad 0x3000 1 0) := by decide +kernel

theorem wit_GlobalLoads_uncorrectable :
    ({ mapped 31 [0x3000] with poison := [(3 * 2 ^ 30, true)] } : State).uncorr
      (placesOf (mapped 31 [0x3000]) 0x3000 8 .read) = true := by decide +kernel

theorem wit_GlobalStores : (mapped 31 [5, 0x3000]).span 0 (some 0) 0x3000 8 .write =
      (spanned (mapped 31 [5, 0x3000]) 0x3000 8 .write, .ok (placesOf (mapped 31 [5, 0x3000]) 0x3000 8 .write) 0x31F) ∧
    (placesOf (mapped 31 [5, 0x3000]) 0x3000 8 .write).Nodup ∧
    (let s1 := spanned (mapped 31 [5, 0x3000]) 0x3000 8 .write
     s1.g 2 = 0x3000 ∧ s1.span 0 (some 0) 0x3000 8 .write = (s1, .ok (placesOf (mapped 31 [5, 0x3000]) 0x3000 8 .write) 0x31F) ∧
     (s1.fresh.follows (placesOf (mapped 31 [5, 0x3000]) 0x3000 8 .write) false none (s1.isSo 0x3000 8 .write) true).2 = [] ∧
     Memory.wf s1 = true) ∧ Served (mapped 31 [5, 0x3000]) [] (mapped 31 [5, 0x3000]) :=
  ⟨by decide +kernel, by decide +kernel, by decide +kernel, rfl, rfl⟩

theorem wit_GlobalStores_vector : Served (mapped 31 [5, 0x3000]) [3] (mapped 31 [5, 0x3000]) ∧
    (placesOf (mapped 31 [5, 0x3000]) 0x3000 512 .write).Nodup := by
  refine ⟨⟨rfl, rfl⟩, ?_⟩
  have h : placesOf (mapped 31 [5, 0x3000]) 0x3000 512 .write = (List.range 512).map (fun i => 3 * 2 ^ 35 + i) := by
    decide +kernel
  rw [h]
  exact List.Pairwise.map _ (fun a b e h => e (by simpa using h)) List.nodup_range

theorem wit_AtomicsAtIssue : ∃ key keys,
    (mapped 31 [0x3000]).span 0 (some 0) 0x3000 8 .atomic =
      (spanned (mapped 31 [0x3000]) 0x3000 8 .atomic, .ok (key :: keys) 0x31F) ∧ homeOf key = 3 ∧
    (let t := spanned (mapped 31 [0x3000]) 0x3000 8 .atomic
     t.priors (key :: keys) false none true (t.isSo 0x3000 8 .atomic) true = [] ∧ t.g 1 = 0x3000 ∧ t.iss = (mapped 31 [0x3000]).iss ∧ t.span 0 (some 0) 0x3000 8 .atomic = (t, .ok (key :: keys) 0x31F)) :=
  ⟨3 * 2 ^ 35, (List.range 7).map (fun i => 3 * 2 ^ 35 + 1 + i), by decide +kernel⟩

/-- A die with one atomic at its engine. -/
def atomState (op size cmp : Nat) : State :=
  { runWith [] (fun x => { x with pend := [⟨40, 9, 6, 4, 0, .await false, false⟩] }) with
    ev := .n 0 0 0
    dies := [(0, { Die.reset with atomics := [⟨9, .write 0 9, op, size, 0x3000, 5, BitVec.ofNat 64 cmp, 3, 1⟩] })] }

theorem wit_AtomicEngine : ((atomState 10 8 0).die 0).atomics = [⟨9, .write 0 9, 10, 8, 0x3000, 5, 0, 3, 1⟩] ∧
    firstRequest (admitted ((atomState 10 8 0).die 0).atomics) = some ⟨9, .write 0 9, 10, 8, 0x3000, 5, 0, 3, 1⟩ ∧ homeOf 0x3000 = 0 ∧
    0x3000 + 8 ≤ hostBase ∧ Memory.wf (atomState 10 8 0) = true ∧ (atomState 10 8 0).uncorr [0x3000] = false ∧
    ({ atomState 10 8 0 with poison := [(0x180, true)] } : State).uncorr [0x3000] = true ∧
    ((atomState 10 8 0).ctx 0).pend.any (fun w => decide (w.seq = 9)) = true := by
  decide +kernel

/-- The address of a future. -/
def futEa (s : State) : W64 := s.g 2 + BitVec.ofInt 64 0

/-- What a FUT operation finds, and whether it must link there. -/
def futFound (acc : Acc) (s : State) : Option (Nat × Bool) :=
  match ((futCheck acc futEa s).1.futFind 0x3000 acc).2 with
  | .ok (key :: _, link) => some (key, link)
  | _ => none

/-- A mapped memory whose third page table leads to some bytes from 0x3000 on. -/
def futMem (cells : List Host.Cell) : State :=
  let s := mapped 31 [1, 0x3000]
  { s with mem := s.mem ++ cells }

theorem wit_Futures_empty : (∀ acc ∈ [Acc.futRead, .futWrite], (mapped 31 [1, 0x3000]).cutHolds 0 0x3000 16 = false ∧
    (mapped 31 [1, 0x3000]).earlierOn 0x3000 16 acc = [] ∧ (futCheck acc futEa (mapped 31 [1, 0x3000])).2 = none) ∧
    futFound .futRead (mapped 31 [1, 0x3000]) = some (3 * 2 ^ 35, true) ∧
    futFound .futWrite (mapped 31 [1, 0x3000]) = some (3 * 2 ^ 35, false) ∧
    futFound .futRead (futMem [(3 * 2 ^ 35, 1), (3 * 2 ^ 35 + 8, 7)]) = some (3 * 2 ^ 35, false) := by decide +kernel

theorem wit_Futures_bad : (futCheck .futRead futEa (futMem [(3 * 2 ^ 35, 4)])).2 = some (Stop.of 0x0D) ∧
    (futCheck .futRead futEa (mapped 31 [1, 0x3008])).2 = some (Stop.of 0x05) ∧
    (run [1, 0x3000]).span 0 (some 0) 0x3000 16 .futRead = (run [1, 0x3000], .bad 0x3000 1 0) ∧
    (late (futMem [])).earlierOn 0x3000 16 .futRead = [3] := by decide +kernel

/-- The request of a FUT operation whose result write 9 of context 0 awaits. -/
def futReq (op : Nat) (x : W64) : AtomicReq := ⟨9, .write 0 9, op, 16, 3 * 2 ^ 35, x, 0x3000, 0, 0⟩
/-- A state in which it is at the engine, with the bytes of the future. -/
def futAt (cells : List Host.Cell) : State :=
  (futMem cells).modCtx 0 (fun x => { x with pend := [⟨40, 9, 6, 4, 0, .state, false⟩] })

theorem wit_Futures_at_the_engine : (futReq 11 1).asker = .write 0 9 ∧
    ((futAt []).ctx 0).pend.find? (fun w => decide (w.seq = 9)) = some ⟨40, 9, 6, 4, 0, .state, false⟩ ∧
    (futAt []).uncorr ((List.range 16).map (fun i => 3 * 2 ^ 35 + i)) = false ∧ (futAt []).freeRecord 0 = some 0 ∧
    ((((futAt [(3 * 2 ^ 35, 1), (3 * 2 ^ 35 + 8, 7)]).performReq (futReq 11 0)).ctx 0).pend.map (fun w => w.payload)) = [.scalar 7] ∧
    ((((futAt []).performReq (futReq 11 1)).ctx 0).pend.map (fun w => w.payload)) = [.fut 0] ∧
    ((((futAt []).performReq (futReq 12 5)).ctx 0).pend) = [] ∧
    ((futAt []).performReq (futReq 12 5)).mb (3 * 2 ^ 35 + 8) = 5 ∧
    (((futAt [(3 * 2 ^ 35, 4)]).performReq (futReq 13 0)).ctx 0).pend.map (fun w => w.payload) =
      [.fault (Stop.of 0x0D) (some 0)] := by decide +kernel

/-- The mapped memory while a checkpoint has its first GiB still to stream. -/
def cutting (g : List W64) : State := { mapped 31 g with parts := [(64, { Partition.reset with pages := [(0, 30, 0)] })] }

theorem wit_held_by_a_checkpoint : (cutting []).cutHolds 0 0x3000 8 = true ∧ (cutting []).cutHolds 0 (2 ^ 30) 8 = false ∧
    (mapped 31 []).cutHolds 0 0x3000 512 = false := by decide +kernel

theorem wit_Futures_no_record : (withRecords 16384).freeRecord 0 = none := freeRecord_full 16384 (Nat.le_refl _)

theorem wit_Synchronisation :
    (let x := (run [0x10003]).g 1; bits x 15 4 = 0 ∧ bits x 63 32 = 0 ∧ bits x 31 16 = 1 ∧ bits x 63 18 = 0) ∧
    (let x := (run [0x3]).g 1; bits x 31 16 = 0 ∧ bits x 63 18 = 0) ∧
    (let x := (run [0x40000]).g 1; bits x 63 18 ≠ 0) ∧ (run []).phys 0 0 = some 0 ∧
    (run []).counter 0 3 = 0 ∧ ({ run [] with dies := [(0, { Die.reset with counters := [(3, 1)] })] } : State).counter 0 3 ≠ 0 ∧
    mapFind (run []).cx.arrivals (arrIdx 1 3) = none ∧ ((run []).barrier ((run []).barKey 1 3)).arrived = 0 ∧
    ((run []).barrier ((run []).barKey 1 3)).arrived + 1 = 1 ∧
    mapFind (runWith [] (fun x => { x with arrivals := [(arrIdx 1 3, 0)] })).cx.arrivals (arrIdx 1 3) = some 0 ∧
    ({ run [] with barriers := [((run []).barKey 1 3, ⟨0, 0, 1⟩)] } : State).barrier ((run []).barKey 1 3) = ⟨0, 0, 1⟩ ∧
    ({ run [] with barriers := [((run []).barKey 1 3, ⟨1, 2, 0⟩)] } : State).barrier ((run []).barKey 1 3) = ⟨1, 2, 0⟩ ∧
    bits ((run [128]).g 1) 63 56 = 0 ∧ bits ((run [0x100000000000000#64]).g 1) 63 56 ≠ 0 := by decide +kernel

/-! Engines and tasks. -/

/-- A packet that arrived at an intake. -/
def packet (ref : Nat) (ws : List W64) (ph : PktPhase) : Packet :=
  ⟨ref, ws, some 7, none, 0, 0, ph, 0, 0, 0, false, false, false, false, [], [], 0, none, none, 0, false, [], 0⟩

/-- Die 0 with a copy engine 0. -/
def withEngine (ps : List Packet) : State :=
  { run [] with dies := [(0, { Die.reset with copy := [(0, ⟨ps, [], []⟩)] })] }

theorem wit_CopyAndSpawnAtIssue :
    64 ≤ ((withEngine (List.replicate 64 (packet 1 [] .intake))).cengine 0).packets.countP (fun p => decide (p.phase = .intake)) ∧
    ¬ 64 ≤ ((withEngine (List.replicate 63 (packet 1 [] .intake))).cengine 0).packets.countP
      (fun p => decide (p.phase = .intake)) ∧
    (run []).priorOpen = [] ∧ (late (run [])).priorOpen = [3] ∧
    pktMalformed ((List.range 8).map (fun j => (run []).cx.rg (1 + j))) = false ∧
    pktMalformed ((List.range 8).map (fun j => (run [0x300]).cx.rg (1 + j))) = true ∧
    (run []).cx.spawnLand ≤ (run []).iss.cycle ∧ bits ((run [0, 0x2000]).g (1 + 1)) 63 13 ≠ 0 ∧
    bits ((run [0, 0x1FFF]).g (1 + 1)) 63 13 = 0 ∧
    (runWith [] (fun x => { x with spawnLand := 1 })).iss.cycle < (runWith [] (fun x => { x with spawnLand := 1 })).cx.spawnLand := by
  decide +kernel

/-- A stream of one slot. -/
def stream (out : Bool) (next : Nat) : Stream := ⟨0x4000, 0, 512, 1, out, false, 0, 0, 0, next, false, 0, 0, []⟩
/-- A queue of one slot of a kind: 1 FIFO, 2 IN, 3 OUT. -/
def queueOf (dir count : Nat) (closed : Bool) (st : Option Stream) : Queue :=
  ⟨BitVec.ofNat 64 (dir * 2 ^ 54 + 2 ^ 32), 0, count, closed, 0, st, 0⟩
/-- A context whose q0 is some queue. -/
def withQueue (g : List W64) (q : Queue) : State := runWith g (fun x => x.setQueue 0 q)
/-- The same in a mapped device memory. -/
def mappedQueue (mem : List Host.Cell) (g : List W64) (q : Queue) : State :=
  let s := (mapped 31 g).modCtx 0 (fun x => x.setQueue 0 q)
  { s with mem := s.mem ++ mem }

theorem wit_QueueInstructions :
    ((withQueue [0] (queueOf 2 0 false none)).cx.queue 0).stream = none ∧ bits ((run [0]).g 1) 53 44 = 0 ∧
    ((withQueue [0] (queueOf 2 0 false (some (stream false 0)))).cx.queue 0).stream.isSome = true ∧
    (bits ((run [0]).g 1) 55 54 = 0 ∧ (run [0]).g 1 = 0) ∧ (bits ((run [1]).g 1) 55 54 = 0 ∧ (run [1]).g 1 ≠ 0) ∧
    ((run [0x3001]).g 1).toNat % 64 ≠ 0 ∧ (run [0x3000]).span 0 (some 0) 0x3000 64 .read = (run [0x3000], .bad 0x3000 1 0) ∧
    (withQueue [] (queueOf 0 0 false none)).cx.queue 0 = queueOf 0 0 false none ∧
    (queueOf 0 0 false none).dir = 0 ∧ (queueOf 2 0 false none).dir = 2 ∧ (queueOf 3 1 false none).dir = 3 ∧
    (stream false 0).next < (stream false 0).total ∧ (stream false 1).total ≤ (stream false 1).next := by
  decide +kernel

theorem wit_QueueInstructions_open : ∀ c ∈ [(mappedQueue [] [0x3000] (queueOf 2 0 false none), false),
      (mappedQueue [(3 * 2 ^ 35 + 17, 2), (3 * 2 ^ 35 + 20, 1)] [0x3000] (queueOf 2 0 false none), true),
      (mappedQueue [(3 * 2 ^ 35 + 17, 2), (3 * 2 ^ 35 + 20, 1)] [0x3000] (queueOf 0 0 false none), true)],
    let s := c.1
    let s1 := spanned s 0x3000 64 .read
    let keys := placesOf s 0x3000 64 .read
    s.span 0 (some 0) 0x3000 64 .read = (s1, .ok keys 0x31F) ∧ s1.g 1 = 0x3000 ∧ s1.iss = s.iss ∧
    s1.span 0 (some 0) 0x3000 64 .read = (s1, .ok keys 0x31F) ∧ s.anyOpen (s.earlierOn 0x3000 64 .read) = false ∧
    s1.uncorr keys = false ∧ ((streamOf (s1.mbytes keys) 0 0 0).isSome) = c.2 ∧
    s1.turretFull 0 = false := by decide +kernel

/-- Four contexts of core 0, each with eight streams. -/
def manyStreams : State := [0, 1, 2, 3].foldl (fun s c => s.setCtx c ([0, 1, 2, 3, 4, 5, 6, 7].foldl (fun x q =>
  x.setQueue q (queueOf 2 0 false (some (stream false 0)))) { Ctx.reset with phase := .ready })) (run [])

theorem wit_QueueInstructions_full : manyStreams.turretFull 0 = true := by decide +kernel

theorem wit_LifetimeAndResidency :
    ((runRg [0, 512] [0]).g 1).toNat % 512 = 0 ∧ bits ((runRg [0, 512] [0]).g 1) 63 32 = 0 ∧
    ((runRg [0, 512] [0]).g 2).toNat = 512 ∧ (runRg [] [0]).localOk 0 0 512 = true ∧ Memory.wf (runRg [] [0]) = true ∧
    ((runRg [] [0]).rg 0 0).valid = true ∧ (run []).localOk 0 0x3FFE00 512 = true ∧ (run []).localOk 0 0x10000000 512 = false ∧
    ((run [0, 0x8001]).g 2).toNat % 512 ≠ 0 ∧ ((run [0, 0x400200]).g 2).toNat > 2 ^ 22 ∧
    ((runRg [] [0]).rg 0 0).rfq = false ∧ ((runRg [] [0]).rg 0 0).age < (run []).elim 0 0 ∧
    (run []).elim 0 0 < 1024 ∧ ((runRg [] [0]).rg 0 0).cls < 8 ∧ (run []).localOk 0 0x10000000 1 = false := by decide +kernel

/-- Die 0 with a Lexicon. -/
def withLexicon (l : List LexEntry) : State := { runRg [] [0] with dies := [(0, { Die.reset with lexicon := l })] }

theorem wit_LifetimeAndResidency_lexicon :
    (let z := (run [0, 0x40000100000000]).g (1 + 1); 2 ^ 22 < bits z 63 32) ∧
    (let z := (run [5, 0x20000000000]).g (1 + 1); bits z 63 32 = 512 ∧ bits z 31 0 = 0 ∧ (runRg [] [0]).localOk 0 0 512 = true) ∧
    ((run []).rg 0 0).valid = false ∧ ((runRg [] [0]).rg 0 0).valid = true ∧
    ((withLexicon [⟨0, 5, 0, 0, 512, 0⟩]).die 0).lexicon.any (fun o => decide (o.handle = 0 ∧ o.tile = 5 ∧ o.key = keyOf 0)) =
      true ∧
    ((withLexicon (List.replicate 4096 ⟨0, 6, 0, 0, 512, 0⟩)).die 0).lexicon.length = 4096 ∧
    ((withLexicon (List.replicate 4096 ⟨0, 6, 0, 0, 512, 0⟩)).die 0).lexicon.any
      (fun o => decide (o.handle = 0 ∧ o.tile = 5 ∧ o.key = keyOf 0)) = false ∧
    bits ((run [0x100000000000000]).g 1) 63 56 ≠ 0 ∧ 2 ^ 32 < bits ((run [0xFFFFFFFF, 2]).g 1) 31 0 + bits ((run [1, 2]).g 2) 31 0 ∧
    64 < ((run [0, 65]).g 2).toNat ∧ ((run [5, 64]).g 2).toNat ≤ 64 := by decide +kernel

theorem wit_LifetimeAndResidency_query :
    (let o : LexEntry := ⟨0, 5, 1, 0, 512, 0⟩
     (∀ o' ∈ ((withLexicon [o, ⟨0, 5, 2, 0, 512, 0⟩]).die 0).lexicon, o' ≠ o → o.key < o'.key) ∧
     ((withLexicon [o, ⟨0, 5, 2, 0, 512, 0⟩]).die 0).lexicon.Nodup ∧ o ∈ ((withLexicon [o, ⟨0, 5, 2, 0, 512, 0⟩]).die 0).lexicon) ∧
    ((withLexicon []).die 0).lexicon = [] := by decide +kernel

/-! Matrices. -/

/-- A context that owns the tiles of its core, with FMT. -/
def withTiles (g : List W64) (f : W64) (e : Engine) : State :=
  { runWith g (fun x => { x with fmt := f }) with
    cores := [(0, { Core.reset with running := some 0, engine := { e with owner := some 7 } })] }
/-- An engine with tile 0 of two rows and three columns. -/
def oneTile : Engine := ⟨none, [(0, ⟨2, 3, false, []⟩)], [], []⟩
/-- An operation on tile 0. -/
def matOp (opc : Nat) (held : Bool) : MatOp := ⟨3, opc, 0, 0x7F5, 0, 0x4000000000, 0, 0, held, []⟩

theorem wit_MatrixAtIssue :
    let s := withTiles [0x4000000000, 0x4000000000] 0x7F5 oneTile
    s.owns 0 = true ∧ (s.eng 0).ops.length < 4 ∧ (s.eng 0).busy 0 = false ∧ (s.eng 0).tile 1 = none ∧
    (s.eng 0).tile 0 = some ⟨2, 3, false, []⟩ ∧ (run []).owns 0 = false ∧
    ((withTiles [] 0 { oneTile with ops := [matOp 0x42 false] }).eng 0).busy 0 = true ∧
    ((withTiles [] 0 { oneTile with ops := [matOp 0x42 true] }).eng 0).held 0 = true ∧
    ((withTiles [] 0 { oneTile with ops := List.replicate 4 (matOp 0x42 false) }).eng 0).ops.length = 4 ∧
    (fmtA s.fmtNow = 5 ∧ fmtB s.fmtNow = 0xF ∧ fmtNpl s.fmtNow = 7 ∧ fmtAcc s.fmtNow = 0 ∧ aSize 5 = some 1) ∧
    (bits (s.g 1) 63 48 = 0 ∧ bits (s.g 2) 47 32 = 64 ∧ bits (s.g 1) 31 0 % 16 = 0 ∧ bits (s.g 1) 47 32 % 16 = 0 ∧
      bits (s.g 2) 31 0 % 64 = 0) ∧
    s.localOk 0 0 ((2 - 1) * 64 + 64 * 1) = true ∧ s.localOk 0 0 ((64 + 63) / 64 * 3 * (8 * (7 + 3))) = true ∧
    s.localOk 0 0x10000000 128 = false ∧ aSize (fmtA 0) = none ∧ fmtB 0x7E5 = 0xE ∧
    (∀ m, m < 8 → (s.eng 0).held m = false) := by decide +kernel

theorem wit_MatrixAtIssue_store :
    let s := withTiles [0x1000000000] 0 oneTile
    bits (s.g 1) 63 56 = 0 ∧ bit (s.g 1) 39 = false ∧ bits (s.g 1) 38 36 = 1 ∧ bits (s.g 1) 35 32 = 0 ∧ fmtAcc s.fmtNow = 0 ∧
    bits (s.g 1) 31 0 % 16 = 0 ∧ bits (s.g 1) 55 40 % 16 = 0 ∧ s.localOk 0 0 ((2 - 1) * 0 + 3 * codeSize 0) = true := by
  decide +kernel

theorem wit_TileMoves :
    let s := withTiles [] 0 oneTile
    s.owns s.iss.ctx = true ∧ (s.eng s.ck).busy 0 = false ∧ (s.eng s.ck).tile 1 = none ∧
    (s.eng s.ck).tile 0 = some ⟨2, 3, false, []⟩ ∧ (2 : Nat) ≤ (Imm10.int ⟨2, none⟩).toNat ∧ (Imm10.int ⟨1, none⟩).toNat < 2 ∧
    Served s [5] s :=
  ⟨by decide +kernel, by decide +kernel, by decide +kernel, by decide +kernel, by decide, by decide, ⟨rfl, rfl⟩⟩

theorem wit_TileMoves_event :
    let u : State := { withTiles [] 0 { oneTile with writes := [⟨4, 0, [(0, ⟨1, false⟩), (1, ⟨2, false⟩), (2, ⟨3, true⟩)]⟩] } with
      ev := .n 0 4 0 }
    u.ev = .n 0 4 0 ∧ (u.eng 0).writes = [⟨4, 0, [(0, ⟨1, false⟩), (1, ⟨2, false⟩), (2, ⟨3, true⟩)]⟩] ∧
    (u.eng 0).tile 0 = some ⟨2, 3, false, []⟩ ∧ (evState (.n 0 4 (4 + 1)) u).ev = .n 0 4 5 ∧
    ⟨4, 0, [(0, ⟨1, false⟩), (1, ⟨2, false⟩), (2, ⟨3, true⟩)]⟩ ∈ (u.eng 0).writes := by decide +kernel

/-! Stops and landings. -/

theorem wit_StopRecord : (Stop.of 0x04).code < 256 ∧ (⟨0x0C, 2 ^ 16 - 1, 7, some (0x3000, 5)⟩ : Stop).detail < 2 ^ 16 ∧
    (⟨0x0C, 2 ^ 16 - 1, 7, some (0x3000, 5)⟩ : Stop).slot < 8 ∧ ((run []).ctx 0).doneMask < 256 ∧ (255 : Nat) < 256 := by
  decide +kernel

theorem wit_RegisterFrame : (Instr.add 1 2 3).registerOnly = true ∧ slotOp (.add 1 2 3) = some (opAdd 1 2 3) ∧
    Served (run []) (opAdd 1 2 3).pops (run []) ∧ (opAdd 1 2 3).check (run []) = (run [], none) ∧
    (Instr.lldD 1 2 ⟨0, none⟩).registerOnly = true ∧ slotOp (.lldD 1 2 ⟨0, none⟩) = some (opLldD 1 2 ⟨0, none⟩) ∧
    (opLldD 1 2 ⟨0, none⟩).check (runRg [] [0]) = (runRg [] [0], none) :=
  ⟨rfl, rfl, ⟨rfl, rfl⟩, rfl, rfl, rfl, rfl⟩

/-- A context with pending writes. -/
def pending (l : List Pend) : State := { runWith [] (fun x => { x with cycles := 6, pend := l }) with ev := .n 0 0 0 }

theorem wit_ResultsLand : (pending [⟨6, 1, 0, 5, 0, .scalar 9, true⟩, ⟨7, 2, 0, 5, 0, .scalar 8, true⟩]).ev = .n 0 0 0 ∧
    ((pending []).ctx 0).phase = .ready ∧ ((pending []).core (coreOf 0)).running = some (0 % 4) ∧ ((pending []).ctx 0).cycles = 6 ∧
    ((pending [⟨6, 1, 0, 5, 0, .scalar 9, true⟩, ⟨7, 2, 0, 5, 0, .scalar 8, true⟩]).ctx 0).pend =
      [⟨6, 1, 0, 5, 0, .scalar 9, true⟩, ⟨7, 2, 0, 5, 0, .scalar 8, true⟩] ∧
    ((pending [⟨6, 1, 0, 5, 0, .scalar 9, true⟩, ⟨6, 2, 0, 5, 0, .scalar 8, true⟩]).ctx 0).pend =
      [⟨6, 1, 0, 5, 0, .scalar 9, true⟩, ⟨6, 2, 0, 5, 0, .scalar 8, true⟩] := by decide +kernel

theorem wit_MemoryReadsBack : Memory.wf (run []) = true ∧ (2 ^ 32 - 2) + ([1, 2] : List Byte).length ≤ 2 ^ 32 ∧
    Memory.wf (mapped 31 []) = true ∧ otherKey 0x3000 0x3001 = false ∧ otherKey 0x3000 (2 ^ 41 + 0x3001) = true := by
  decide +kernel

theorem wit_MemoryFormKept : Memory.wf State.reset = true := by decide +kernel

/-! Events: states that meet what each clause asks. -/

/-- Reset with an event in hand. -/
def evReset (e : EvArg) : State := evState e State.reset
/-- Every die has started. -/
def started (e : EvArg) : State :=
  { evReset e with dies := (List.range 64).map (fun d => (d, { Die.reset with ready := true })) }
/-- A request that assigns (1) or withdraws (2) the first row of dies as partition 0. -/
def rowReq (op : Nat) : BitVec 896 := BitVec.ofNat 896 (op * 2 ^ 56 + 3 * 2 ^ 48)
/-- Partition 0 of die 0, bound to function 0. -/
def bound (e : EvArg) (ts : TdispState) : State :=
  { evReset e with parts := [(0, { Partition.reset with dies := [0] })], vfs := [(0, { Vf.reset with part := some 0, tdisp := ts })] }

theorem wit_StartAndPartitionEvents_start :
    (evReset (.boot 63 ⟨none, 0, 0, 0⟩)).ev = .boot 63 ⟨none, 0, 0, 0⟩ ∧ ((evReset .none).die 63).ready = false ∧
    ((evReset .none).die 63).failCode = 0 ∧ (⟨some (1, 3), 0, 0, 0⟩ : BootOutcome).failed = some (1, 3) ∧
    (evReset (.req 0 0 false)).allReady = false ∧ (started (.req 0 0 false)).allReady = true ∧ (started (.req 0 0 false)).features = false ∧
    ({ started (.req 0 0 false) with features := true } : State).allReady = true ∧
    (0 : BitVec 896).toNat % 2 ^ 128 < 128 ∧ BitVec.ofNat 64 0 &&& ~~~((started .none).modCtl 0x230) = 0 ∧
    BitVec.ofNat 64 127 &&& ~~~((started .none).modCtl 0x230) ≠ 0 ∧ ((started .none).die 0).ready = true := by decide +kernel

theorem wit_StartAndPartitionEvents_partition :
    (let r := assignReq (rowReq 1)
     shapeDies r.shape r.x0 r.y0 = some (List.range 8) ∧ r.reserved = false ∧ r.op = 1 ∧
     (∀ d ∈ List.range 8, ((evReset (.req 0 (rowReq 1) false)).die d).part = none) ∧ mapFind (evReset .none).parts r.part = none ∧
     (evReset .none).vfsBad r = false) ∧
    (let r := assignReq (BitVec.ofNat 896 (2 ^ 56 + 7 * 2 ^ 48)); shapeDies r.shape r.x0 r.y0 = none) ∧
    (let r := assignReq (rowReq 2)
     r.reserved = false ∧ r.op = 2 ∧ (shapeDies r.shape r.x0 r.y0).isSome = true ∧
     mapFind (bound (.req 0 (rowReq 2) false) .unlocked).parts r.part = some { Partition.reset with dies := [0] } ∧
     (bound .none .unlocked).vfsBad r = false ∧ (bound .none .unlocked).refetching r.part = false ∧
     ({ bound .none .unlocked with
       dies := [(0, { Die.reset with part := some 0 })], ctxs := [(0, { Ctx.reset with phase := .waitRefetch })] } :
         State).refetching r.part = true) ∧
    (Vf.reset.closed false = false ∧ ({ Vf.reset with tdisp := .run } : Vf).closed true = true ∧
      ({ Vf.reset with tdisp := .run, ide := some 5 } : Vf).closed true = false ∧ Vf.reset.session.isSome = false ∧
      ((bound .none .run).vf 0).part = some 0) ∧
    bit ((bound .none .run).modCtl 0x232) 6 = false ∧
    bit (((bound .none .run).setModCtl 0x232 64).modCtl 0x232) 6 = true ∧ bit ((bound .none .run).partCtl 0 0x212) 0 = false ∧
    bit ((bound .none .run).partCtl 0 0x212) 1 = false ∧
    ((bound .none .unlocked).vf 0).tdisp = .unlocked ∧ ((bound .none .locked).vf 0).tdisp = .locked := by decide +kernel

/-! The host. -/

/-- Function 0 is bound to partition 0 of die 0, whose memory is mapped. -/
def hosted (e : EvArg) : State :=
  { evState e (mapped 31 []) with
    parts := [(0, { Partition.reset with dies := [0] })], vfs := [(0, { Vf.reset with part := some 0 })] }
/-- The same after a span. -/
def hostSpan (s : State) (n : Nat) (a : Acc) : State × Span := s.span 0 none 0x3000 n a
/-- The places of a span. -/
def placesIn : Span → List Nat
  | .ok ks _ => ks
  | .bad _ _ _ => []

theorem wit_HostEvents :
    let s := hosted (.host 0 0x3000 8 (zeros 8) false)
    s.barDie 0 0x3000 false = some 0 ∧ (hostSpan s 8 .read).2 = .ok (placesIn (hostSpan s 8 .read).2) 0x31F ∧
    (hostSpan s 8 .read).1.uncorr (placesIn (hostSpan s 8 .read).2) = false ∧
    (hostSpan s 8 .write).2 = .ok (placesIn (hostSpan s 8 .write).2) 0x31F ∧
    s.barDie 0 (0x4000000000 : W64) false = none ∧ (zeros 8).length = 8 ∧ s.cutHolds 0 0x3000 8 = false ∧
    512 < (zeros 513).length ∧
    ({ s with parts := [(64, { Partition.reset with pages := [(0, 30, 0)] })] } : State).cutHolds 0 0x3000 8 = true ∧
    (hostSpan s 8 .atomic).2 = .ok (placesIn (hostSpan s 8 .atomic).2) 0x31F ∧
    ((hostSpan s 8 .atomic).1.atomicAt (3 * 2 ^ 35) 8 0 1 0).2 = some 0 ∧ hostAtomicOp (.fetchAdd 8 1) = (8, 0, 1, 0) := by
  decide +kernel

theorem wit_HostEvents_controls : frozenCtl 0x110 = true ∧ (evReset .none).dieLocked 0 = false ∧
    (let s : State := { bound .none .locked with dies := [(0, { Die.reset with part := some 0 })] }; s.dieLocked 0 = true) ∧
    (ctlScope 0x170).isSome = true := by decide +kernel

/-- Die 0 serves a queue whose descriptor stands at 0x3000, with one ready slot, of a kind, at 0x3400. -/
def served (q : QueueRef) (kind : Nat) : State :=
  let s := evState (.queue q) { mapped 31 [] with mctl := [(0x1B2, 1)] }
  let b : Nat := 3 * 2 ^ 35
  let t : State := { s with mem := s.mem ++ [(b + 17, 0x34), (b + 32, 1), (b + 0x400, 1), (b + 0x401, BitVec.ofNat 8 kind)] }
  (t.modDie 0 (fun x => { x with part := some 64 })).setDieCtl 0 (queueReg q).2 (BitVec.ofNat 64 (2 ^ 63 + 0x3000))

/-- What a queue's next slot is. -/
def readySlot : SlotLook → Option Nat
  | .ready _ n _ => some n
  | _ => none

theorem wit_HostEvents_queues :
    bit ((served (.launch 0 0) 1).queueCtl (.launch 0 0)) 63 = true ∧
    readySlot ((served (.launch 0 0) 1).lookSlot (.launch 0 0)).2 = some 0 ∧
    readySlot ((served (.coll 0 0) 1).lookSlot (.coll 0 0)).2 = some 0 ∧
    readySlot ((served (.copy 0 0 0) 0).lookSlot (.copy 0 0 0)).2 = some 0 ∧
    (served (.copy 0 0 0) 0).intakeFree 0 0 = true ∧ ((served (.copy 0 0 0) 0).cengine 0).waiting = [] ∧
    (let s : State := { served (.launch 0 0) 1 with
       parts := [(0, { Partition.reset with bound := [.launch 0 0] })], vfs := [(0, { Vf.reset with part := some 0 })] }
     (s.vf 0).closed false = false ∧ s.bellQueue 0 0 = some (.launch 0 0) ∧ (s.queueCtl (.launch 0 0)).getLsbD 63 = true) := by
  decide +kernel

/-! Engines. -/

/-- A request of core 0 to the port of die 0. -/
def req (st : Option (List Byte)) (sv : Option (List Byte)) : DirectReq := ⟨0, 2, 0, 9, [0x3000], st, 1, false, false, sv, false⟩
/-- Die 0 with requests at its port. -/
def withPorts (l : List DirectReq) : State := { evReset (.n 0 2 0) with dies := [(0, { Die.reset with ports := l })] }

theorem wit_EngineEvents_replies :
    ((pending [⟨40, 9, 6, 4, 0, .scalar 3, false⟩]).ctx 0).pend.any (fun w => decide (w.seq = 9)) = true ∧
    (pending []).fillHome 0 9 = none ∧
    (withPorts [req none (some [1])]).answered 0 2 false = some (req none (some [1])) ∧
    (withPorts [req (some [1]) (some [])]).answered 0 2 true = some (req (some [1]) (some [])) ∧
    ((withPorts [req none none]).die 0).ports.find? (fun x => x.served.isNone) = some (req none none) ∧
    (withPorts [req none none]).portTurn 0 1 = true ∧ (withPorts [req none none]).writeBackNext 0 = none ∧
    (evReset (.word 0 3 0xFFFFFFFFFFFFFF)).ev = .word 0 3 0xFFFFFFFFFFFFFF := by
  decide +kernel

theorem wit_EngineEvents_turns :
    (let s : State := { evReset (.n 0 9 0) with
       dies := [(0, { Die.reset with fills := [(0, 9)], slice := [(3, ⟨900, true, 1⟩)], grant := 1 })] }
     s.fillHome 0 9 = some 0 ∧ s.fillHome 0 8 = none ∧ s.portTurn 0 0 = true ∧ s.writeBackNext 0 = some 3 ∧
     (s.die 0).grant ≠ 0) ∧
    ({ evReset (.n 0 9 0) with
       dies := [(0, { Die.reset with fills := [(0, 9)], ports := [req none none] })],
       agenda := [⟨.portRequestService, .n 0 0 0⟩] } : State).portTurn 0 0 = false := by decide +kernel

/-- A mapped memory, and a task whose q0 is some queue. -/
def streaming (q : Queue) : State :=
  { evState (.n 0 0 0) ((mapped 31 []).modCtx 0 (fun x => x.setQueue 0 q)) with
    rgs := [(0, ⟨true, 0, 0, false, false⟩)] }

theorem wit_EngineEvents_streams :
    (streaming (queueOf 2 0 false (some (stream false 0)))).streamLive 0 0 = some (stream false 0) ∧
    (queueOf 2 0 false none).count < (queueOf 2 0 false none).nslot ∧ (stream false 0).next < (stream false 0).total ∧
    ((streaming (queueOf 2 0 false (some (stream false 0)))).span 0 none ((stream false 0).slotVa 0) 512 .read).2 =
      .ok ((List.range 512).map (fun i => 4 * 2 ^ 35 + i)) 0x31F ∧
    ((run []).span 0 none ((stream false 0).slotVa 0) 512 .read).2 = .bad 0x4000 1 0 ∧
    (streaming (queueOf 3 1 false (some (stream true 0)))).streamLive 0 0 = some (stream true 0) ∧
    (streaming (queueOf 3 1 false (some (stream true 0)))).readFault 0 [(queueOf 3 1 false none).pos 0] 512 = none ∧
    ((streaming (queueOf 3 1 false (some (stream true 0)))).span 0 none ((stream true 0).slotVa 0) 512 .write).2 =
      .ok ((List.range 512).map (fun i => 4 * 2 ^ 35 + i)) 0x31F ∧
    (streaming (queueOf 2 0 false none)).homeLost 0 (4 * 2 ^ 35) = false ∧ (streaming (queueOf 2 0 false none)).portTurn 4 2 = true ∧
    (streaming (queueOf 3 1 false none)).cutHolds 0 ((stream true 0).slotVa 0) 512 = false ∧
    ({ streaming (queueOf 2 0 false none) with trained := [(0x1B2, 16)] } : State).homeLost 0 (4 * 2 ^ 35) = true ∧
    ({ streaming (queueOf 2 0 false none) with
      dies := [(4, { Die.reset with ports := [req none none], grant := 2 })], agenda := [⟨.portRequestService, .n 4 0 0⟩] } :
        State).portTurn 4 2 = false := by decide +kernel

theorem wit_EngineEvents_streams_end :
    (((streaming (queueOf 2 0 false (some { stream false 0 with suspended := true }))).ctx 0).queue 0).stream =
      some { stream false 0 with suspended := true } ∧
    (((streaming (queueOf 2 1 true (some (stream false 1)))).ctx 0).queue 0).closed = true ∧
    (stream false 1).next = (stream false 1).total ∧
    (((streaming (queueOf 3 0 true (some (stream true 1)))).ctx 0).queue 0).count = 0 := by decide +kernel

/-- A packet that copies one byte of local memory to another place of it. -/
def copy1 (ref : Nat) (ph : PktPhase) : Packet :=
  packet ref [0x6000330100#64, 0, 16, 0x100000001#64, 0, 0, 0, 0] ph
/-- An engine with packets, and row group 0 valid. -/
def copying (e : EvArg) (ps : List Packet) : State :=
  { evState e (withEngine ps) with rgs := [(0, ⟨true, 0, 0, false, false⟩)] }
/-- What a unit's forming gives. -/
def formedOk (r : State × Except (CopyStop × Bool) Formed) : Bool :=
  match r.2 with
  | .ok _ => true
  | .error _ => false

theorem wit_EngineEvents_packets :
    pktMalformed (copy1 1 .intake).words = false ∧ pkKind (copy1 1 .intake).h = 1 ∧ pkMc (copy1 1 .intake).h = false ∧
    (let s := copying (.n 0 0 0) [copy1 1 .intake]
     let e := s.redonate.cengine 0
     e.running < 16 ∧ (∀ q ∈ e.packets, q.phase ≠ .waitSlot) ∧ pickStart (s.redonate.startWaits 0) [] e.packets none = some (copy1 1 .intake)) ∧
    (let s := copying (.n 0 0 0) [packet 1 [] .intake]
     pickStart (s.redonate.startWaits 0) [] (s.redonate.cengine 0).packets none = some (packet 1 [] .intake) ∧ pkKind (packet 1 [] .intake).h = 0) ∧
    (let s := copying (.n 0 1 0) [copy1 1 .running]
     let p := copy1 1 .running
     s.packet 0 1 = some p ∧ p.code = 0 ∧ 0 < p.nUnits ∧ formedOk (s.formUnit 0 p 0) = true ∧
     (s.formUnit 0 p 0).1.unitWaits 0 p 0 = false ∧
     ((s.formUnit 0 p 0).1.writeTargets 0 p 0 [0] p.targets).2.isNone = true) ∧
    (let s := copying (.n 0 1 0) [copy1 1 .waitSlot]
     s.packet 0 1 = some (copy1 1 .waitSlot) ∧ (s.cengine 0).freeSlot = some 0) := by decide +kernel

/-- A multicast of one byte to the cores 0 and 1. -/
def multi (rcvs : List Nat) : Packet :=
  { packet 1 [0x6400330100#64, 0, 16, 0x100000001#64, 0, 0, 0, 3] .running with rcvs := rcvs }

theorem wit_EngineEvents_multicast :
    pktMalformed (multi []).words = false ∧ pkMc (multi []).h = true ∧
    (∀ r ∈ [0, 1], r ∈ (multi []).mask ∧ (copying (.n 0 1 r) [multi []]).packet 0 1 = some (multi []) ∧
      ((multi []).w 6).toNat ≤ (copying (.n 0 1 r) [multi []]).tstamp ∧ (copying (.n 0 1 r) [multi []]).windowsHit r (multi []) r = []) ∧
    (multi [0]).rcvs.length + 1 = (multi [0]).mask.length := by decide +kernel

/-- A SIGNAL. -/
def signal (code : Nat) : Packet := { packet 1 [0x200#64, 0, 0, 0, 0, 0, 0, 0] .running with code := code }

theorem wit_EngineEvents_completion :
    pktMalformed (signal 0).words = false ∧ pkKind (signal 0).h = 2 ∧ pkHen (signal 0).h = false ∧
    (copying (.n 0 1 0) [signal 0]).packet 0 1 = some (signal 0) ∧ (signal 0x29).code ≠ 0 ∧
    pkKind (packet 1 [] .running).h = 0 := by decide +kernel

/-- A k-step that goes on. -/
def stepOk {ε α : Type} : Except ε α → Bool
  | .ok _ => true
  | .error _ => false

theorem wit_EngineEvents_matrix :
    let o : MatOp := ⟨3, 0x42, 0, 0x1F5, 0, 0x100000200#64, 0, 0, false, []⟩
    let s : State := { withTiles [] 0 { oneTile with ops := [o] } with
      ev := .n 0 3 0, rgs := [(0, ⟨true, 0, 0, false, false⟩), (1, ⟨true, 0, 0, false, false⟩)],
      loc := [(0x201, 4), (0x221, 4), (0x241, 4)] }
    (s.eng 0).headIs 3 = some o ∧ o.kb < o.blocks ∧ (s.eng 0).tile o.tile = some ⟨2, 3, false, []⟩ ∧
    stepOk (s.kStep 0 o ⟨2, 3, false, []⟩) = true := by decide +kernel

theorem wit_EngineEvents_owner :
    let s := evState (.n 0 0 0) (run [])
    (s.ctx 0).phase = .ready ∧ (s.eng (coreOf 0)).owner = none ∧ s.owns 0 = false ∧ (s.ctx 0).resRecords = false := by
  decide +kernel

/-- A task of die 0 in some phase, in launch 9. -/
def task7 (ph : TaskPhase) : Task :=
  { tid := 7, kind := .code, desc := 0, entry := 0, args := [], prio := 0, donated := 0, pin := none, anchor := none, spr := 0,
    cen := false, cnt := 0, home := 0, launch := some 9, launchId := 0, didx := 0, reads := [], phase := ph, readyAt := 0,
    readySeq := 0, patience := none, patienceOver := false, restarts := 0, lastCore := 0, lastSlot := 0, priv := false,
    readInputs := false, asked := none, starved := 0, migrated := false, sig := none, folds := [], traps := [], spawnLand := 0, streams := [], arrivals := [],
    late := [], later := [], stopCode := 0 }
/-- Die 0 with tasks, and a context with a record. -/
def tasked (e : EvArg) (ts : List Task) (f : Ctx → Ctx) : State :=
  { evState e (runWith [] f) with dies := [(0, { Die.reset with tasks := ts })] }

/-! Lifetimes. -/

/-- Row group 3 of die 0 in some state. -/
def withRg (e : EvArg) (x : RowGroup) : State := (evReset e).setRg 0 3 x

theorem wit_LifetimeEvents :
    (let s := (evReset (.n 0 0 0)).modDie 0 (fun x => { x with bandTicks := 100 }); 0 < (s.setBand 0 1).band 0 ∧
      100 ≤ ((s.setBand 0 1).die 0).bandTicks ∧ (evReset .none).band 0 = 0) ∧
    (let x := (withRg (.n 0 3 0) ⟨true, 1023, 0, false, false⟩).rg 0 3
     x.valid = true ∧ (withRg (.n 0 3 0) ⟨true, 1023, 0, false, false⟩).limitAsked 0 3 = false ∧
     (withRg (.n 0 3 0) ⟨true, 1023, 0, true, false⟩).limitAsked 0 3 = false ∧ (evReset .none).elim 0 x.cls ≤ x.age ∧
     Memory.wf (withRg (.n 0 3 0) ⟨true, 1023, 0, false, false⟩) = true) ∧
    (rgCore 3 = some 0 ∧ ((evReset .none).core 0).refreshing = none ∧ ((evReset .none).core 0).refreshQ = []) ∧
    (let s := (withRg (.n 0 3 0) ⟨true, 1023, 0, false, false⟩).setDieCtl 0 0x170 0x1000; s.policy 0 0 = 1 ∧ s.rgOwner 0 3 = none ∧
      (s.setDieCtl 0 0x170 0x2000).policy 0 0 = 2) ∧
    (let s := ((withRg (.n 0 3 0) ⟨true, 1023, 0, false, false⟩).setDieCtl 0 0x170 0x1000)
     let u : State := { s with ctxs := [(0, { Ctx.reset with phase := .ready, tid := 7 })] }
     let t : State := u.modDie 0 (fun x => { x with tasks := [{ task7 (.placed 0) with spr := 8 }] })
     t.rgOwner 0 3 = some 0 ∧ bit (t.ctxCtl 0 0x058) 63 = false ∧
     bit ((t.setCtxCtl 0 0x058 (0x8000000000000000#64)).ctxCtl 0 0x058) 63 = true) ∧
    (((evReset (.n 0 3 0)).modCore 0 (fun x => { x with refreshing := some 3 })).core 0).refreshing = some 3 ∧
    3 ∈ (((evReset (.n 4096 3 0)).modDie 0 (fun x => { x with refreshing := [3] })).die 0).refreshing ∧
    (let s := withRg (.n 0 3 0) ⟨true, 1023, 0, true, false⟩
     (s.rg 0 3).rfq = true ∧ s.ret 0 (s.band 0) - 4 ≤ (s.rg 0 3).age) := by decide +kernel

/-- Die 0 with a slice-store line. -/
def withLine (x : SliceLine) : State := { evReset (.n 0 3 0) with dies := [(0, { Die.reset with slice := [(3, x)] })] }

theorem wit_LifetimeEvents_slice : mapFind ((withLine ⟨1023, true, 0⟩).die 0).slice 3 = some ⟨1023, true, 0⟩ ∧
    mapSorted ((withLine ⟨1023, true, 0⟩).die 0).slice = true ∧
    (let lim := (withLine ⟨0, false, 0⟩).ret 0 ((withLine ⟨0, false, 0⟩).band 0) - 16
     lim ≤ 1023 ∧ 0 < lim - 32 ∧ lim - 16 < lim) := by decide +kernel

/-! Power. -/

theorem wit_PowerEvents :
    (let s : State := { tasked (.n 0 0 0) [] (fun x => { x with phase := .waitTime 0 }) with now := 6 }
     (s.ctx 0).phase = .waitTime 0 ∧ 0 ≤ s.tstamp) ∧
    8 ≤ (((evReset .none).modDie 0 (fun x => { x with pcapTicks := 8 })).die 0).pcapTicks ∧
    ((evReset .none).die 0).pcapTicks < 8 ∧ ((evReset (.n 0 0 0)).die 0).fwSignal = 0 ∧ ((evReset (.n 0 1 0)).die 0).fwSignal ≠ 1 ∧
    bit (((run []).setDieCtl 0 0x201 (0x8000000000000000#64)).dieCtl 0 0x201) 63 = true ∧ bit (((run []).setDieCtl 0 0x201 0).dieCtl 0 0x201) 63 = false ∧
    ((run []).core (0 * 64 + 0)).running.isSome = true ∧
    (((evReset (.n 0 5 0)).modDie 0 (fun x => { x with droopStretch := 5 })).die 0).droopStretch = 5 ∧
    (let s := (run []).modCore 0 (fun x => { x with next := 24 })
     (s.die 0).droopStretch = 0 ∧ 1 ≤ (s.core 0).cdiv ∧ (s.core 0).next = s.now + 4 * (s.core 0).cdiv) ∧
    (∀ x ∈ coresOf (dieOfCore 0), ((evReset .none).core x).droop = 0) ∧
    (let s := (evReset (.n 0 0 0)).setDieCtl 0 0x203 (0x8000000000000000#64)
     (s.core 0).idleSince = 0 ∧ s.mayRetain 0 = true ∧ (s.eng 0).owner = none ∧ s.now < 0 + s.idleTicks (dieOfCore 0) ∧
     0 + ({ s with now := 6000000 } : State).idleTicks (dieOfCore 0) ≤ ({ s with now := 6000000 } : State).now) ∧
    (let s := (evReset (.n 0 0 0)).modCore 0 (fun x => { x with tags := [(0, 0)] })
     (s.core 0).working = true ∧ (s.core 0).running = none ∧ (s.core 0).retention = false ∧ (s.core 0).idleSince = 0) ∧
    (((evReset (.n 0 0 0)).modCore 0 (fun x => { x with retention := true })).core 0).retention = true ∧
    allDies.find? (fun x => ((evReset .none).die x).online) = some 0 ∧ ((evReset .none).die 63).online = true ∧
    bit (((bound .none .run).setDieCtl 0 0x210 (0x8000000000000000#64)).dieCtl 0 0x210) 63 = true ∧
    (let s : State := { bound .none .run with dies := [(0, { Die.reset with part := some 0 })] }
     (s.setPartCtl 0 0x212 4).dbgRight 0 2 = true ∧ s.dbgRight 0 2 = false) ∧
    (((run []).modCore 0 (fun x => { x with pausing := true })).core 0).pausing = true := by decide +kernel

/-! Contexts and tasks. -/

theorem wit_ContextEvents_traps :
    let s := tasked (.n 0 0 0) [task7 (.placed 0)] (fun x => { x with traps := [⟨0x22, 3⟩] })
    (s.ctx 0).phase = .ready ∧ (s.core (coreOf 0)).running = some (0 % 4) ∧ bit (s.ctxCtl 0 0x088) 61 = false ∧
    (∀ w ∈ (s.ctx 0).pend, (s.ctx 0).cycles < w.land) ∧ (s.ctx 0).traps = [⟨0x22, 3⟩] ∧
    ((run []).ctx 0).traps.any (fun t => decide (t.code = 0x22)) = false := by decide +kernel

/-- The image area of die 0 has 257 images. -/
def imaged (s : State) : State := s.setDieCtl 0 0x1D0 (0x8000000000000101#64)

theorem wit_ContextEvents_stops :
    4096 ≤ ((tasked (.n 0 0 0) [] (fun x => { x with wdc := 4096 })).ctx 0).wdc ∧ ((run []).ctx 0).wdc < 4096 ∧
    ((run []).ctx 0).phase ≠ .free ∧
    (let s := imaged (tasked (.n 0 0 0) [] (fun x => { x with preempt := true }))
     (s.ctx 0).preempt = true ∧ (s.ctx 0).wdc = 0 ∧ (s.ctx 0).doneMask = 0 ∧ (s.freeImage 0).isSome = true) ∧
    ((run []).ctx 0).preempt = false ∧ ((run []).ctx 0).runSince = 0 ∧ isFaultOrTrap 0x04 = true ∧ isFaultOrTrap 0x31 = true ∧
    (task7 (.placed 0)).isReplay = false ∧ (task7 (.placed 0)).isHandler = false ∧
    ({ task7 (.placed 0) with kind := .trapHandler 7 0 } : Task).isHandler = true ∧
    ({ task7 (.placed 0) with kind := .replay 0 } : Task).isReplay = true := by decide +kernel

/-- Context 0, which performs task 7 of a launch, stops with a code; the trap vector of die 0 is on or off. -/
def stopping (b : Nat) (launch : Option Nat) (code : W64) (vector : Bool) (f : Ctx → Ctx) : State :=
  let s := imaged (tasked (.n 0 b 0) [{ task7 (.placed 0) with launch := launch }] (fun x =>
    f { x with phase := .stopping, ctl := [(0x081, code)] }))
  if vector then s.setDieCtl 0 0x1D1 (0x8000000000000000#64) else s
/-- What its save acts on: the stop complete, and marked in the capture windows. -/
def stopped (s : State) (launch : Option Nat) (code : W64) : State :=
  let u := ((if s.owns 0 then s.drainWrites 0 else s).leaveTags 0).landAtStop 0
  let w := u.traceRec 0 2 (bits (u.ctxCtl 0 0x081) 34 32) (u.ctxCtl 0 0x082).toNat code.toNat (u.ctx 0).cycles
  if code = 0x41 then w.captureMark launch false else if code = 0x40 then w.captureMark launch true else w

theorem wit_ContextEvents_saves : ∀ c ∈ [(some 9, 0x04#64, false), (some 9, 0x40#64, false), (some 9, 0x41#64, false),
      (some 9, 0x42#64, false), (none, 0x31#64, true)],
    let s := stopping 0 c.1 c.2.1 c.2.2 id
    let v := stopped s c.1 c.2.1
    let t := { task7 (.placed 0) with launch := c.1 }
    (s.ctx 0).phase = .stopping ∧ s.repliesOut 0 = false ∧ bits (s.ctxCtl 0 0x081) 7 0 = c.2.1.toNat ∧ v.taskAt 0 = some t ∧ v.doomed t = false ∧
    v.vectorOn 0 c.2.1.toNat = c.2.2 ∧ (v.freeImage 0).isSome = true ∧ (v.ctx 0).futStop = none := by decide +kernel

/-- A stop that stands in line for an image (1), one of a FUT.RD with no record, and one of an empty context. -/
theorem wit_ContextEvents_saves_again :
    ((stopping 1 (some 9) 0x40 false id).taskAt 0 = some (task7 (.placed 0))) ∧
    ((stopping 1 (some 9) 0x40 false id).setDieCtl 0 0x1D0 0).freeImage 0 = none ∧
    ((stopped (stopping 0 (some 9) 0x42 false (fun x => { x with futStop := some (8, 0) })) (some 9) 0x42).ctx 0).futStop =
      some (8, 0) ∧
    (let s := { stopping 0 none 0x04 false id with dies := [] }; (stopped s none 0x04).taskAt 0 = none) := by decide +kernel

theorem wit_ContextEvents_failed : (let s : State := { tasked (.n 0 0 0) [task7 (.placed 0)] (fun x => { x with phase := .stopping }) with
      dies := [(0, { Die.reset with tasks := [task7 (.placed 0)], launches := [⟨9, 0, 0, 0, false, 0, 0, 1, 1, some 5⟩] })] }
    s.doomed (task7 (.placed 0)) = true ∧ s.taskAt 0 = some (task7 (.placed 0))) := by decide +kernel

theorem wit_ContextEvents_ends :
    (let s := tasked (.n 0 0 0) [task7 (.placed 0)] (fun x => { x with phase := .done })
     (s.ctx 0).phase = .done ∧ s.leaveTags 0 = s ∧ s.repliesOut 0 = false ∧ s.opsAway 0 = (s, false) ∧ s.owns 0 = false ∧ s.taskAt 0 = some (task7 (.placed 0)) ∧
     let u := s.modCore 0 (fun x => { x with engine := ⟨some 7, [], [], [⟨0, 8, []⟩]⟩ })
     u.leaveTags 0 = u ∧ u.owns 0 = true ∧ (u.eng 0).ops.any (fun o => o.held) = false ∧ (u.eng 0).writes ≠ []) ∧
    (let s := tasked (.n 0 0 0) [task7 (.placed 0)] (fun x => { x with phase := .waitRefetch })
     (s.ctx 0).phase = .waitRefetch ∧ s.taskAt 0 = some (task7 (.placed 0))) ∧
    ((tasked .none [] (fun x => { x with snap := some ⟨64, 1, 0, 0x606, [], [1, 2], 0⟩ })).ctx 0).snap =
      some ⟨64, 1, 0, 0x606, [], [1, 2], 0⟩ ∧
    (let s := (run []).modCore 0 (fun x => { x with running := none })
     (s.core 0).retention = false ∧ (s.core 0).running = none ∧ (s.ctx (0 * 4 + 0)).phase = .ready) ∧
    (∀ i, i < 4 → (State.reset.ctx (0 * 4 + i)).phase ≠ .ready) ∧ (State.reset.core 0).running = none := by decide +kernel

theorem wit_ContextEvents_replies :
    let s : State := { tasked (.n 0 7 2) [task7 (.placed 0)] (fun x => { x with phase := .stopping }) with
      lateOps := [⟨3, 0, [], .store [3 * 2 ^ 35] [1]⟩] }
    s.repliesOut 0 = true ∧ (s.ctx 0).phase = .stopping := by decide +kernel

/-- The task that a task of a phase leaves at die 0 whose image area is mapped. -/
def imageState (ph : TaskPhase) (f : Ctx → Ctx) : State :=
  { (mapped 31 []).modCtx 0 f with
    mem := [(0, 1), (3, 16), (0x800114, 6), (0x800115, 6), (2 ^ 35, 1), (2 ^ 35 + 3, 32), (2 ^ 36, 31), (2 ^ 36 + 1, 3)]
    dies := [(0, { Die.reset with ctl := [(0x100, 0x10#64), (0x1D0, 0x8000000000000101#64)], tasks := [task7 ph] })] }

/-- What a read gives. -/
def readOk {α : Type} (r : State × Option α) : Bool := r.2.isSome

theorem wit_ContextEvents_handler :
    (imageState (.held 256) id).task 0 7 = some (task7 (.held 256)) ∧
    readOk ((imageState (.held 256) id).readRun 0 ((imageState (.held 256) id).imageVa 256) 0x40) = true := by decide +kernel

/-- The image of a task whose context is restored, read. -/
def restoring : State := imageState (.placed 0) (fun x => { x with phase := .restoring })

theorem wit_ContextEvents_restore :
    (restoring.ctx 0).phase = .restoring ∧ restoring.taskAt 0 = some (task7 (.placed 0)) ∧
    (∀ p ∈ restoring.cores, p.2.engine.owner ≠ some 7) ∧
    readOk ((restoring.modTask 0 7 (fun y => { y with phase := .placed 0 })).modCtx 0 (fun y => { y with tid := 7 })
      |>.readImage 0 (restoring.imageVa 256) 0) = true := by decide +kernel

theorem wit_ContextEvents_placement :
    let t := { task7 .waiting with pin := some 0 }
    let s : State := { evReset (.n 0 0 0) with dies := [(0, { Die.reset with tasks := [t] })] }
    (s.die 0).online = true ∧ s.redonate = s ∧ (s.die 0).tasks = [t] ∧ (s.die 0).operators = [] ∧ s.freeSlot 0 0 = some 0 ∧
    s.parts = [] ∧ bit (s.partCtl 5 0x1D5) 63 = false ∧
    (let u : State := { s with dies := [(0, { Die.reset with tasks := [{ t with patience := some (1, 0) }] })] }
     u.task 0 7 = some { t with patience := some (1, 0) } ∧ 0 ≤ u.now) := by decide +kernel

/-- An operator of two steps. -/
def oper : Operator := ⟨4, 0, 0, 0, false, 0, [2], [], 0, 0, false, 0, none, some 9, 0, 0, some [0]⟩

theorem wit_ContextEvents_steps :
    let s : State := { evReset (.n 0 4 0) with dies := [(0, { Die.reset with operators := [oper] })] }
    (s.die 0).operators.find? (fun o => decide (o.id = 4)) = some oper ∧ oper.gate = none ∧ oper.next = some [0] ∧
    (s.liveSteps 0 4).countP (fun t => decide (t.phase = .waiting)) < 64 := by decide +kernel

/-- Task 7, which has waited for a tick at a full die. -/
def hungry : Task := { task7 .waiting with starved := 1 }

/-- Die 0 is full, and task 7 has waited long; die 1 of the partition has room. -/
def overloadedState : State :=
  { evReset (.n 0 0 0) with
    now := 12000, ctxs := (List.range 256).map (fun c => (c, { Ctx.reset with phase := .ready, tid := 100 + c })),
    parts := [(0, { Partition.reset with dies := [0, 1] })],
    dies := [(0, { Die.reset with tasks := [hungry], ctl := [(0x190, 0x10000#64)], tfree := [(1, 3)], part := some 0 }),
      (1, { Die.reset with part := some 0, team := [(0, [hungry])] })] }

theorem wit_ContextEvents_teams : overloadedState.overloaded 0 = some hungry ∧ (run []).overloaded 0 = none ∧
    overloadedState.mayMigrate 0 hungry = true ∧ 1 ∈ (overloadedState.part (overloadedState.partOf 0)).dies ∧
    0 < mapGet 0 (overloadedState.die 0).tfree 1 ∧ (overloadedState.die 1).team = (0, [hungry]) :: [] := by
  decide +kernel

/-- Die 0 serves a launch queue whose slot 0 holds a packet of some descriptors, at 0x3400. -/
def launching (n : Nat) : State :=
  let s := served (.launch 0 0) 1
  { s with ev := .n 0 0 0, mem := s.mem ++ [(3 * 2 ^ 35 + 0x410, BitVec.ofNat 8 n)] }

/-- Tests the bytes of a slot. -/
def slotIs (r : State × Option (List Byte)) (p : State → List Byte → Bool) : Bool :=
  match r.2 with
  | some bs => p r.1 bs
  | none => false

theorem wit_ContextEvents_launch :
    slotIs ((launching 1).slotBytes (.launch 0 0) 0) (fun _ bs => !launchMalformed bs) = true ∧
    slotIs ((launching 1).slotBytes (.launch 0 0) 0) (fun _ bs => !launchFieldsBad bs) = true ∧
    slotIs ((launching 0).slotBytes (.launch 0 0) 0) (fun s bs => launchMalformed bs && !s.dbgRight 0 1 &&
      decide (field bs 8 8 % 64 = 0) && launchFieldsBad bs && decide (bits (wordAt bs 16) 15 0 = 0)) = true ∧
    (mapFind ((launching 0).die 0).captures 0).all (fun x => x.stops.isEmpty) = true ∧
    (mapFind ({ Die.reset with captures := [(0, ⟨0, 0, 0, 0, 0, 0, [], [], false, false, []⟩)] } : Die).captures 0).isSome = true ∧
    slotIs ((((launching 0).setPartCtl 64 0x212 2).slotBytes (.launch 0 0) 0)) (fun s _ => s.dbgRight 0 1) = true ∧
    (let s : State := { evReset (.n 0 9 0) with dies := [(0, { Die.reset with launches := [⟨9, 0, 0, 0, false, 0, 0, 1, 1, none⟩] })] }
     (s.die 0).launches.find? (fun l => decide (l.id = 9)) = some ⟨9, 0, 0, 0, false, 0, 0, 1, 1, none⟩ ∧
     s.launchLive 9 = false) := by decide +kernel

theorem wit_ContextEvents_audit :
    auditFind ({ Partition.reset with auditing := [[0, 0, 0, 7, 0, 0, 0, 0, 0, 0]] } : Partition).auditing 0 =
      some [0, 0, 0, 7, 0, 0, 0, 0, 0, 0] ∧
    (let s : State := { bound (.n 0 0 0) .run with parts := [(0, { Partition.reset with dies := [0, 1] })] }
     s.nextDie 0 0 = some 1 ∧ (bound (.n 0 0 0) .run).nextDie 0 0 = none ∧ (s.ctx ((1 * 64 + 0) * 4 + 0)).phase = .free) := by
  decide +kernel

/-- Partition 0 of die 0 with the streaming controls; the area is mapped at 0x3000. -/
def streamedOut (log : Nat) (pages : List (Nat × Nat × Nat)) : State :=
  { evState (.n 0 0 0) (mapped 31 []) with
    parts := [(0, ⟨[0], 0, 0, 0, [(0x1D8, BitVec.ofNat 64 (2 ^ 63 + 0x3000 + log)), (0x1D9, 0x8000000000000000#64)], pages, 0, [],
      [], [], none, none, []⟩)] }

theorem wit_ContextEvents_checkpoint :
    bit ((streamedOut 12 []).partCtl 0 0x1D8) 63 = true ∧ Memory.wf (streamedOut 12 []) = true ∧
    bit ((streamedOut 12 []).partCtl 0 0x1D9) 63 = true ∧ ((streamedOut 12 []).part 0).pages = [] ∧
    2 ^ bits ((streamedOut 5 []).partCtl 0 0x1D8) 5 0 < ((streamedOut 5 []).part 0).stream + 64 ∧
    ((streamedOut 12 []).part 0).stream + 64 ≤ 2 ^ bits ((streamedOut 12 []).partCtl 0 0x1D8) 5 0 ∧
    ((streamedOut 12 []).writeRaw 0 true 0x3000 (zeros 64)).2 = true ∧
    ({ streamedOut 12 [] with mem := [] }.writeRaw 0 true 0x3000 (zeros 64)).2 = false ∧
    ((streamedOut 12 [(0, 2, 0)]).part 0).pages = (0, 2, 0) :: [] ∧
    ((streamedOut 12 [(0, 2, 0)]).writeWin (homeOf ((streamedOut 12 []).paKey 0 0)) 2 0x3000 (zeros 68)).2 = true := by
  decide +kernel

/-! Collectives and links. -/

/-- A sum of one FP32 element at die 0 alone, to be given to its members (0), left at its root (1), or broadcast (2). -/
def coll (op : Nat) : Collective :=
  ⟨5, 0, 0, [BitVec.ofNat 64 (0x100 + op * 2 ^ 12), 0x3000, 0x3100, 1, 0, 1, 0, 0x3200], 0, 0, [⟨0, false, false⟩], [], [0], [],
    false, 0, false, none, false, none, [], [], 0⟩
/-- Die 0 performs a collective. -/
def collState (e : EvArg) (c : Collective) : State :=
  { evState e (mapped 31 []) with
    mctl := [(0x1B2, 15)], dies := [(0, { Die.reset with ctl := [(0x100, 0x10#64)], collectives := [c] }),
      (1, { Die.reset with ctl := [(0x100, 0x10#64)] })] }
/-- Whether something is done without an error. -/
def doneOk {ε α : Type} (r : State × Except ε α) : Bool :=
  match r.2 with
  | .ok _ => true
  | .error _ => false

theorem wit_CollectiveAndLinkEvents_steps :
    let s := collState (.n 0 5 0) (coll 0)
    let c := coll 0
    let r : Collective := { c with remote := some 3 }
    c.malformed = false ∧ s.coll 0 5 = some c ∧ c.stopped = false ∧ c.ending = none ∧ 0 ∈ c.chunks ∧ 0 < c.nchunks ∧ c.op ≠ 2 ∧
    s.vertexReady c 0 0 = true ∧ s.vertexReady c 0 1 = true ∧ c.remote = none ∧ c.root = 0 ∧
    doneOk (s.vertexPartial 0 c 0 1) = true ∧ doneOk (s.vertexPartial 0 c 0 0) = true ∧
    (collState (.n 0 5 1) r).coll 0 5 = some r ∧ s.vertexReady r 0 1 = true ∧
    doneOk ((collState (.n 0 5 1) r).vertexPartial 0 r 0 1) = true ∧
    doneOk ((s.vertexPartial 0 c 0 0).1.collOutput 0 c 0 0 (c.outBytes [Elem.zero]).1) = true ∧
    (s.writeVa (s.belfry 0 c) (c.markVa 0) [1]).2 = true ∧
    ({ s with mem := [] }.writeVa (s.belfry 0 c) (c.markVa 0) [1]).2 = false ∧
    doneOk (s.collBroadcast 0 5 c 0) = true ∧
    s.peers c = [] ∧ (s.writeVa (s.belfry 0 c) (c.markVa 0) [2]).2 = true ∧ (∀ m ∈ s.peers c, 0 * 1024 + m ∈ c.outputs) ∧
    (let p : Collective := { c with words := [0x20000100#64], members := [⟨0, true, false⟩, ⟨1, true, false⟩] }
     (collState (.n 0 5 3) p).peers p = [1] ∧ 0 * 1024 + 1 ∉ p.outputs ∧ (collState (.n 0 5 3) p).coll 0 5 = some p) := by decide +kernel

/-- Die 0 serves a collective queue whose slot 0 holds the packet of the sum, or one of kind 1 that R366 refuses. -/
def collPacket (good : Bool) : State :=
  let s := served (.coll 0 0) 1
  let b : Nat := 3 * 2 ^ 35 + 0x400
  { s with ev := .n 0 0 0, mctl := [(0x1B2, 1)],
           mem := s.mem ++ (if good then [(b + 9, 0x30), (b + 16, 0x40), (b + 17, 0x30), (b + 24, 1), (b + 40, 1), (b + 57, 0x32)]
             else []) }
/-- The collective of a slot's bytes. -/
def collOf (bs : List Byte) : Collective :=
  ⟨0, 0, 0, (List.range 8).map (fun i => wordAt bs (8 * i)), bits (wordAt bs 0) 49 44, bits (wordAt bs 0) 49 44, [], [], [], [],
    false, 0, false, none, false, none, [], [], 0⟩

theorem wit_CollectiveAndLinkEvents_packet :
    slotIs ((collPacket false).slotBytes (.coll 0 0) 0) (fun _ bs => (collOf bs).malformed) = true ∧
    slotIs ((collPacket true).slotBytes (.coll 0 0) 0) (fun s bs => !(collOf bs).malformed && decide (s.phys 0 0 = some 0) &&
      decide ((s.collVertices 0 (collOf bs)).2 = some [0]) && decide ((collOf bs).root = 0) &&
      (match ((s.collVertices 0 (collOf bs)).1.marksBad 0 (collOf bs)).2 with
        | .ok b => !b
        | .error _ => false)) = true ∧
    bit ((collPacket true).modCtl 0x1B4) 63 = false := by decide +kernel

/-- Die 0 serves a packet at POD scope whose MODSET stands at an address below 2^48, with the feature and the pod table closed; low
gives the marks and the bitmap. -/
def podPacket (modset : Nat) (low : List Host.Cell) : State :=
  let b : Nat := 3 * 2 ^ 35 + 0x400
  let s := collPacket false
  let kept (f : Host.Cell → Bool) : List Host.Cell := s.mem.filter f
  { s with mem := kept (fun x => decide (x.1 < b)) ++ low ++ kept (fun x => decide (b ≤ x.1)) ++
      [(b + 3, 0x20), (b + 9, 0x30), (b + 16, 0x40), (b + 17, 0x30), (b + 24, 1), (b + 40, 1)] ++
      ((List.range 6).map (fun i => (b + 48 + i, BitVec.ofNat 8 (modset / 256 ^ i)))).filter (fun x => decide (x.2 ≠ 0)) ++
      [(b + 57, 0x32)] }
/-- What the packet's slot reads as, with the modules of MODSET and the marks. -/
def podIs (s : State) (p : Option (List Nat) → Except Nat Bool → Bool) : Bool :=
  slotIs (s.slotBytes (.coll 0 0) 0) (fun t bs =>
    let c := collOf bs
    !c.malformed && c.pod && decide (bits (wordAt bs 24) 48 40 = t.ownModule) && decide (t.phys 0 0 = some 0) && decide (c.root = 0) &&
      p (t.collVertices 0 c).2 ((t.collVertices 0 c).1.marksBad 0 c).2)

theorem wit_CollectiveAndLinkEvents_pod :
    (let b : Nat := 3 * 2 ^ 35
     bit ((podPacket 0x3280 []).modCtl 0x232) 5 = false ∧
     podIs (podPacket (2 ^ 47) []) (fun v _ => v.isNone) = true ∧ podIs (podPacket 0x3280 []) (fun v _ => v == some []) = true ∧
     podIs (podPacket 0x3280 [(b + 0x280, 1)]) (fun v m => v == some [0] && (match m with | .ok x => !x | .error _ => false)) = true ∧
     podIs (podPacket 0x3280 [(b + 0x200, 3), (b + 0x280, 1)])
       (fun v m => v == some [0] && (match m with | .ok x => x | .error _ => false)) = true ∧
     Memory.wf (podPacket 0x3280 [(b + 0x200, 3), (b + 0x280, 1)]) = true) := by decide +kernel

/-- A frame of partition tag 3, from module 1 to module 0. -/
def frame (n : Nat) (msg : FabricMsg) : Frame := ⟨0, 1, 0, n, 3, msg⟩
/-- Port 2, with a frame not acknowledged, of a module whose partition 0 has tag 3. -/
def portState (e : EvArg) : State :=
  { evReset e with parts := [(0, { Partition.reset with ptag := 3 })], pod := [(2, { PodPort.reset with unacked := [(0, frame 0 (.write 0x3000 [1]))] })] }

theorem wit_CollectiveAndLinkEvents_links :
    (evReset (.link (.link 127))).ev = .link (.link 127) ∧ (evReset (.link (.die 63))).ev = .link (.die 63) ∧
    bit ((evReset (.n 15 0 0)).modCtl 0x1B4) 63 = false ∧
    bit (((evReset (.n 511 0 0)).setModCtl 0x1B4 (0x8000000000000000#64)).modCtl 0x1B4) 63 = true ∧
    (portState .none).partOfTag 3 = some 0 ∧ (portState .none).partOfTag 0 = none ∧
    (mapGet PodPort.reset (portState .none).pod 2).down = false ∧ (mapGet PodPort.reset (portState .none).pod 2).unacked ≠ [] ∧
    (mapGet PodPort.reset (portState .none).pod 2).recvSeq = (frame 0 (.write 0x3000 [1])).seq ∧
    (mapGet PodPort.reset (portState .none).pod 2).recvSeq ≠ (frame 1 (.write 0x3000 [1])).seq ∧ (frame 1 .ack).msg = .ack ∧
    (frame 0 (.write 0x3000 [1])).msg ≠ .ack ∧ (mapGet PodPort.reset (portState .none).pod 2).attempts < 16 ∧
    16 ≤ ({ PodPort.reset with attempts := 16 } : PodPort).attempts := by decide +kernel

/-- The frame that asks for the atomic addition of 1 at 0x3000 meets a live partition whose memory is mapped. -/
theorem wit_CollectiveAndLinkEvents_atomic :
    let s : State := { served (.coll 0 0) 1 with ev := .frame 2 (frame 0 (.atomic 0x3000 (.fetchAdd 8 1))) }
    (({ s with parts := [(64, { Partition.reset with ptag := 3 })] } : State).partOfTag 3 = some 64) ∧
    (s.outsideAtomic 0 0x3000 (.fetchAdd 8 1) (.frame 64 2 1 0)).2 = true := by decide +kernel

theorem wit_CollectiveAndLinkEvents_epochs :
    (let c : Collective := { coll 0 with stopped := true }
     let s := collState (.n 0 5 0) c
     s.coll 0 5 = some c ∧ c.stopped = true ∧ c.ending = none ∧ c.pod = false ∧
     c.members.any (fun m => decide (m.vertex = 0) && !m.lost && !m.acked) = true) ∧
    (let c : Collective := { coll 0 with stopped := true, members := [⟨0, true, false⟩] }
     let s := collState (.n 0 5 0) c
     s.coll 0 5 = some c ∧ (∀ m ∈ c.members, m.lost = true ∨ m.acked = true) ∧ c.pod = false) ∧
    (let c : Collective := { coll 0 with
       stopped := true, members := [⟨0, true, false⟩, ⟨1, true, false⟩], words := [0x20000100#64] }
     let s0 := (collState (.n 0 5 0) c).setModCtl 0x1B4 (0x8000000000003000#64)
     let s : State := { s0 with mem := s0.mem ++ [(3 * 2 ^ 35 + 2, 0x40), (3 * 2 ^ 35 + 3, 0x80)] }
     s.coll 0 5 = some c ∧ c.pod = true ∧ (∀ m ∈ c.members, m.lost = false) ∧ (s.anyModuleLost (s.belfry 0 c) c.vertices).2 = true ∧
     ∃ m ∈ c.members, m.vertex ≠ s.ownModule) ∧
    (let c : Collective := { coll 0 with stopped := true, members := [⟨0, false, true⟩], words := [0x20000100#64] }
     (collState (.n 0 5 0) c).coll 0 5 = some c ∧ (∃ m ∈ c.members, m.lost = true) ∧ c.pod = true ∧
     ∀ m ∈ c.members, m.lost = true ∨ m.acked = true) ∧
    (let c : Collective := { coll 0 with ending := some 0x25 }
     (collState (.n 0 5 0) c).coll 0 5 = some c ∧ c.ending = some 0x25) := by decide +kernel
/-! More states for the hypotheses of the statements, clause by clause. -/

theorem wit_SlotOperationsCompleteOrStop_no_result : ∃ s1, Popped spoiltQueue [56] s1 ∧ s1.iss.slot * 8 + 0 ∈ s1.iss.spoilt ∧
    (∀ w ∈ ((opVstRow 56 1 ⟨1, none⟩).effect s1).cx.pend, w.seq < s1.seq) ∧
    ((opVstRow 56 1 ⟨1, none⟩).effect s1).iss.slot = s1.iss.slot := by
  refine ⟨(spoiltQueue.popSlot spoiltQueue.iss.slot (queueNums [56])).1, ?_, by decide +kernel, by decide +kernel, by decide +kernel⟩
  have h : (spoiltQueue.popSlot spoiltQueue.iss.slot (queueNums [56])).2 = (.go, none) := by decide +kernel
  exact Prod.ext rfl h

theorem wit_TransfersPointsAndSuspensions_later :
    (runWith [] (fun x => { x with phase := .stopping })).cx.phase ≠ .ready ∧
    (runWith [] (fun x => { x with phase := .stopping })).cx.phase ≠ .done ∧
    (runWith [] (fun x => { x with phase := .done })).cx.phase = .done := by decide +kernel

theorem wit_LoopStarts_edge : (1 : BitVec 12).toNat = 1 ∧ (entry 4 2).start + 32 * ((entry 4 2).last - 1) < 2 ^ 56 ∧
    (runLoop 32 [1] [entry 4 2]).iss.pc + 32 < 2 ^ 56 ∧
    (entry 1 2).beyond (addr56 (((runLoop 64 [1] [entry 1 2]).iss.pc : Int) + 32)) 1 = true ∧
    (entry 4 2).beyond (addr56 (((runLoop 32 [1] [entry 4 2]).iss.pc : Int) + 32)) 1 = false := by decide +kernel

theorem wit_ContextReads_values :
    (∀ r ∈ ([(0x040, 0x040), (0x059, 0x059), (0x070, 0x077), (0x160, 0x163), (0x191, 0x191), (0x1B0, 0x1B2),
      (0x1E0, 0x200), (0x210, 0x210), (0x300, 0x358)] : List (Nat × Nat)), ¬ (r.1 ≤ 0x1D5 ∧ 0x1D5 ≤ r.2)) ∧
    ctlScope 0x1D5 = some .part ∧ ctlScope 0x358 = some .ctx ∧ (run []).coreCtl 0 0x040 = 0 ∧ ((run []).core 0).tags.length ≤ 8 ∧
    (run []).coreCtl 0 0x059 = 0 ∧ (run []).dieCtl 0 0x191 = 0 ∧ (run []).suspendedAt 3 7 = none ∧
    (withEngine [packet 1 [] (.suspended 0)]).suspendedAt 0 0 = some (packet 1 [] (.suspended 0)) := by decide +kernel

/-- Whether every field of a register is locked against unprivileged code. -/
def lockedFields (n : Nat) : Bool := (ctlFields n).all (fun f => match f.acc with
  | .rwl l => decide (l ≠ .user)
  | _ => false)

theorem wit_ContextWrites_fields :
    (ctlScope 0x100).isSome = true ∧ lockedFields 0x100 = true ∧ ctlFields 0x100 ≠ [] ∧
    (∀ n ∈ [0x080, 0x100, 0x190],
      ∀ r ∈ ([(0x040, 0x040), (0x058, 0x063), (0x068, 0x068), (0x070, 0x078), (0x088, 0x0A0), (0x110, 0x17E), (0x181, 0x181),
          (0x191, 0x191), (0x1A0, 0x1B2), (0x1C0, 0x1CF), (0x1D5, 0x1D8), (0x1E0, 0x200), (0x203, 0x227),
          (0x300, 0x358)] : List (Nat × Nat)), ¬ (r.1 ≤ n ∧ n ≤ r.2)) ∧
    (ctlFields 0x080).any (fun f => decide (f.acc = .w1c)) = true ∧ lockOpen .priv .priv = true ∧ lockOpen .priv .user = false ∧
    bits (1 : W64) 31 0 % 64 ≠ 0 ∧ bits (0x8000000000000040#64) 31 0 % 64 = 0 := by decide +kernel

theorem wit_ContextEnds_later : (runWith [] (fun x => { x with phase := .stopping })).cx.phase ≠ .ready ∧
    (runWith [] (fun x => { x with phase := .stopping })).cx.phase ≠ .done := by decide +kernel

/-- A float's class, for the decoding hypotheses: 0 finite, 1 infinite, 2 NaN. -/
def valueKind : FVal → Nat
  | .fin _ => 0
  | .inf _ => 1
  | .nan => 2

theorem wit_PredicateResults_values : finite32 0x3F800000#32 = true ∧ finite32 0xFF7FFFFF#32 = true ∧ finite32 0x7F800000#32 = false ∧
    valueKind (fp32.decode 0x7FC00000) = 2 ∧ (0x00800000 ≤ 0x7F7FFFFF) ∧ (0x7FC00000#32).toNat % 2 ^ 31 = 0x7FC00000 ∧
    (0x80000001#32).toNat % 2 ^ 31 = 1 ∧ 2 ^ 31 ≤ (0x80000001#32).toNat := by decide +kernel

theorem wit_ConversionResults_values : finite32 0xCF000000#32 = true ∧ exact32 0xCF000000#32 = -(2 ^ 31) * 2 ^ 149 ∧
    valueKind (fval ⟨0xFF800000#32, false⟩) = 1 ∧ valueKind (fval ⟨0x7FC00000#32, false⟩) = 2 ∧
    (∀ f ∈ [fp16, bf16, f8e5], valueKind (f.decode ((2 ^ f.width - 1) % 2 ^ (f.width - 1))) = 2) ∧
    (∀ f ∈ [fp16, bf16, f8e4, f8e5], valueKind (f.decode 1) = 0 ∧ 1 < 2 ^ f.width) ∧
    valueKind (fp16.decode 0x7C00) = 1 ∧ valueKind (f8e4.decode 0x7F) = 2 ∧ (∃ f, numFmt 10 = .int f) :=
  ⟨by decide +kernel, by decide +kernel, by decide +kernel, by decide +kernel, by decide +kernel, by decide +kernel,
    by decide +kernel, by decide +kernel, _, rfl⟩

theorem wit_ReductionResults_lanes :
    (let l : List Elem := [⟨0x7F800000#32, false⟩, ⟨0xFF800000#32, true⟩]
     l.filter (fun e => !isNan e) = l ∧ valueKind (fval ⟨0x7F800000#32, false⟩) = 1 ∧ l ≠ []) ∧
    [(⟨0x7FC00000#32, false⟩ : Elem)].filter (fun e => !isNan e) = [] ∧
    (∀ e ∈ [(⟨0x3F800000#32, false⟩ : Elem), ⟨0x80000000#32, false⟩], finite32 e.val = true) := by decide +kernel

theorem wit_SpecialFunctionResults_spoilt : spoiltQueue.popMeets 0 = (.go, none) ∧
    spoiltQueue.poisonedRange spoiltQueue.cd ((spoiltQueue.cx.queue 0).pos (spoiltQueue.cx.queue 0).head) 512 = true ∧
    runQueue.poisonedRange runQueue.cd ((runQueue.cx.queue 0).pos (runQueue.cx.queue 0).head) 512 = false ∧
    runQueue.iss.spoilt = [] := by decide +kernel

theorem wit_SpecialOperands_exact :
    (valueKind (fp32.decode (0x40800000#32).toNat) = 0 ∧ exact32 0x40800000#32 = 2 ^ 151 ∧ ((151 : Nat) : Int) = 2 * 1 + 149) ∧
    exact32 0xC1200000#32 = -10 * 2 ^ 149 ∧ exact32 0x40800000#32 = 2 ^ (2 + 149) ∧
    (finite32 0xC3160000#32 = true ∧ exact32 0xC3160000#32 < -149 * 2 ^ 149) ∧
    (finite32 0xC2D20000#32 = true ∧ exact32 0xC2D20000#32 ≤ -105 * 2 ^ 149) ∧
    (finite32 0x3F000000#32 = true ∧ exact32 0x3F000000#32 ≠ 0 ∧ exact32 0x3F000000#32 % 2 ^ 149 ≠ 0 ∧
      -149 * 2 ^ 149 ≤ exact32 0x3F000000#32 ∧ exact32 0x3F000000#32 < 128 * 2 ^ 149) ∧
    127 * 2 ^ 149 < exact32 0x43000000#32 ∧ 2 ^ 150 < exact32 0x40800000#32 ∧
    (2 ^ 148 ≤ exact32 0x3F800000#32 ∧ exact32 0x3F800000#32 ≤ 2 ^ 150) ∧ -100 * 2 ^ 149 ≤ exact32 0x3F800000#32 := by
  decide +kernel

theorem wit_SpecialOperands_inexact : finite32 0x40400000#32 = true ∧ 0 < exact32 0x40400000#32 ∧ ∀ n : Nat, exact32 0x40400000#32 ≠ 2 ^ n := by
  refine ⟨by decide +kernel, by decide +kernel, fun n h => ?_⟩
  have e : exact32 0x40400000#32 = 3 * 2 ^ 149 := by decide +kernel
  rw [e] at h
  by_cases hn : n < 152
  · have : ∀ m, m < 152 → (3 * 2 ^ 149 : Int) ≠ 2 ^ m := by decide +kernel
    exact this n hn h
  · have h2 : (2 : Int) ^ 152 ≤ 2 ^ n := by
      have := Nat.pow_le_pow_right (show 2 > 0 by decide) (Nat.le_of_not_lt hn)
      exact_mod_cast this
    omega

/-- A result of the exact square root that is finite: RSQ and LOG2 of 4 are exact. -/
theorem wit_SpecialOperands_finite :
    finite32 (sfuLane 2 false .rne 0x40800000#32).1.val = true ∧ finite32 (sfuLane 5 false .rne 0x40800000#32).1.val = true := by
  decide +kernel

/-! Local memory. -/

theorem wit_VectorLocalLoads_faults :
    ((run [8]).g 1).toNat % 16 ≠ 0 ∧ (run []).localOk 0 0x3FFFF0 528 = false ∧ 2 ^ 32 ≤ ((run [0x100000000]).g 1).toNat ∧
    (run []).validRange 0 0 528 = false ∧
    (let s : State := { runRg [] [0, 1] with rgs := [(0, ⟨true, 0, 0, false, true⟩), (1, ⟨true, 0, 0, false, false⟩)] }
     s.localOk 0 0 528 = true ∧ s.validRange 0 0 528 = true ∧ s.poisonedRange 0 0 528 = true ∧ s.poisonedRange 0 0 4 = true ∧
     s.poisonedRange 0 0 16 = true) ∧
    (run [0]).validRange 0 0 4 = false ∧ (run [0]).sel 0 0 = true ∧
    ((run [0x10000000]).g 1 + BitVec.ofNat 64 (4 * ((run [0x10000000]).v 2 0).val.toNat)).toNat = 0x10000000 ∧
    (run [0x10000000]).localOk 0 0x10000000 4 = false := by decide +kernel

theorem wit_VectorLocalStores_stops : Popped (run [8]) [3] (run [8]) ∧ Popped (run [8]) [3, 4] (run [8]) ∧
    ((run [8]).g 1).toNat % 16 ≠ 0 ∧ ((run [0x10000000]).g 1).toNat % 16 = 0 ∧ (run [0x10000000]).localOk 0 0x10000000 256 = false ∧
    ((run [0, 24]).g (1 + 1)).toNat % 16 ≠ 0 ∧ (run [0x3FFFF0]).localOk 0 0x3FFFF0 16 = true ∧ regionOf 0x400000 ≠ regionOf 0x3FFFF0 ∧
    (run [0x10000000]).sel 0 0 = true ∧ (run [0x10000000]).localOk 0 0x10000000 4 = false :=
  ⟨rfl, rfl, by decide +kernel, by decide +kernel, by decide +kernel, by decide +kernel, by decide +kernel, by decide +kernel,
    by decide +kernel, by decide +kernel⟩

/-! Device memory. -/

theorem wit_AtomicsAtIssue_fault : ((run [0x3001]).g 1).toNat % 8 ≠ 0 ∧ (run [0x3000]).cutHolds 0 0x3000 8 = false ∧
    (run [0x3000]).span 0 (some 0) 0x3000 8 .atomic = (run [0x3000], .bad 0x3000 1 0) := by decide +kernel

/-- A future of zeros in a page whose leaf lacks D, once its translation is known and the leaf has gone. -/
def leafGone : State :=
  let s := spanned (mapped 31 [1, 0x3000]) 0x3000 16 .read
  let t := s.modCore 0 (fun x => { x with tlb := x.tlb.map (fun e => { e with leaf := 0x11F, dirty := false }) })
  { t with mem := [(0, 1), (3, 16), (2 ^ 35, 1), (2 ^ 35 + 3, 32)] }

/-- Whether a span fails. -/
def spanBad (r : State × Span) : Bool :=
  match r.2 with
  | .bad _ _ _ => true
  | .ok _ _ => false

theorem wit_Futures_link :
    (let r := leafGone.span 0 (some 0) 0x3000 16 .futRead
     spanBad r = false ∧ r.1.uncorr (placesOf leafGone 0x3000 16 .futRead) = false ∧
     spanBad (r.1.span 0 (some 0) 0x3000 16 .futLink) = true) ∧
    (futCheck .futRead futEa leafGone).2.isSome = true := by decide +kernel

/-! Engines and tasks. -/

theorem wit_CopyAndSpawnAtIssue_order : (run []).priorOpen = [] ∧
    (run []).launchFailed (((run []).taskAt 0).bind (fun u => u.launch)) = false ∧
    (let s : State := { tasked .none [task7 (.placed 0)] id with
       dies := [(0, { Die.reset with tasks := [task7 (.placed 0)], launches := [⟨9, 0, 0, 0, false, 0, 0, 1, 1, some 5⟩] })] }
     s.launchFailed ((s.taskAt 0).bind (fun u => u.launch)) = true) := by decide +kernel

theorem wit_QueueInstructions_order : ∀ s ∈ [mappedQueue [] [0x3000] (queueOf 2 0 false none),
      mappedQueue [(3 * 2 ^ 35 + 17, 2), (3 * 2 ^ 35 + 20, 1)] [0x3000] (queueOf 2 0 false none)],
    let t := spanned s 0x3000 64 .read
    t.iss = s.iss ∧ t.uncorr (placesOf s 0x3000 64 .read) = false ∧ ((t.ctx 0).queue 0).stream = none ∧ t.turretFull (dieOf 0) = false := by
  decide +kernel

theorem wit_LifetimeAndResidency_outside :
    (let z := (run [5, 0x20010000000]).g (1 + 1)
     1 ≤ bits z 63 32 ∧ bits z 63 32 ≤ 2 ^ 22 ∧ (run []).localOk 0 (bits z 31 0) (bits z 63 32) = false) := by decide +kernel

theorem wit_TileMoves_stops : Popped (withTiles [] 0 oneTile) [5] (withTiles [] 0 oneTile) ∧
    ((withTiles [] 0 oneTile).eng 0).tile 1 = none ∧ ((withTiles [] 0 oneTile).eng 0).busy 1 = false ∧
    (Imm10.int ⟨64, none⟩).toNat = 64 ∧ 3 ≤ (64 : Nat) :=
  ⟨rfl, by decide +kernel, by decide +kernel, by decide +kernel, by decide⟩

/-! Landings. -/

/-- A context with one write due and a ring at q0. -/
def landing (p : Payload) (reg : Nat) (q : Queue) : State :=
  (pending [⟨6, 1, 2, reg, 64, p, true⟩]).modCtx 0 (fun x => x.setQueue 0 q)

theorem wit_ResultsLand_payloads :
    (∀ s ∈ [landing (.lanes [(3, Elem.zero), (127, Elem.zero)]) 5 (queueOf 0 0 false none),
        landing (.pred [(3, ⟨true, false⟩)]) 5 (queueOf 0 0 false none), landing (.fmt 3) 0 (queueOf 0 0 false none),
        landing (.lanes []) 56 (queueOf 1 0 false none), landing (.fault (Stop.of 8) (some 1)) 5 (queueOf 0 0 false none)],
      s.ev = .n 0 0 0 ∧ (s.ctx 0).phase = .ready ∧ (s.core (coreOf 0)).running = some (0 % 4) ∧
      (s.ctx 0).pend.all (fun w => decide (w.land ≤ (s.ctx 0).cycles) && w.arrived) = true ∧ (s.ctx 0).pend.length = 1) ∧
    (let q := (((landing (.lanes []) 56 (queueOf 1 0 false none)).ctx 0).queue (56 - 56))
     q.canPush = .go ∧ (rgsOf (q.pos (q.head + q.count)) 512).any
       ((landing (.lanes []) 56 (queueOf 1 0 false none)).inRefresh (dieOf 0)) = false ∧
     Memory.wf (landing (.lanes []) 56 (queueOf 1 0 false none)) = true ∧ q.pos (q.head + q.count) + 512 ≤ 2 ^ 32) ∧
    (queueOf 3 1 false (some (stream true 0))).canPush = .stall ∧ (queueOf 1 1 false none).canPush = .bad ∧
    ([(3, Elem.zero), (127, Elem.zero)] : Table Elem).map (fun p => p.1) = [3, 127] := by decide +kernel

/-! The start, partitions and the host. -/

theorem wit_StartAndPartitionEvents_failed :
    1 < (((evReset (.spdm 0 .getMeasurements)).modDie 5 (fun x => { x with failStep := 3, failCode := 4 })).die 5).failStep ∧
    (∀ d, d < 64 → ((evReset .none).die d).ready = false ∧ ((evReset .none).die d).failStep ≤ 1) ∧
    ((evReset .none).requests = [] ∧ (started .none).allReady = true) ∧
    (evReset .none).policyOk 0 0 = false := by decide +kernel

theorem wit_HostEvents_atomic :
    (let r : AtomicReq := ⟨4, .function 0, 0, 8, 0x3000, 1, 0, 73, 0⟩
     let s : State := { hosted (.n 0 0 0) with now := 6000 }
     let t := s.modDie 0 (fun x => { x with atomics := [r] })
     t.ev = .n 0 0 0 ∧ r.asker = .function 0 ∧ homeOf r.key = 0 ∧ (t.die 0).atomics = [r] ∧ r.cycle < t.copyCycle 0 ∧
     ((t.modDie 0 (fun x => { x with atomics := [] })).atomicAt r.key r.size r.op r.x r.cmp).2 = some 0) ∧
    (hostAtomicOp (.fetchAdd 3 1)).1 = 3 ∧ (0x3001 : W64).toNat % 8 ≠ 0 ∧
    (let s : State := { hosted .none with parts := [(64, { Partition.reset with pages := [(0, 30, 0)] })] }
     s.cutHolds 0 0x3000 8 = true) := by decide +kernel

theorem wit_CollectiveAndLinkEvents_frame_asker :
    (let r : AtomicReq := ⟨4, .frame 0 2 1 0, 0, 8, 0x3000, 1, 0, 73, 0⟩
     let s : State := { hosted (.n 0 0 0) with now := 6000 }
     let t := s.modDie 0 (fun x => { x with atomics := [r] })
     t.ev = .n 0 0 0 ∧ r.asker = .frame 0 2 1 0 ∧ homeOf r.key = 0 ∧ (t.die 0).atomics = [r] ∧ r.cycle < t.copyCycle 0 ∧
     ((t.modDie 0 (fun x => { x with atomics := [] })).atomicAt r.key r.size r.op r.x r.cmp).2 = some 0) := by decide +kernel

/-! Engines. -/

theorem wit_EngineEvents_urgent :
    (let s : State := { evReset (.n 0 9 0) with
       dies := [(0, { Die.reset with fills := [(0, 9)], slice := [(3, ⟨900, true, 2⟩)], misses := 1, grant := 2 })] }
     s.fillHome 0 9 = some 0 ∧ s.urgentLine 0 = true ∧ s.writeBackNext 0 = some 3) ∧
    (let s : State := { evReset (.n 0 9 0) with dies := [(0, { Die.reset with fills := [(0, 9)] })] }
     s.urgentLine 0 = false ∧ s.portTurn 0 0 = true) ∧
    (let s : State := { evReset (.n 0 0 0) with
       dies := [(0, { Die.reset with slice := [(3, ⟨900, true, 1⟩)], misses := 1 })], agenda := [⟨.portRequestService, .n 0 0 0⟩] }
     s.writeBackNext 0 = none ∧ 0 < (s.die 0).misses ∧ s.portTurn 0 0 = true ∧
     (∀ r ∈ (s.die 0).ports, r.served.isSome = true)) ∧
    (let s : State := { evReset (.n 0 0 0) with
       dies := [(0, { Die.reset with slice := [(3, ⟨900, true, 1⟩)], ports := [req none none] })],
       agenda := [⟨.portRequestService, .n 0 0 0⟩] }
     s.writeBackNext 0 = some 3 ∧ (s.die 0).grant = 0 ∧ s.portTurn 0 1 = true) := by decide +kernel

/-- A slot under refresh. -/
def refreshed (s : State) : State := s.modCore 0 (fun x => { x with refreshing := some 0 })

theorem wit_EngineEvents_streams_wait :
    (rgsOf ((queueOf 2 0 false none).pos 0) 512).any
      ((refreshed (streaming (queueOf 2 0 false (some (stream false 0))))).inRefresh (dieOf 0)) = true ∧
    (rgsOf ((queueOf 2 0 false none).pos 0) 512).any ((streaming (queueOf 2 0 false (some (stream false 0)))).inRefresh (dieOf 0)) =
      false ∧
    (let s := streaming (queueOf 3 1 false (some (stream true 0)))
     ({ s with rgs := [] } : State).readFault 0 [0] 512 = some (Stop.of 0x08) ∧
     ({ s with parts := [(64, { Partition.reset with pages := [(0, 30, 0)] })] } : State).cutHolds 0 0x4000 512 = true) ∧
    ({ streaming (queueOf 2 0 false (some (stream false 0))) with poison := [(4 * 2 ^ 30, true)] } : State).uncorr
      ((List.range 512).map (fun i => 4 * 2 ^ 35 + i)) = true ∧
    (streaming (queueOf 2 0 false (some (stream false 0)))).uncorr ((List.range 512).map (fun i => 4 * 2 ^ 35 + i)) = false := by
  decide +kernel

/-- What a k-step stops on. -/
def stepCode {α : Type} : Except StepFault α → Nat
  | .ok _ => 0
  | .error f => f.code + 1

/-- A core that performs an MMA on tile 0; its operands' row groups are valid, or not. -/
def stepping (behind : List Nat) (valid : Bool) : State :=
  let o : MatOp := ⟨3, 0x42, 0, 0x1F5, 0, 0x100000200#64, 0, 0, false, behind⟩
  { withTiles [] 0 { oneTile with ops := [o] } with
    ev := .n 0 3 0, loc := [(0x201, 4), (0x221, 4), (0x241, 4)],
    rgs := if valid then [(0, ⟨true, 0, 0, false, false⟩), (1, ⟨true, 0, 0, false, false⟩)] else [] }

theorem wit_EngineEvents_step :
    (∀ s ∈ [stepping [] true, stepping [] false], ∃ o, (s.eng 0).headIs 3 = some o ∧ o.kb = 0 ∧ o.opcode = 0x42 ∧ 0 < o.blocks ∧
      (s.eng 0).tile o.tile = some ⟨2, 3, false, []⟩ ∧ s.opWaits o = false ∧ o.tile < 8) ∧
    stepCode ((stepping [] true).kStep 0 ⟨3, 0x42, 0, 0x1F5, 0, 0x100000200#64, 0, 0, false, []⟩ ⟨2, 3, false, []⟩) = 0 ∧
    stepCode ((stepping [] false).kStep 0 ⟨3, 0x42, 0, 0x1F5, 0, 0x100000200#64, 0, 0, false, []⟩ ⟨2, 3, false, []⟩) = 3 ∧
    (stepping [] false).slotOfTid 0 7 = some 0 ∧ bit ((stepping [] false).ctxCtl 0 0x078) 63 = false ∧
    (let s := (stepping [9] true).modCtx 0 (fun x => { x with pend := [⟨6, 9, 0, 56, 0, .lanes [], true⟩] })
     s.opWaits ⟨3, 0x42, 0, 0x1F5, 0, 0x100000200#64, 0, 0, false, [9]⟩ = true) := by
  refine ⟨fun s h => ⟨⟨3, 0x42, 0, 0x1F5, 0, 0x100000200#64, 0, 0, false, []⟩, ?_⟩, by decide +kernel, by decide +kernel,
    by decide +kernel, by decide +kernel, by decide +kernel⟩
  rcases List.mem_cons.mp h with h | h
  · subst h; decide +kernel
  · rcases List.mem_cons.mp h with h | h
    · subst h; decide +kernel
    · cases h

/-- A core whose engine performs an operation of an opcode on tile 0. -/
def completing (opc imm : Nat) (behind : List Nat) : State :=
  withTiles [] 0 { oneTile with ops := [⟨3, opc, 0, 0, 0x600, 0, imm, 0, false, behind⟩] }

theorem wit_EngineEvents_complete :
    (∀ p ∈ [(0x40, 0x8000), (0x40, 0x21), (0x41, 0), (0x44, 0)], ∃ o, ((completing p.1 p.2 []).eng 0).headIs 3 = some o ∧
      o.opcode = p.1 ∧ o.imm = p.2 ∧ (completing p.1 p.2 []).mstoreWaits 0 o = false ∧
      ((completing p.1 p.2 []).eng 0).tile o.tile = some ⟨2, 3, false, []⟩ ∧ mapSorted ((completing p.1 p.2 []).eng 0).tiles = true ∧
      Memory.wf (completing p.1 p.2 []) = true ∧ bits o.a 35 32 ≤ 0xA) ∧
    (let s := (completing 0x44 0 [9]).modCtx 0 (fun x => { x with pend := [⟨6, 9, 0, 56, 0, .lanes [], true⟩] })
     s.mstoreWaits 0 ⟨3, 0x44, 0, 0, 0x600, 0, 0, 0, false, [9]⟩ = true) := by
  refine ⟨fun p h => ⟨⟨3, p.1, 0, 0, 0x600, 0, p.2, 0, false, []⟩, ?_⟩, by decide +kernel⟩
  rcases List.mem_cons.mp h with h | h
  · subst h; decide +kernel
  rcases List.mem_cons.mp h with h | h
  · subst h; decide +kernel
  rcases List.mem_cons.mp h with h | h
  · subst h; decide +kernel
  rcases List.mem_cons.mp h with h | h
  · subst h; decide +kernel
  · cases h

/-! Lifetimes and power. -/

theorem wit_LifetimeEvents_tick :
    (let s := (evReset .none).modDie 3 (fun x => { x with online := false }); (s.die 3).online = false ∧ (s.die 4).online = true) ∧
    (let s := evReset .none
     s.tmax 0 (s.band 0) < 105 ∧ 105 < 256 ∧ 20 ≤ s.tmax 0 (s.band 0) ∧ (s.bandTick 0 105).band 0 = 6 ∧
     s.fwok 0 = false ∧ ((s.setDieCtl 0 0x202 (0x8000000000000000#64)).fwok 0 = true) ∧
     s.tmax 0 6 < 200 ∧ (s.bandTick 0 200).band 0 = 7) ∧
    (let s := ((evReset .none).setBand 0 1).modDie 0 (fun x => { x with bandTicks := 99 })
     0 < s.band 0 ∧ 20 ≤ s.tmax 0 (s.band 0) ∧ 20 + 3 ≤ s.tmax 0 (s.band 0 - 1) ∧ 99 ≤ (s.die 0).bandTicks) ∧
    (let s := withRg .none ⟨true, 1000, 0, true, false⟩
     (s.rg 0 3).valid = true ∧ s.elimIn 0 0 0 ≤ (s.rg 0 3).age ∧ s.limitAsked 0 3 = false ∧ s.policy 0 0 = 0 ∧
     ((s.setDieCtl 0 0x170 0x2000).policy 0 0 ≠ 0) ∧ s.ret 0 0 - 4 ≤ (s.rg 0 3).age ∧ Memory.wf s = true) := by decide +kernel

theorem wit_PowerEvents_clocks :
    (let s := ((run []).modCore 0 (fun x => { x with next := 24, matrixWait := 24 }))
     (s.die 0).droopStretch = 0 ∧ (s.core 0).pause = 0 ∧ (s.core 0).next ≤ (s.core 0).matrixWait ∧ 1 ≤ (s.core 0).mdiv ∧
     (s.core 0).next = s.now + 4 * (s.core 0).mdiv) ∧
    (let s := ((run []).modCore 0 (fun x => { x with next := 12, pause := 12 })); (s.core 0).next ≤ s.now + (s.core 0).pause) ∧
    (let s := (run []).modCore 0 (fun x => { x with next := 24, pausing := true })
     (s.core 0).pausing = true ∧ s.now < (s.core 0).next ∧ (s.core 0).running = some 0) ∧
    ((run []).core 0).next ≤ (run []).now := by decide +kernel

theorem wit_PowerEvents_retention :
    (let s0 := (evReset (.n 0 0 0)).setDieCtl 0 0x203 (0x8000000000000000#64)
     let s : State := { s0 with now := 6000000, cores := [(0, { Core.reset with engine := ⟨some 7, [], [], []⟩ })] }
     (s.core 0).idleSince = 0 ∧ s.mayRetain 0 = true ∧ 0 + s.idleTicks (dieOfCore 0) ≤ s.now ∧ (s.flushOwner 0).2.1 = true) ∧
    (let s0 := (evReset (.n 0 0 0)).setDieCtl 0 0x203 (0x8000000000000000#64)
     let s1 : State := { s0 with
       now := 6000000, cores := [(0, { Core.reset with engine := ⟨some 7, [(0, ⟨2, 3, true, []⟩)], [], []⟩ })] }
     let s : State := { s1 with ctxs := [(0, { Ctx.reset with phase := .waitCounter 0 0, tid := 7 })] }
     (s.core 0).idleSince = 0 ∧ s.mayRetain 0 = true ∧ 0 + s.idleTicks (dieOfCore 0) ≤ s.now ∧ (s.flushOwner 0).2.1 = false) := by
  decide +kernel

theorem wit_PowerEvents_samples :
    (let s := (run []).modCore 0 (fun x => { x with issued := ⟨0, 64, 5, 0, 6, 12, 3, 9⟩ })
     (s.core 0).issued.start ≤ s.now ∧ s.now < (s.core 0).issued.stop ∧ s.sampleOf 0 = some ⟨0, 9, false, 64, 0, 5⟩) ∧
    (∀ h ∈ [none, some 3, some 8, some 66],
      let s := (run []).modCore 0 (fun x => { x with held := h })
      (s.core 0).issued.stop ≤ s.now ∧ s.attempts 0 = false ∧ (s.core 0).running = some 0 ∧ (s.core 0).held = h) ∧
    ((evReset .none).core 0).running = none ∧ (evReset .none).sampleOf 0 = none := by decide +kernel

/-! Contexts and tasks. -/

theorem wit_ContextEvents_traps_held : ((tasked (.n 0 0 0) [task7 (.placed 0)] id).core (coreOf 0)).held.getD 0 < 32 := by
  decide +kernel

theorem wit_ContextEvents_busy :
    (let s := (restoring.modTask 0 7 (fun t => { t with spr := 8 })).modCore 0 (fun x => { x with refreshing := some 3 })
     (s.ctx 0).phase = .restoring ∧ (s.taskAt 0).map (fun t => (t.tid, s.rowsBusy 0 t.spr)) = some (7, true)) ∧
    restoring.rowsBusy 0 0 = false ∧ restoring.task (dieOf 0) 7 = some (task7 (.placed 0)) := by decide +kernel

theorem wit_ContextEvents_completion :
    (let s := tasked (.n 0 0 0) [task7 (.placed 0)] (fun x => { x with phase := .done })
     s.opsAway 0 = (s, false) ∧ (s.core (coreOf 0)).next ≤ s.now ∧
     let u := s.modCore 0 (fun x => { x with next := 12 })
     (u.ctx 0).phase = .done ∧ u.now < (u.core (coreOf 0)).next) ∧
    (let s : State := { (mapped 31 []).modCtx 0 (fun x => { x with phase := .done, resRecords := true }) with
       mem := [(0, 1), (3, 16), (2 ^ 35, 1), (2 ^ 35 + 3, 32), (2 ^ 36, 31), (2 ^ 36 + 1, 3)],
       dies := [(0, { Die.reset with ctl := [(0x100, 0x10#64), (0x1D0, 0x8000000000000101#64)], tasks := [task7 (.placed 0)] })] }
     s.owns 0 = false ∧ s.repliesOut 0 = false ∧ (s.resImage 0).isSome = true) := by decide +kernel

theorem wit_ContextEvents_alone : ∀ x ∈ List.range 65, x ≠ 0 →
    ({ evReset (.n 0 0 0) with dies := [(0, { Die.reset with tasks := [task7 .waiting] })] } : State).waitingTasks x = [] := by
  decide +kernel

/-- An audited phase of die 1, in slot 0 of the log of partition 0. -/
def auditing : State :=
  { bound (.n 0 0 0) .run with
    parts := [(0, { Partition.reset with dies := [0, 1], auditing := [[0, 0, 0, 7, 0, 0, 0, 0, 0, 0]] })] }

theorem wit_ContextEvents_audit_room : auditing.nextDie 0 0 = some 1 ∧ (auditing.ctx ((1 * 64 + 0) * 4 + 0)).phase = .free ∧
    auditing.rowsBusy ((1 * 64 + 0) * 4 + 0) 0 = false := by decide +kernel

/-! Collectives and links. -/

/-- The sum of one element at die 0, which ends (0), or broadcasts (1), each chunk as its mark says. -/
def marked (mark op : Nat) : State :=
  let s := collState (.n 0 5 0) (coll op)
  { s with mem := s.mem ++ (if mark = 0 then [] else [(3 * 2 ^ 35 + 0x200, BitVec.ofNat 8 mark)]) }

theorem wit_CollectiveAndLinkEvents_begin : ∀ m ∈ [0, 1, 2],
    (marked m 0).coll 0 5 = some (coll 0) ∧ (coll 0).nchunks = 1 ∧ (coll 0).ending = none ∧ (coll 0).rootNew = false ∧
    (((marked m 0).readRun ((marked m 0).belfry 0 (coll 0)) ((coll 0).w 7).toNat (coll 0).nchunks).2.map
      (fun bs => bs.map (fun b => b.toNat))) = some [m] := by decide +kernel

/-- The same operation over dies 0 and 1, by link 0. -/
def coll2 : Collective := { coll 0 with members := [⟨0, true, false⟩, ⟨1, true, false⟩], trees := [[⟨0, 0, 1⟩]] }

theorem wit_CollectiveAndLinkEvents_touched :
    (collState (.n 0 5 0) coll2).coll 0 coll2.id = some coll2 ∧ coll2.ending = none ∧ coll2.stopped = false ∧ coll2.remote = none ∧
    ((collState (.n 0 5 0) coll2).treesStand 0 coll2).2 = false := by decide +kernel

theorem wit_CollectiveAndLinkEvents_home :
    (let c : Collective := { coll2 with members := [⟨0, true, false⟩, ⟨3, true, true⟩] }
     (({ collState (.n 0 5 0) c with mctl := [(0x1B2, 7)] } : State).homesLost 0 c).2 = true) ∧
    ((collState (.n 0 5 0) (coll 0)).homesLost 0 (coll 0)).2 = false := by decide +kernel

theorem wit_CollectiveAndLinkEvents_late : (0 * 1024 + 3) / 1024 ≠ ({ coll2 with epoch := 1 } : Collective).epoch ∧
    (let c : Collective := { coll 0 with words := [0x20000100#64], members := [⟨0, true, false⟩, ⟨1, true, false⟩], epoch := 2 }
     let f : Frame := frame 0 (.epochAck 0 0 1 1)
     msgOperation f.msg = some (0, 0) ∧ (msgEpoch f.msg).any (fun y => decide (y ≠ c.epoch)) = true ∧ c.pod = true) := by
  decide +kernel

/-! Clauses on held tiles, accesses that follow others, turns, and what the engines compute. -/

/-- Die 0 with a request at its atomic engine for the line of 0x3000. -/
def withAtomic (s : State) : State :=
  s.modDie 3 (fun x => { x with atomics := [⟨4, .write 0 9, 0, 8, 3 * 2 ^ 35, 1, 0, 3, 0⟩] })

theorem wit_ContextReads_partly : bits ((run []).coreCtl 0 0x040) 15 0 = 0 ∧ ((run []).core 0).tags.length ≤ 8 ∧
    bits ((run []).coreCtl 0 0x059) 15 0 = 0 ∧ (∀ j, j < 48 → bit ((run []).dieCtl 0 0x191) j = false) := by decide +kernel

theorem wit_ContextWrites_check : mtcCheck 0x088 1 (run [1]) = some (Stop.of 0x04) ∧ mtcCheck 0x088 1 (run [64]) = none ∧
    (runWith [] (fun x => { x with priv := true })).cx.priv = true ∧
    (opTlbinv 1 2).waits (runWith [0, 0x31] (fun x => { x with priv := true })) = false ∧
    bits ((run [0, 0x31]).g 2) 3 0 = 1 ∧ bits ((run [0, 0x31]).g 2) 6 4 = 3 ∧ bits ((run [0, 0x31]).g 2) 63 7 = 0 ∧
    bits ((run [0, 0x32]).g 2) 3 0 = 2 := by decide +kernel

theorem wit_ContextWrites_privileged :
    (let s := (run []).setRg 0 0 ⟨true, 500, 0, false, false⟩
     let t := s.ctlWrite .priv 0 0x170 100
     Memory.wf s = true ∧ t.elim 0 0 < s.elim 0 0 ∧ t.elim 0 0 ≤ (s.rg 0 0).age ∧ (s.rg 0 0).valid = true ∧ (s.rg 0 0).cls = 0 ∧
     s.limitAsked 0 0 = false) ∧
    ((run []).ctlWrite .priv 0 0x181 1).carved 0 ≠ (run []).carved 0 ∧ ((run []).ctlWrite .priv 0 0x181 0).carved 0 = (run []).carved 0 ∧
    (withEngine [packet 1 [] (.suspended 0)]).suspendedAt 0 0 = some (packet 1 [] (.suspended 0)) ∧
    bit (((run []).setDieCtl 0 0x203 0).dieCtl 0 0x203) 63 = false ∧ ((run []).core 1).running = none ∧ ((run []).core 1).retention = false ∧
    (let s : State := { bound .none .locked with dies := [(0, { Die.reset with part := some 0 })] }; s.dieLocked 0 = true) ∧
    (run []).dieLocked 0 = false ∧ Sys2Proof.Machine.queueOf 0 0x110 = some (.copy 0 0 0) ∧
    mapSorted ((run []).die 0).queues = true ∧
    (let s : State := { bound .none .run with dies := [(0, { Die.reset with part := some 0 })] }
     (s.die 0).part = some 0 ∧ (mapFind s.parts 0).isSome = true) := by decide +kernel

theorem wit_ContextEnds_phase :
    bit ((runWith [] (fun x => { x with priv := true })).setCtxCtl 0 0x088 (0x8000000000000000#64) |>.ctxCtl 0 0x088) 63 = true := by
  decide +kernel

theorem wit_VectorFloatResults_rounded : 0 < (Ex.ofInt 3).den ∧ Ex.lt (gridValue fp32 0x7F7FFFFF) (Ex.ofInt 3) = false ∧
    Ex.lt (gridValue fp32 0x7F7FFFFF) ⟨false, 1, 1, 200⟩ = true ∧ Ex.lt ⟨false, 1, 1, -200⟩ (gridValue fp32 0x800000) = true := by
  decide +kernel

theorem wit_ZeroSignsAndRoundings_mode : awayFromZero .rne ⟨false, 3, 1, -1⟩ (1 % 2 = 1) ⟨false, 1, 1, 0⟩ ⟨false, 2, 1, 0⟩ ∧
    ¬ awayFromZero .rtz ⟨false, 3, 1, -1⟩ (1 % 2 = 1) ⟨false, 1, 1, 0⟩ ⟨false, 2, 1, 0⟩ ∧ bf16 ∈ [fp32, fp16, bf16, f8e4, f8e5] :=
  ⟨by unfold awayFromZero; decide +kernel, by unfold awayFromZero; decide +kernel, by decide⟩

theorem wit_VectorSelectionResults_order : isNan ⟨0x80000000#32, false⟩ = false ∧ isNan ⟨0#32, false⟩ = false := by decide +kernel

theorem wit_Synchronisation_behind :
    (let s : State := { run [0x3000] with lateOps := [⟨3, 0, [], .count 0 0 1⟩], iss := { Issue.reset with base := 5 }, seq := 5 }
     s.anyOpen (s.lateAdds s.iss.ctx 0 0) = true) ∧
    (let s : State := { run [0x3000] with lateOps := [⟨3, 0, [], .arrive 7 0 2 none⟩] }; s.arrivesLate 0 7 = true) ∧
    (let s := runWith [] (fun x => { x with pend := [⟨9, 3, 0, 56, 0, .lanes [], true⟩] })
     let t : State := { s with iss := { s.iss with base := 5 }, seq := 5 }
     t.anyOpen (t.behindPushes t.priorOpen) = true) ∧
    mapSorted ((run []).core 0).icache = true ∧
    (∀ c ∈ [0, 1, 255], ((runWith [] (fun x => { x with phase := .waitCounter 0 5, wdc := 9 })).ctx c).later = []) ∧
    ((runWith [] (fun x => { x with phase := .waitCounter 0 5, wdc := 9 })).ctx 0).phase = .waitCounter 0 5 ∧
    ((runWith [] (fun x => { x with phase := .waitBarrier 7 0 })).ctx 0).phase = .waitBarrier 7 0 ∧
    mapSorted ((runWith [] (fun x => { x with phase := .waitBarrier 7 0 })).ctx 0).arrivals = true := by decide +kernel

theorem wit_CopyAndSpawnAtIssue_later : (run []).iss.cycle < (runWith [] (fun x => { x with spawnLand := 40 })).cx.spawnLand ∧
    bits ((run [0, 0x2000]).g (1 + 1)) 63 13 ≠ 0 ∧ bits ((run [0, 0x1005]).g (1 + 1)) 63 13 = 0 := by decide +kernel

theorem wit_MatrixAtIssue_held :
    let s := withTiles [] 0 { oneTile with ops := [matOp 0x42 true] }
    s.owns s.iss.ctx = true ∧ (s.eng 0).ops.length < 4 ∧ (s.eng 0).held 0 = true ∧ (s.eng 0).tile 0 = some ⟨2, 3, false, []⟩ ∧
    (s.eng (coreOf 0)).held 0 = true ∧
    (let u := withTiles [] 0 { oneTile with tiles := [], ops := [matOp 0x42 true] }
     (u.eng 0).held 0 = true ∧ (u.eng 0).tile 0 = none) := by decide +kernel

theorem wit_StartAndPartitionEvents_offline :
    (((evReset (.boot 5 ⟨none, 0, 0, 0⟩)).modDie 5 (fun x => { x with online := false })).die 5).online = false ∧
    ((evReset (.boot 5 ⟨none, 0, 0, 0⟩)).die 5).online = true := by decide +kernel

theorem wit_HostEvents_waits :
    let s := hosted (.host 0 0x3000 8 (zeros 8) false)
    let held : State := { s with hostHeld := [⟨.hostBar2Write, .host 0 0x3000 8 (zeros 8) false⟩] }
    s.hostWaits s.ev false = false ∧ s.hostWaits s.ev true = true ∧ held.hostWaits held.ev false = true ∧
    s.hostTurn 0 0 0x3000 8 [] false = none ∧ ((withAtomic s).hostTurn 0 0 0x3000 8 [] false).isSome = true ∧
    ((hostSpan (withAtomic s) 8 .write).1.takeTurns (fun _ => 73) (placesIn (hostSpan (withAtomic s) 8 .write).2)).2 ≠ [] ∧
    ({ s with ev := .none } : State).ev = .none := by decide +kernel

/-! The engines. -/

theorem wit_EngineEvents_late :
    ((late (run [])).lateOps.find? (fun o => !(late (run [])).anyOpen o.behind)) = some ⟨3, 0, [], .store [3 * 2 ^ 35] [1]⟩ ∧
    ((run []).lateOps.find? (fun o => !(run []).anyOpen o.behind)) = none ∧
    (late (streaming (queueOf 2 0 false none))).forkWaits { stream false 0 with behind := [3] } = true ∧
    (streaming (queueOf 2 0 false none)).forkWaits (stream false 0) = false := by decide +kernel

/-- What a read of a unit's bytes answers: the bytes, or a code. -/
def readIs (r : State × Except (CopyStop × Bool) (List Byte)) (n : Nat) : Bool :=
  match r.2 with
  | .ok bs => decide (bs.length = n)
  | .error _ => false

theorem wit_EngineEvents_pieces :
    let s := copying (.n 0 1 0) [copy1 1 .running]
    let p := copy1 1 .running
    pkSsp p.h = true ∧ pkDsp p.h = true ∧ pkConv p.h = 0 ∧ 0 < p.rowLen ∧ p.pieces 0 = [⟨0, 0, 1⟩] ∧
    s.localMapped 0 0 1 = true ∧ (rgsOf 0 1).any (s.inRefresh 0) = false ∧ (s.readFault 0 [0] 1).isNone = true ∧
    (s.readFault 0 [0x400] 1).isSome = true ∧ s.localMapped 0 (2 ^ 29) 1 = false ∧ p.dstAt none 0 0 = 16 ∧
    s.localMapped 0 16 1 = true ∧ Memory.wf s = true ∧ p.turn ≠ 0 + 1 ∧ ({ p with turn := 1 } : Packet).turn = 0 + 1 ∧
    (∀ k ∈ s.unitKeys 0 p 0, k < hostBase → (s.die (homeOf k)).atomics = []) ∧
    p.targets = [none] ∧ p.prog < p.nUnits ∧ ({ p with units := [0] } : Packet).nUnits ≤ ({ p with units := [0] } : Packet).prog ∧
    (let m := mapped 31 []
     spanBad (m.spanBy 0 none true 0x3000 1 .read) = false ∧ spanBad (m.spanBy 0 none true 0x3000 1 .write) = false ∧
     spanBad ((run []).spanBy 0 none true 0x3000 1 .write) = true ∧ m.uncorr [3 * 2 ^ 35] = false) := by decide +kernel

theorem wit_EngineEvents_plane_reads :
    let s := stepping [] true
    (∀ g ∈ rgsOf 0x200 8, s.inRefresh 0 g = false ∧ (s.rg 0 g).valid = true ∧ (s.rg 0 g).poison = false) ∧
    s.seenBytes 0x200 8 = true ∧
    (∃ g ∈ rgsOf 0 8, (refreshed s).inRefresh 0 g = true) ∧ ((stepping [] false).rg 0 1).valid = false ∧
    ((s.setRg 0 1 ⟨true, 0, 0, false, true⟩).rg 0 1).poison = true ∧
    stepCode (s.aRow 0 ⟨3, 0x42, 0, 0x1F5, 0, 0x100000200#64, 0, 0, false, []⟩ 0) = 0 ∧
    stepCode (s.bCol 0 ⟨3, 0x42, 0, 0x1F5, 0, 0x100000200#64, 0, 0, false, []⟩ 3 0) = 0 ∧
    stepCode (s.apBlock 0 0x200 2 1 false) = 0 ∧ stepCode (s.apBlock 0 0x200 3 1 false) = 2 ∧
    stepCode (s.q4Block 0 0x200 0 1 0) = 0 ∧ stepCode (s.engRead 0 0x200 8) = 0 := by decide +kernel

theorem wit_EngineEvents_accumulates :
    blockPartial false [.nan] ⟨[1], ⟨false, 1, 1, 0⟩, [.fin (Ex.ofInt 1)], false, false⟩ = (0x7FC00000, false) ∧
    (∀ e, FVal.inf true ≠ .fin e) ∧ (.inf false ∈ List.zipWith FVal.mul [.inf false] [.fin (Ex.ofInt 1)]) ∧
    (5 : Nat) % 2 ^ 31 ≠ 0 ∧ (2 ^ 31 : Nat) % 2 ^ 31 = 0 ∧ 0 < (Ex.ofInt 7).den := by
  refine ⟨by decide +kernel, by simp, by decide +kernel, by decide, by decide, by decide⟩

/-- Core 0's engine belongs to a task that stands in slot 0, or is saved in an image of die 0. -/
def ownedBy (resident : Bool) (e : Engine) : State :=
  { imageState (if resident then .placed 0 else .saved 256) (fun x => if resident then x else { x with phase := .free, tid := 0 }) with
    cores := [(0, { Core.reset with running := if resident then some 0 else none, engine := { e with owner := some 7 } })] }

theorem wit_EngineEvents_flush :
    (ownedBy true oneTile).slotOfTid 0 7 = some 0 ∧ ((ownedBy true oneTile).ctx 0).phase ≠ .done ∧
    ((ownedBy true oneTile).eng 0).owner = some 7 ∧ ((ownedBy true oneTile).eng 0).ops = [] ∧
    (ownedBy true oneTile).resImage 0 = some 0 ∧ ((ownedBy true oneTile).writeOwner 0 7 0 false oneTile).2.1 = true ∧
    ((ownedBy false oneTile).slotOfTid 0 7 = none) := by decide +kernel

theorem wit_EngineEvents_records :
    (tileBytes 0 ⟨2, 3, false, []⟩).length = 40 ∧ (∀ s : State, s.areaRuns 0 0x1C000 false oneTile.tiles [] =
      (s, (0, leBytes 8 1) :: recordRuns [] 8 [(some 0, tileBytes 0 ⟨2, 3, false, []⟩)])) ∧
    (0, 8, (tileBytes 0 ⟨2, 3, false, []⟩).length) ∈ [(0, 8, 40)] ∧
    (let s := ownedBy true { oneTile with writes := [⟨4, 0, [(1, ⟨2, false⟩)]⟩] }
     (s.eng 0).writes = [⟨4, 0, [(1, ⟨2, false⟩)]⟩] ∧ (s.eng 0).tile 0 = some ⟨2, 3, false, []⟩) ∧
    (let s := { imageState (.placed 0) (fun x => { x with resRecords := true }) with ev := .n 0 0 0 }
     (s.ctx 0).resRecords = true ∧ s.resImage 0 = some 0 ∧ (s.readTileArea 0 (s.imageVa 0 + 0x1C000)).2.isSome = true ∧
     ((s.readTileArea 0 (s.imageVa 0 + 0x1C000)).1.ctx 0).tid = (s.ctx 0).tid ∧ s.owns 0 = false) ∧
    ((ownedBy true oneTile).flushOwner 0).2.1 = true ∧ (((ownedBy true oneTile).flushOwner 0).1.ctx 0).phase = .ready := by
  refine ⟨by decide +kernel, fun _ => rfl, by decide +kernel, by decide +kernel, by decide +kernel, by decide +kernel, by decide +kernel⟩

/-! Lifetimes, power and tasks. -/

theorem wit_LifetimeEvents_restoring :
    (let s := ({ restoring with agenda := [⟨.contextRestore, .n 0 7 256⟩] } : State).modTask 0 7 (fun t => { t with spr := 8 })
     s.rgOwner 0 0 = some 0 ∧ (s.taskAt 0).map (fun t => t.tid) = some 7 ∧
     (s.taskAt 0).bind (s.restoresFrom 0) = some 256) ∧
    (restoring.readWord 0 (restoring.imageVa 256 + 0x40)).2 = some 0 ∧ bit (0 : W64) 63 = false ∧
    bit (0x8000000100000000#64) 63 = true ∧ (∀ c ∈ [0, 1], ((run []).ctx c).phase ≠ .restoring) := by decide +kernel

theorem wit_PowerEvents_loss :
    ((evReset (.n 5 0 0)).die 5).online = true ∧ (evReset .none).dieLive 5 = false ∧
    ((evReset (.n 5 0 0)).setModCtl 0x1B2 32).dieLive 5 = true ∧
    (let s := (evReset (.n 5 0 0)).modDie 5 (fun x => { x with launches := [⟨9, 0, 0, 0, false, 0, 0, 1, 1, none⟩], online := false })
     (s.die 5).launches = [⟨9, 0, 0, 0, false, 0, 0, 1, 1, none⟩] ∧ s.touchesDie 5 5 ⟨9, 0, 0, 0, false, 0, 0, 1, 1, none⟩ = true ∧
     (s.die 5).online = false) := by decide +kernel

theorem wit_ContextEvents_refetch :
    (run []).refetchAt 0 = 0 ∧ (rgsOf 0 64).any ((refreshed (runRg [] [0])).inRefresh 0) = true ∧
    (rgsOf 0 64).any ((runRg [] [0]).inRefresh 0) = false ∧ (runRg [] [0]).localOk 0 0 64 = true ∧
    (runRg [] [0]).validRange 0 0 64 = true ∧ (runRg [] [0]).poisonedRange 0 0 64 = false ∧ (run []).validRange 0 0 64 = false ∧
    (runRg [] [0]).intakeFree 0 0 = true ∧ (withEngine (List.replicate 64 (packet 1 [] .intake))).intakeFree 0 0 = false ∧
    pktMalformed ((List.range 8).map (fun i => wordAt ((runRg [] [0]).lbytes 0 0 64) (8 * i))) = false ∧
    (let s : State := { runRg [] [0] with loc := [(1, 3)] }
     pktMalformed ((List.range 8).map (fun i => wordAt (s.lbytes 0 0 64) (8 * i))) = true) := by decide +kernel

theorem wit_ContextEvents_cut_waits :
    (let s := (streamedOut 12 []).modDie 0 (fun x => { x with part := some 0 })
     s.writesOpen 0 = false ∧
     (s.modDie 0 (fun x => { x with atomics := [⟨4, .write 0 9, 0, 8, 3 * 2 ^ 35, 1, 0, 3, 0⟩] })).writesOpen 0 = true ∧
     bit (s.partCtl 0 0x1D8) 63 = true) := by decide +kernel

/-! Collectives and the pod. -/

theorem wit_CollectiveAndLinkEvents_turns :
    (let s := collState (.n 0 5 0) (coll 0)
     s.markOurs 0 (coll 0) 0 = true ∧ s.belfryTurn (s.markKeys 0 (coll 0) 0 0) .chunkMarkWrite 0 5 0 = none ∧
     (∀ p ∈ s.dies, p.2.atomics = []) ∧
     (let u := s.modDie 3 (fun x => { x with atomics := [⟨4, .write 0 9, 0, 8, 3 * 2 ^ 35, 1, 0, 3, 0⟩] })
      (u.belfryTurn [(0, [3 * 2 ^ 35])] .chunkMarkWrite 0 5 0).isSome = true ∧
      u.belfryTurn [(0, [3 * 2 ^ 35])] .chunkMarkWrite 0 5 (2 ^ 64) = none)) ∧
    ({ coll 0 with rootNew := true } : Collective).rootNew = true := by decide +kernel

theorem wit_CollectiveAndLinkEvents_reroute :
    msgOperation (.write 0x3000 [1]) = none ∧ msgOperation (.finish 1 5) = some (1, 5) ∧ msgReroutes (.finish 1 5) = true ∧
    msgReroutes (.output 1 5 0 0 []) = false ∧
    (let s := bound .none .run
     (s.part 0).dies[bits (([0x20000100#64] : List W64).headD 0) 49 44]? = some 0 ∧ s.collNamed 0 1 5 = none ∧
     bit (s.modCtl 0x232) 5 = false) ∧
    (let s := (evReset (.n 2 0 0)).setModCtl 0x1B4 (0x8000000000003000#64)
     bit (s.modCtl 0x1B4) 63 = true ∧ (s.podEntry s.podDie s.ownModule 2).2 = none) := by decide +kernel

/-! Words that the manual gives as examples (Tables 6-5, 7-5, 8-5 to 8-7, 9-2; R205, R208). -/

theorem test_word_cpy_mc : decodeSlot 6 0x00340571#30 none = .ok (.cpyMc 5 16 3) := rfl
theorem test_word_lt_class : decodeSlot 6 0x00510390#30 none = .ok (.ltClass 3 4 5) := rfl
theorem test_word_lld : decodeSlot 6 0x3FF08302#30 none = .ok (.lldBU 3 2 ⟨0x3FF, none⟩) := rfl
theorem test_word_gst : decodeSlot 7 0x00114419#30 none = .ok (.gstWRel 4 5 ⟨1, none⟩) := rfl
theorem test_word_vldg : decodeSlot 6 0x08610525#30 none = .ok (.vldg 5 4 6 2) := rfl
theorem test_word_vspl : decodeSlot 7 0x02104727#30 none = .ok (.vspl 7 1 ⟨33, none⟩) := rfl
theorem test_word_fshri : decodeSlot 0 0x0140872B#30 none = .ok (.fshri 7 2 ⟨20, none⟩) := rfl

/-! Meanings, on the manual's own examples or on values worked by hand; what lands, with its cycle and its register. -/

/-- What an instruction leaves to land. -/
def lands (r : Result) : List (Nat × Nat × Payload) :=
  match r with
  | .next t => t.cx.pend.map (fun w => (w.land, w.reg, w.payload))
  | _ => []

/-- The status an instruction leaves. -/
def statOf (r : Result) : W64 :=
  match r with
  | .next t => t.ctxCtl 0 0x080
  | _ => 0

/-- The code and the cause PC of the stop an instruction takes. -/
def stopOf (r : Result) : Nat × Nat :=
  match r with
  | .next t => (bits (t.ctxCtl 0 0x081) 7 0, (t.ctxCtl 0 0x082).toNat)
  | _ => (0, 0)

theorem test_add_wraps : lands (exec (.add 3 1 2) (run [0xFFFFFFFFFFFFFFFF#64, 1])) = [(1, 3, .scalar 0)] := by decide +kernel
theorem test_add_g0 : lands (exec (.add 0 1 2) (run [1, 2])) = [] := by decide +kernel
theorem test_clz : lands (exec (.clz 3 1) (run [0xA5D])) = [(1, 3, .scalar 52)] := by decide +kernel
theorem test_bfx : lands (exec (.bfx 3 1 2) (run [0x8000000000000000#64, 0x83C])) = [(1, 3, .scalar 0xFFFFFFFFFFFFFFF8#64)] := by
  decide +kernel
theorem test_bfx_u : lands (exec (.bfxU 3 1 2) (run [0x8000000000000000#64, 0x83C])) = [(1, 3, .scalar 8)] := by decide +kernel
theorem test_fshr_window : lands (exec (.fshr 3 2 1) (run [64, 5, 9])) = [(1, 3, .scalar 9)] := by decide +kernel
theorem test_mulh_signed : lands (exec (.mulh 3 1 2) (run [-1, 1])) = [(3, 3, .scalar (-1))] := by decide +kernel
theorem test_sar_beyond : lands (exec (.sar 3 1 2) (run [0x8000000000000000#64, 64])) = [(1, 3, .scalar (-1))] := by decide +kernel
theorem test_idiv_zero : lands (exec (.idiv 3 1 2) (run [7, 0])) = [(20, 3, .scalar (-1))] ∧
    statOf (exec (.idiv 3 1 2) (run [7, 0])) = 0x20 := by decide +kernel
theorem test_irem_sign : lands (exec (.irem 3 1 2) (run [-7, 2])) = [(20, 3, .scalar (-1))] := by decide +kernel
theorem test_jmpr_misaligned : stopOf (exec (.jmpr 1) (runAt 64 [4])) = (0x05, 64) := by decide +kernel

/-- The example of R71: an exact sum of 1 + 2^-8 and 2^-30 is held by rounding to odd, and S is set. -/
theorem test_vadd_round_to_odd :
    (match exec (.vaddF 3 1 2 false 0) (runWith [] (fun x => { x with
        v := [(1 * 128, ⟨0x3F808000#32, false⟩), (2 * 128, ⟨0x30800000#32, false⟩)] })) with
      | .next t => t.cx.pend.map (fun w => match w.payload with
        | .lanes l => (w.land, w.reg, (mapGet Elem.zero l 0))
        | _ => (0, 0, Elem.zero))
      | _ => []) = [(4, 3, ⟨0x3F808001#32, true⟩)] := by decide +kernel
/-- The end of that example: FINROUND of the held value to BF16 gives the direct rounding. -/
theorem test_finround_bf16 : finFloat bf16 .rne (fval ⟨0x3F808001#32, true⟩) = 0x3F81 := by decide +kernel
/-- The example of R67: an AP4 block. -/
theorem test_ap4_block : (apForm 4 false [.fin ⟨false, 3, 1, -1⟩, .fin ⟨true, 3, 1, -2⟩, .fin ⟨false, 5, 1, -4⟩, .fin (Ex.ofInt 0)]).1.take 16 =
    leBytes 8 0x00090C00 ++ leBytes 8 6 := by decide +kernel

/-- A bundle of one ADD runs as the first instruction, and its result is to land one cycle after its issue (R18, R45). -/
theorem test_step_from_reset : nextIs (step (put 0x00510301#30)) (fun t => decide ((t.ctx 0).pend.map (fun w => (w.land, w.reg)) =
    [((t.ctx 0).cycles, 3)]) && decide ((t.ctx 0).pc = 32 + (adding.ctx 0).pc)) = true := by decide +kernel

end Sys2Proof.Tests
end

section
/-! PROOFS. Bundles: what the checks of R43 find in the slots of a bundle, which fault a slot raises at decode (R41, R44),
and the statements O4 and O5. -/

namespace Sys2Proof

/-! The slots of a bundle (R18 to R20). -/

theorem mem_slots8 {i : Nat} : i ∈ slots8 ↔ i < 8 := by
  simp only [slots8, List.mem_cons, List.not_mem_nil, or_false]
  omega

theorem slotClass_eq_s_iff {i : Nat} : slotClass i = .s ↔ i < 2 := by
  unfold slotClass
  repeat' split
  all_goals (simp; omega)

theorem slotClass_eq_v_or_f_iff {i : Nat} : slotClass i = .v ∨ slotClass i = .f ↔ 2 ≤ i ∧ i ≤ 5 := by
  unfold slotClass
  repeat' split
  all_goals (simp; omega)

theorem isOp_iff {x : BitVec 256} {i : Nat} : isOp x i = true ↔ bundleL x i = false ∧ bundleSlot x i ≠ 0 := by
  cases h : bundleL x i <;> simp [isOp, isNop, h]

/-- A literal is legal after an assigned operation whose format it extends (R25). -/
theorem literalOk_iff {x : BitVec 256} {i : Nat} (hi : 1 ≤ i) :
    literalOk x i = true ↔ isOp x (i - 1) = true ∧
      assigned (slotClass (i - 1)) (fOp (bundleSlot x (i - 1))).toNat = true ∧
      takesLiteral (slotClass (i - 1)) (fOp (bundleSlot x (i - 1))).toNat = true := by
  have h0 : i ≠ 0 := by omega
  simp [literalOk, h0, and_assoc]

/-- Control flow stands in an S slot, under the opcodes 0x40 to 0x48 (R23). -/
theorem isControlFlow_iff {x : BitVec 256} {i : Nat} :
    isControlFlow x i = true ↔
      isOp x i = true ∧ i < 2 ∧ 0x40 ≤ (fOp (bundleSlot x i)).toNat ∧ (fOp (bundleSlot x i)).toNat ≤ 0x48 := by
  simp [isControlFlow, slotClass_eq_s_iff, and_assoc]

/-- Only the two S slots can hold control flow. -/
theorem filter_isControlFlow_slots8 (x : BitVec 256) :
    slots8.filter (isControlFlow x) = [0, 1].filter (isControlFlow x) := by
  have hS : ∀ i ∈ [2, 3, 4, 5, 6, 7], ¬ isControlFlow x i = true := by
    intro i hi h
    have h2 := (isControlFlow_iff.mp h).2.1
    simp only [List.mem_cons, List.not_mem_nil, or_false] at hi
    omega
  have hsplit : slots8 = [0, 1] ++ [2, 3, 4, 5, 6, 7] := rfl
  rw [hsplit, List.filter_append, List.filter_eq_nil_iff.mpr hS, List.append_nil]

/-- R23 as `bundleFault` looks for it: there is a second control-flow slot iff both S slots hold one. -/
theorem exists_second_isControlFlow_iff {x : BitVec 256} :
    (∃ i j l, slots8.filter (isControlFlow x) = i :: j :: l) ↔ isControlFlow x 0 = true ∧ isControlFlow x 1 = true := by
  rw [filter_isControlFlow_slots8]
  cases h0 : isControlFlow x 0 <;> cases h1 : isControlFlow x 1 <;> simp [h0, h1]

/-! The checks of R43. -/

/-- A literal that breaks R25 stands in slot 0, where the L bit alone is a fault, or in one of slots 1 to 7. -/
theorem exists_illegal_literal_iff {x : BitVec 256} (hL : ¬ bundleL x 0 = true) :
    (∃ i ∈ slots8, bundleL x i = true ∧ ¬ literalOk x i = true) ↔
      ∃ i, 1 ≤ i ∧ i < 8 ∧ bundleL x i = true ∧ ¬ literalOk x i = true := by
  constructor
  · rintro ⟨i, hi, hLi, hbad⟩
    have h0 : i ≠ 0 := fun h => hL (h ▸ hLi)
    exact ⟨i, by omega, mem_slots8.mp hi, hLi, hbad⟩
  · rintro ⟨i, -, hi, hbad⟩
    exact ⟨i, mem_slots8.mpr hi, hbad⟩

/-- `bundleFault` finds a slot to name iff one of the conditions of R43 holds. -/
theorem bundleFault_isSome_iff {x : BitVec 256} {odd : Bool} :
    (bundleFault x odd).isSome = true ↔
      x.extractLsb' 9 7 ≠ 0 ∨ bundleL x 0 = true ∨
      (∃ i, 1 ≤ i ∧ i < 8 ∧ bundleL x i = true ∧ ¬ literalOk x i = true) ∨
      (isControlFlow x 0 = true ∧ isControlFlow x 1 = true) ∨
      (odd = true ∧ ∃ i ∈ slots8, isOp x i = true ∧ (slotClass i = .v ∨ slotClass i = .f)) := by
  unfold bundleFault
  by_cases hhead : x.extractLsb' 9 7 ≠ 0
  · rw [if_pos hhead]
    exact iff_of_true rfl (.inl hhead)
  by_cases hL : bundleL x 0 = true
  · simp [hL]
  rw [if_neg hhead, if_neg hL, ← exists_illegal_literal_iff hL, ← exists_second_isControlFlow_iff]
  cases hlit : slots8.find? (fun i => bundleL x i && !literalOk x i) with
  | some i =>
    have hbad : bundleL x i = true ∧ ¬ literalOk x i = true := by simpa using List.find?_some hlit
    exact iff_of_true rfl (.inr (.inr (.inl ⟨i, List.mem_of_find?_eq_some hlit, hbad⟩)))
  | none =>
    have hok : ¬ ∃ i ∈ slots8, bundleL x i = true ∧ ¬ literalOk x i = true := by
      simpa using List.find?_eq_none.mp hlit
    simp only [hhead, hL, hok, false_or]
    split
    next i j l hcf => simp [hcf]
    next hcf =>
      have hone : ¬ ∃ i j l, slots8.filter (isControlFlow x) = i :: j :: l := fun ⟨i, j, l, h⟩ => hcf i j l h
      rw [iff_false_intro hone, false_or]
      split
      next hodd => exact iff_of_true rfl (by simpa using hodd)
      next hodd => exact iff_of_false Bool.false_ne_true (by simpa using hodd)

/-- An odd half cycle is an odd issue cycle under a doubled vector divisor (R43, R308). -/
theorem Machine.State.oddHalf_iff {s : Machine.State} {k c : Nat} :
    s.oddHalf k c = true ↔ (s.core k).vdiv = 2 * (s.core k).cdiv ∧ (s.ctx c).cycles % 2 = 1 := by
  simp [Machine.State.oddHalf]

/-! The fault of a slot (R41, R42, R44). -/

/-- Whether slot `i` holds an assigned privileged opcode (R41). -/
def PrivilegedSlot (x : BitVec 256) (i : Nat) : Prop :=
  slotClass i = .m ∧ 0xB0 ≤ (fOp (bundleSlot x i)).toNat ∧ (fOp (bundleSlot x i)).toNat ≤ 0xBF ∧
    assigned .m (fOp (bundleSlot x i)).toNat = true

theorem privilegedSlot_iff {x : BitVec 256} {i : Nat} :
    PrivilegedSlot x i ↔
      (privilegedOp (slotClass i) (fOp (bundleSlot x i)).toNat &&
        assigned (slotClass i) (fOp (bundleSlot x i)).toNat) = true := by
  by_cases hm : slotClass i = .m
  · simp [PrivilegedSlot, privilegedOp, hm, and_assoc]
  · simp [PrivilegedSlot, privilegedOp, hm]

theorem slotFault_user_of_privilegedSlot {x : BitVec 256} {i : Nat} (hop : isOp x i = true) (h : PrivilegedSlot x i) :
    slotFault x false i = some 0x03 := by
  have h' := privilegedSlot_iff.mp h
  simp only [Bool.and_eq_true] at h'
  simp [slotFault, hop, h']

/-- Where no privilege is missing, the fault is that of the decoder. -/
theorem slotFault_of_ok {x : BitVec 256} {priv : Bool} {i : Nat} {j : Instr} (hp : priv = true ∨ ¬ PrivilegedSlot x i)
    (h : slotInstr x i = .ok j) : slotFault x priv i = none := by
  simp only [privilegedSlot_iff, Bool.not_eq_true] at hp
  rcases hp with rfl | hp <;> simp [slotFault, Bool.and_assoc, *]

theorem slotFault_of_error {x : BitVec 256} {priv : Bool} {i : Nat} {e : Reject} (hop : isOp x i = true)
    (hp : priv = true ∨ ¬ PrivilegedSlot x i) (h : slotInstr x i = .error e) : slotFault x priv i = some 0x02 := by
  simp only [privilegedSlot_iff, Bool.not_eq_true] at hp
  rcases hp with rfl | hp <;> simp [slotFault, Bool.and_assoc, *]

/-- A slot that needs no privilege faults alike in both states, and never for privilege. -/
theorem slotFault_user_of_not_privilegedSlot {x : BitVec 256} {i : Nat} (hop : isOp x i = true)
    (h : ¬ PrivilegedSlot x i) : slotFault x false i = slotFault x true i ∧ slotFault x false i ≠ some 0x03 := by
  cases hd : slotInstr x i with
  | ok j => simp [slotFault_of_ok (.inr h) hd]
  | error e => simp [slotFault_of_error hop (.inr h) hd]

/-- No slot raises an illegal-bundle fault of its own. -/
theorem slotFault_ne_illegalBundle (x : BitVec 256) (priv : Bool) (i : Nat) : slotFault x priv i ≠ some 0x01 := by
  unfold slotFault
  dsimp only
  split
  · simp
  split
  · simp
  cases slotInstr x i <;> simp

/-- Decoding answers an illegal-bundle fault iff the checks of R43 name a slot (R44). -/
theorem decodeBundle_illegal_iff {x : BitVec 256} {priv odd : Bool} :
    (∃ n, decodeBundle x priv odd = .error (0x01, n)) ↔ (bundleFault x odd).isSome = true := by
  unfold decodeBundle
  cases hb : bundleFault x odd with
  | some n => simp
  | none =>
    cases hf : slots8.find? (fun i => (slotFault x priv i).isSome) with
    | none => simp
    | some i =>
      have hsome : (slotFault x priv i).isSome = true := by simpa using List.find?_some hf
      obtain ⟨f, hsf⟩ := Option.isSome_iff_exists.mp hsome
      have hne : f ≠ 0x01 := fun h => slotFault_ne_illegalBundle x priv i (h ▸ hsf)
      simp [hsf, hne]

end Sys2Proof

open Sys2Proof Sys2Proof.Machine

/-- Settles O4: an operation either holds an assigned privileged opcode, which user state refuses before it decodes the
slot, or faults alike in both states. -/
theorem privilegedOpcodes : Obligations.PrivilegedOpcodes := by
  intro x i hop
  change (slotFault x false i = some 0x03 ↔ PrivilegedSlot x i) ∧
    (¬ PrivilegedSlot x i → slotFault x false i = slotFault x true i) ∧ _
  refine ⟨⟨fun h => Classical.byContradiction fun hp => (slotFault_user_of_not_privilegedSlot hop hp).2 h,
      slotFault_user_of_privilegedSlot hop⟩,
    fun h => (slotFault_user_of_not_privilegedSlot hop h).1,
    fun j hj => slotFault_of_ok (.inl rfl) hj, fun e he => slotFault_of_error hop (.inl rfl) he⟩

/-- Settles O5: the checks of R43 one by one, in the order of `bundleFault`, each in the words of the statement. -/
theorem illegalBundle : Obligations.IllegalBundle := by
  refine ⟨fun x priv odd => ?_, fun s k c => State.oddHalf_iff⟩
  rw [decodeBundle_illegal_iff, bundleFault_isSome_iff]
  refine or_congr Iff.rfl (or_congr Iff.rfl (or_congr ?literal (or_congr ?controlFlow ?divisor)))
  case literal =>
    refine exists_congr fun i => and_congr_right fun hi => ?_
    simp only [literalOk_iff hi, isOp_iff, bundleL]
  case controlFlow =>
    simp only [isControlFlow_iff, isOp_iff, bundleL]
    constructor
    · rintro ⟨⟨h0, -, hlo0, hhi0⟩, h1, -, hlo1, hhi1⟩
      exact ⟨h0, h1, hlo0, hhi0, hlo1, hhi1⟩
    · rintro ⟨h0, h1, hlo0, hhi0, hlo1, hhi1⟩
      exact ⟨⟨h0, by omega, hlo0, hhi0⟩, h1, by omega, hlo1, hhi1⟩
  case divisor =>
    simp only [mem_slots8, isOp_iff, slotClass_eq_v_or_f_iff, bundleL]
    refine and_congr_right fun _ => exists_congr fun i => ?_
    constructor
    · rintro ⟨-, hheld, h2, h5⟩
      exact ⟨h2, h5, hheld⟩
    · rintro ⟨h2, h5, hheld⟩
      exact ⟨by omega, hheld, h2, h5⟩

end

section
/-! PROOFS. Field extraction: what a scalar operation at issue and a refused field at decode come to, the fields BFX and
BFX.U cut (R205, R206), and the statement O12. -/

namespace Sys2Proof

/-! Fields that must be zero (R30). -/

theorem deRrr_eq_none {c : Reg → Reg → Reg → Instr} {w : BitVec 30} (h : fFl w ≠ 0) : deRrr c w = none := if_neg h

theorem decodeSlot_eq_unusedField {slot : Nat} {w : BitVec 30} {lit : Option (BitVec 30)}
    (hop : assigned (slotClass slot) (fOp w).toNat = true) (hw : decRaw (slotClass slot) w lit = none) :
    decodeSlot slot w lit = .error .unusedField := by
  simp [decodeSlot, hop, hw]

/-- BFX and BFX.U with flags that are not zero. -/
theorem decodeSlot_bfx_of_flags {slot : Nat} {w : BitVec 30} (hs : slot < 2) (hop : fOp w = 0x27 ∨ fOp w = 0x28)
    (hfl : fFl w ≠ 0) : decodeSlot slot w none = .error .unusedField := by
  have hS : slotClass slot = .s := slotClass_eq_s_iff.mpr hs
  rcases hop with hop | hop
  all_goals
    refine decodeSlot_eq_unusedField ?_ ?_
    · simp [hS, hop, assigned, assignedS]
    · simp [hS, hop, decRaw, decS, deRrr_eq_none hfl]

namespace Machine

/-! A scalar operation at issue. -/

/-- It has no checks, holds or pops, so its result is pending at once. -/
theorem scalarOp_exec (d : Reg) (srcs : List Reg) (lat : Nat) (f : State → W64) (s : State) :
    (scalarOp d srcs lat f).exec s = .next (s.pendG d lat (f s)) := rfl

theorem exec_bfx (d a b : Reg) (s : State) :
    exec (.bfx d a b) s = .next (s.pendG d 1 (bfExtract true (s.g a).toInt (s.g b))) :=
  scalarOp_exec d [a, b] 1 _ s

theorem exec_bfxU (d a b : Reg) (s : State) :
    exec (.bfxU d a b) s = .next (s.pendG d 1 (bfExtract false ((s.g a).toNat : Int) (s.g b))) :=
  scalarOp_exec d [a, b] 1 _ s

/-! The control word (R205) and the field it names (R206). -/

theorem bfLen_le (c : W64) : bfLen c ≤ 64 := Nat.min_le_right _ _

theorem bfPos_lt (c : W64) : bfPos c < 64 := Nat.mod_lt _ (by decide)

/-- The `n` bits of an integer from bit `p` on. -/
def intField (x : Int) (p n : Nat) : BitVec n := BitVec.ofInt n (x / (2 ^ p : Nat))

/-- Bits inside the width that gives an integer are its field's bits. -/
theorem intField_getLsbD {w : Nat} (e : BitVec w) {p n i : Nat} (hi : i < n) (hw : p + i < w) :
    (intField e.toInt p n).getLsbD i = e.getLsbD (p + i) := by
  have hshift : intField e.toInt p n = (e.sshiftRight p).signExtend n := by
    rw [intField, BitVec.signExtend, BitVec.toInt_sshiftRight, Int.shiftRight_eq_div_pow]
  have hiw : i < w := by omega
  simp only [hshift, BitVec.getLsbD_signExtend, BitVec.getLsbD_sshiftRight, hi, hiw, hw, Nat.not_le.mpr hiw, decide_true,
    decide_false, Bool.not_false, Bool.true_and, if_true]

/-- `sext64` reads its low bits in two's complement. -/
theorem sext64_toNat {n : Nat} (y : BitVec n) : sext64 n y.toNat = y.signExtend 64 := by
  simp only [sext64, Nat.mod_eq_of_lt y.isLt, ← BitVec.toInt_eq_toNat_cond, BitVec.signExtend]

theorem bfExtract_of_len_eq_zero {c : W64} (h : bfLen c = 0) (signed : Bool) (x : Int) : bfExtract signed x c = 0 := by
  simp [bfExtract, h]

theorem bfExtract_signed {c : W64} (h : 0 < bfLen c) (x : Int) :
    bfExtract true x c = (intField x (bfPos c) (bfLen c)).signExtend 64 := by
  simp only [bfExtract, Nat.ne_of_gt h, if_false, if_true, ← sext64_toNat, intField, BitVec.toNat_ofInt]

theorem bfExtract_unsigned {c : W64} (h : 0 < bfLen c) (x : Int) :
    bfExtract false x c = (intField x (bfPos c) (bfLen c)).setWidth 64 := by
  have hpow : 0 < 2 ^ bfLen c := Nat.two_pow_pos _
  have hnonneg : 0 ≤ x / (2 ^ bfPos c : Nat) % (2 ^ bfLen c : Nat) := Int.emod_nonneg _ (by omega)
  rw [← BitVec.ofNat_toNat, intField, BitVec.toNat_ofInt, ← BitVec.ofInt_natCast, Int.toNat_of_nonneg hnonneg]
  simp only [bfExtract, Nat.ne_of_gt h, if_false, Bool.false_eq_true]

/-- Zeros above bit 63 leave a word's unsigned value. -/
theorem toInt_setWidth_128 (x : W64) : (x.setWidth 128).toInt = x.toNat := by
  have hx : (x.setWidth 128).toNat = x.toNat := BitVec.toNat_setWidth_of_le (by decide)
  rw [BitVec.toInt_eq_toNat_of_lt (by omega), hx]

/-- BFX: the field of the word extended by its sign, then copies of the field's top bit. -/
theorem bfExtract_toInt_getLsbD (x c : W64) (h : 0 < bfLen c) {j : Nat} (hj : j < 64) :
    (bfExtract true x.toInt c).getLsbD j =
      (x.signExtend 128).getLsbD (bfPos c + min j (bfLen c - 1)) := by
  have hp := bfPos_lt c
  have hn := bfLen_le c
  rw [bfExtract_signed h, ← BitVec.toInt_signExtend_of_le (x := x) (v := 128) (by decide), BitVec.getLsbD_signExtend,
    decide_eq_true hj, Bool.true_and]
  split
  next hin => rw [intField_getLsbD _ hin (by omega), Nat.min_eq_left (by omega)]
  next hout =>
    rw [BitVec.msb_eq_getLsbD_last, intField_getLsbD _ (by omega) (by omega), Nat.min_eq_right (by omega)]

/-- BFX.U: the field of the word extended by zeros, then zeros. -/
theorem bfExtract_toNat_getLsbD (x c : W64) (h : 0 < bfLen c) {j : Nat} (hj : j < 64) :
    (bfExtract false (x.toNat : Int) c).getLsbD j =
      (decide (j < bfLen c) && (x.setWidth 128).getLsbD (bfPos c + j)) := by
  have hp := bfPos_lt c
  rw [bfExtract_unsigned h, ← toInt_setWidth_128, BitVec.getLsbD_setWidth, decide_eq_true hj, Bool.true_and]
  by_cases hin : j < bfLen c
  · rw [intField_getLsbD _ hin (by omega), decide_eq_true hin, Bool.true_and]
  · rw [BitVec.getLsbD_of_ge _ _ (by omega), decide_eq_false hin, Bool.false_and]

end Machine

end Sys2Proof

open Sys2Proof Sys2Proof.Machine

/-- Settles O12: the field is a shift of g[a] extended to 128 bits in the operation's way, read bit by bit. -/
theorem fieldExtraction : Obligations.FieldExtraction := by
  refine ⟨rfl, rfl, fun w slot hs hop hfl => decodeSlot_bfx_of_flags hs hop hfl, fun s d a b => ⟨fun hn => ?_, fun hn => ?_⟩⟩
  · have hlen : bfLen (s.g b) = 0 := hn
    simp only [exec_bfx, exec_bfxU, bfExtract_of_len_eq_zero hlen, and_self]
  · exact ⟨_, _, exec_bfx d a b s, exec_bfxU d a b s, fun j hj =>
      ⟨bfExtract_toInt_getLsbD _ _ hn hj, bfExtract_toNat_getLsbD _ _ hn hj⟩⟩

end

section
/-! PROOFS. LIDX: which of its fields are refused at decode (R29, R30) and what it reads of the loop stack at issue (R295),
and the statement O18. -/

namespace Sys2Proof

/-! Operands out of range (R29). -/

theorem deRdI_eq_some {c : Reg → Imm10 → Instr} {w : BitVec 30} {lit : Option (BitVec 30)} (h : fA w = 0) :
    deRdI c w lit = some (c (fD w) ⟨fI10 w, lit⟩) := if_pos h

theorem deRdI_eq_none {c : Reg → Imm10 → Instr} {w : BitVec 30} {lit : Option (BitVec 30)} (h : fA w ≠ 0) :
    deRdI c w lit = none := if_neg h

theorem decodeSlot_eq_operand {slot : Nat} {w : BitVec 30} {lit : Option (BitVec 30)} {i : Instr}
    (hop : assigned (slotClass slot) (fOp w).toNat = true) (hw : decRaw (slotClass slot) w lit = some i)
    (hwf : i.wf = false) : decodeSlot slot w lit = .error .operand := by
  simp [decodeSlot, hop, hw, hwf]

theorem rangeOk_eq_false_iff {x lo hi : Int} : rangeOk x lo hi = false ↔ x < lo ∨ hi < x := by
  simp only [rangeOk, Bool.and_eq_false_iff, decide_eq_false_iff_not, Int.not_le]

theorem wf_lidx_eq_false_iff {d : Reg} {imm : Imm10} : (Instr.lidx d imm).wf = false ↔ imm.int < 0 ∨ 5 < imm.int :=
  rangeOk_eq_false_iff

section Lidx
variable {slot : Nat} {w : BitVec 30} {lit : Option (BitVec 30)}

theorem assigned_of_lidx (hs : slot < 2) (hop : fOp w = 0x47) : assigned (slotClass slot) (fOp w).toNat = true := by
  rw [slotClass_eq_s_iff.mpr hs, hop]
  rfl

/-- Opcode 0x47 of class S is LIDX. -/
theorem decRaw_of_lidx (hs : slot < 2) (hop : fOp w = 0x47) : decRaw (slotClass slot) w lit = deRdI .lidx w lit := by
  simp only [slotClass_eq_s_iff.mpr hs, decRaw, decS, hop, BitVec.reduceToNat]

theorem decodeSlot_lidx_of_a (hs : slot < 2) (hop : fOp w = 0x47) (ha : fA w ≠ 0) :
    decodeSlot slot w lit = .error .unusedField :=
  decodeSlot_eq_unusedField (assigned_of_lidx hs hop) ((decRaw_of_lidx hs hop).trans (deRdI_eq_none ha))

theorem decodeSlot_lidx_of_level (hs : slot < 2) (hop : fOp w = 0x47) (ha : fA w = 0)
    (hlevel : Imm10.int ⟨fI10 w, lit⟩ < 0 ∨ 5 < Imm10.int ⟨fI10 w, lit⟩) :
    decodeSlot slot w lit = .error .operand :=
  decodeSlot_eq_operand (assigned_of_lidx hs hop) ((decRaw_of_lidx hs hop).trans (deRdI_eq_some ha))
    (wf_lidx_eq_false_iff.mpr hlevel)

end Lidx

namespace Machine

/-! LIDX at issue: a scalar operation whose value is that of the entry its level names. -/

theorem exec_lidx_of_entry {d : Reg} {imm : Imm10} {s : State} {e : LoopEntry}
    (h : s.cx.loops[imm.int.toNat]? = some e) :
    exec (.lidx d imm) s = .next (s.pendG d 1 (BitVec.ofNat 64 e.index)) :=
  (scalarOp_exec d [] 1 _ s).trans (by simp only [h])

theorem exec_lidx_of_no_entry {d : Reg} {imm : Imm10} {s : State} (h : s.cx.loops[imm.int.toNat]? = none) :
    exec (.lidx d imm) s = .next (s.pendG d 1 (BitVec.ofInt 64 (-1))) :=
  (scalarOp_exec d [] 1 _ s).trans (by simp only [h])

end Machine

end Sys2Proof

open Sys2Proof Sys2Proof.Machine

/-- Settles O18: of the words with LIDX's opcode, those with a nonzero `a` field or a level outside 0 to 5 are refused, and at
issue the level either lies within the stack, whose entry there gives the result, or at or past its end. -/
theorem loopIndex : Obligations.LoopIndex := by
  refine ⟨rfl, rfl, fun w lit slot hs hop => ⟨fun ha => ?_, fun ha hlevel => ?_⟩,
    fun s d imm _ _ => ⟨fun hin => ?_, fun hout => ?_⟩⟩
  · exact decodeSlot_lidx_of_a hs hop ha
  · exact decodeSlot_lidx_of_level hs hop ha hlevel
  · have hentry := List.getElem?_eq_getElem hin
    exact ⟨_, hentry, exec_lidx_of_entry hentry⟩
  · exact exec_lidx_of_no_entry (List.getElem?_eq_none hout)

end
